-- ==== Sys2Proof/Word.lean ====
section
/-!
DEFINITION. The word types of the model: what the manual treats as bits (R9, R39, R105).
-/
namespace Sys2Proof

/-- A byte of memory, of a register file or of a record. -/
abbrev Byte := BitVec 8

/-- A 16-bit element or record field. -/
abbrev Half := BitVec 16

/-- A vector lane, an accumulator entry or a register of a register block (R9: 32 bits wide). -/
abbrev Lane := BitVec 32

/-- A scalar, descriptor or handle register, an instruction word or an address (R39, R105). -/
abbrev Word := BitVec 64

/-- A predicate register: one bit for each of the 1,024 lanes (R39). -/
abbrev PredBits := BitVec 1024

end Sys2Proof
end

