-- ==== Sys2Proof/Syntax.lean ====
section
/-!
DEFINITION. The commands of the block, one constructor per row of spec/opcode_table.json, and the operands
they carry. An instruction of a compute core is a command that says at which core and slot it issues and
what its fields hold; major and minor follow from the constructor. An event of the environment carries what
the part observes there (a lane, a voltage, a test result).
-/
namespace Sys2Proof

/-- An upset of the guarded arithmetic while a command runs (R429): none, one residue mismatch, or a
mismatch that the replay repeats. -/
inductive Upset where
  | ok
  | once
  | twice
  deriving DecidableEq, Repr

/-- Where an instruction issues: the core number 0 to 191 and the context slot 0 to 3 (R39). `upset` is what
the arithmetic of the command meets (R429). -/
structure At where
  core : Nat
  slot : Nat
  upset : Upset := .ok
  deriving DecidableEq, Repr

/-- The fields of an instruction word below major and minor (R105). -/
structure Fields where
  dst : BitVec 5
  src1 : BitVec 5
  src2 : BitVec 5
  src3 : BitVec 5
  imm : BitVec 32
  deriving DecidableEq, Repr

/-- Register form (major 0x00) or immediate form (major 0x01) of a scalar ALU instruction (R110). -/
inductive AluForm where
  | reg
  | imm
  deriving DecidableEq, Repr

/-- An upset of a tensor tile (R426 to R428): which check fails, in which run of the tile, and whether the
replay fails again. -/
inductive TileUpset where
  | ok
  | residue (run : Nat) (again : Bool)
  | promotion (run : Nat) (again : Bool)
  deriving DecidableEq, Repr

/-- The engines of a core that have a sub-queue (R53). -/
inductive Engine where
  | vector
  | sfu
  | tensor
  | conv
  | dma
  deriving DecidableEq, Repr

/-- What a member of a collective joined with, and its source bytes (R416 to R418). -/
structure PeerJoin where
  minor : Nat
  dataFmt : Nat
  wireFmt : Nat
  red : Nat
  rows : Nat
  rowBytes : Nat
  data : List Byte
  deriving DecidableEq, Repr

/-- The task that a lantern starts in a slot: the code object and entry that give its pc (R42, R140), and its
place in the job (R112). -/
structure TaskStart where
  code : Nat
  entry : Nat
  stage : Nat
  task : Nat
  deriving DecidableEq, Repr

/-- How one lane of a link answers in training (R406, R407). -/
inductive LaneObs where
  | good
  | inverted
  | open_
  | shorted
  deriving DecidableEq, Repr

/-- What the link lantern observes when it trains a link (R406, R407): the four lanes, their order, whether
the far end drives instead of terminating, whether the receiver sees its own nonce, and the width that the far
end can use. -/
structure LinkObs where
  lane0 : LaneObs
  lane1 : LaneObs
  lane2 : LaneObs
  lane3 : LaneObs
  reversed : Bool
  txToTx : Bool
  loopback : Bool
  farWidth : Nat
  deriving DecidableEq, Repr

/-- The path of a host access to device memory (R468, R469, R496). -/
inductive HostPath where
  | cxlMem
  | bar2
  deriving DecidableEq, Repr

/-- A remote access that arrives on a levee port (R414). -/
inductive RemoteAccess where
  | read (addr : Word) (len : Nat)
  | write (addr : Word) (data : List Byte)
  | amoAdd (addr : Word) (operand : Word)
  deriving DecidableEq, Repr

/-- The storage an SRAM error strikes (R435). -/
inductive SramPlace where
  | slotStore (core slot : Nat)
  | clearBlock (core : Nat)
  | icache (core code line : Nat)
  | homeCache (die : Nat)
  | pageQueue (core slot : Nat)
  | sharedClean (die : Nat)
  | sharedDirty (die : Nat) (name : Nat)
  | sfuBank (core : Nat)
  | replayCauseway (port : Nat)
  | replayLevee (link : Nat)
  | lantern (n : Nat)
  | warden
  deriving DecidableEq, Repr

/-- What a memory error strikes: a word of a stack or DDR channel, by name, or a home-table entry, by extent
(R436 to R438). -/
inductive MemPlace where
  | word (name : Nat)
  | homeEntry (extent : Nat)
  deriving DecidableEq, Repr

/-- A unit other than a core that an in-service test takes (R448). -/
inductive TestUnit where
  | link (n : Nat)
  | codec (media eng : Nat)
  | sluice (tier s : Nat)
  | collective (link eng : Nat)
  | sfuTables (core : Nat)
  deriving DecidableEq, Repr

/-- One reading of an external sensor input (R566), with the value in the unit of R513 where it is valid. -/
inductive SensorReading where
  | valid (v : Int)
  | open_
  | short
  deriving DecidableEq, Repr

/-- The result of memory training in phase P4 (R551, R554): stacks and DDR channels that failed twice. -/
structure TrainResult where
  badStacks : List Nat
  badChannels : List Nat
  deriving DecidableEq, Repr

/-- The port a security request arrives at (R531). -/
inductive Port where
  | pf0
  | vf (k : Nat)
  | mgmt
  | levee (link : Nat)
  | jtag
  deriving DecidableEq, Repr

/-- An SPDM request (R530): the certificate chain of slot 0, or a measurement with the requester's nonce. -/
inductive SpdmReq where
  | certificate
  | measurement (index : Nat) (nonce : List Byte)
  deriving DecidableEq, Repr

/-- A request on JTAG (R531, R532). -/
inductive JtagKind where
  | readReg
  | halt
  | scan
  | memRead
  | memWrite
  deriving DecidableEq, Repr

/-- A host snoop of a line of the coherent cache (R477). -/
inductive SnoopKind where
  | data
  | invalidate
  | current
  deriving DecidableEq, Repr

/-- The commands of the block: one constructor per row of the table of operations and events. -/
inductive Instr where
  /-- ADD (R110). Scalar add of two registers or of a register and an immediate, wrapping modulo 2^64. -/
  | add (at_ : At) (form : AluForm) (f : Fields)
  /-- SUB (R110). Scalar subtract, wrapping modulo 2^64. -/
  | sub (at_ : At) (form : AluForm) (f : Fields)
  /-- AND (R110). Scalar bitwise AND. -/
  | and (at_ : At) (form : AluForm) (f : Fields)
  /-- OR (R110). Scalar bitwise OR. -/
  | or (at_ : At) (form : AluForm) (f : Fields)
  /-- XOR (R110). Scalar bitwise XOR. -/
  | xor (at_ : At) (form : AluForm) (f : Fields)
  /-- SLL (R110). Scalar logical shift left by src2 mod 64. -/
  | sll (at_ : At) (form : AluForm) (f : Fields)
  /-- SRL (R110). Scalar logical shift right by src2 mod 64. -/
  | srl (at_ : At) (form : AluForm) (f : Fields)
  /-- SRA (R110). Scalar arithmetic shift right by src2 mod 64. -/
  | sra (at_ : At) (form : AluForm) (f : Fields)
  /-- SLT (R110). Sets dst to 1 if src1 is less than src2, signed, else 0. -/
  | slt (at_ : At) (form : AluForm) (f : Fields)
  /-- SLTU (R110). Sets dst to 1 if src1 is less than src2, unsigned, else 0. -/
  | sltu (at_ : At) (form : AluForm) (f : Fields)
  /-- MIN (R110). Scalar signed minimum. -/
  | min (at_ : At) (form : AluForm) (f : Fields)
  /-- MAX (R110). Scalar signed maximum. -/
  | max (at_ : At) (form : AluForm) (f : Fields)
  /-- MUL (R110). Low 64 bits of the scalar product. -/
  | mul (at_ : At) (form : AluForm) (f : Fields)
  /-- MULH (R110). High 64 bits of the signed scalar product. -/
  | mulh (at_ : At) (form : AluForm) (f : Fields)
  /-- MULHU (R110). High 64 bits of the unsigned scalar product. -/
  | mulhu (at_ : At) (form : AluForm) (f : Fields)
  /-- DIV (R111). Signed quotient rounded toward zero; never faults, with defined results for a zero divisor and for overflow. -/
  | div (at_ : At) (form : AluForm) (f : Fields)
  /-- DIVU (R111). Unsigned quotient; a zero divisor gives all ones. -/
  | divu (at_ : At) (form : AluForm) (f : Fields)
  /-- REM (R111). Signed remainder with the sign of src1; a zero divisor gives src1. -/
  | rem (at_ : At) (form : AluForm) (f : Fields)
  /-- REMU (R111). Unsigned remainder; a zero divisor gives src1. -/
  | remu (at_ : At) (form : AluForm) (f : Fields)
  /-- MOVI (R112). Loads the sign-extended imm32 into a scalar register. -/
  | movi (at_ : At) (f : Fields)
  /-- MOVHI (R112). Loads imm32 into the upper half of a scalar register and keeps the lower half. -/
  | movhi (at_ : At) (f : Fields)
  /-- MOV_SD (R112). Copies a scalar register into a descriptor register, without checks. -/
  | movSd (at_ : At) (f : Fields)
  /-- MOV_DS (R112). Copies a descriptor register into a scalar register. -/
  | movDs (at_ : At) (f : Fields)
  /-- MOV_SA (R112). Copies a scalar register into an accumulator handle, without checks. -/
  | movSa (at_ : At) (f : Fields)
  /-- MOV_AS (R112). Copies an accumulator handle into a scalar register. -/
  | movAs (at_ : At) (f : Fields)
  /-- MOV_VS (R112). Writes the low 32 bits of a scalar register into one vector lane. -/
  | movVs (at_ : At) (f : Fields)
  /-- MOV_SV (R112). Reads one vector lane, zero-extended, into a scalar register. -/
  | movSv (at_ : At) (f : Fields)
  /-- MOV_PS (R112). Writes a scalar register into a 64-bit group of a predicate. -/
  | movPs (at_ : At) (f : Fields)
  /-- MOV_SP (R112). Reads a 64-bit group of a predicate into a scalar register. -/
  | movSp (at_ : At) (f : Fields)
  /-- INFO (R112). Returns the core number, context ID, slot, polder, profile, stage index or task index, as the minor selects. -/
  | info (at_ : At) (minor : BitVec 6) (f : Fields)
  /-- SCALAR_LOAD (R113). Loads 1 to 8 bytes from device memory or from the operand buffer into a scalar register. -/
  | scalarLoad (at_ : At) (minor : BitVec 6) (f : Fields)
  /-- SCALAR_STORE (R113). Stores 1 to 8 bytes of a scalar register to device memory or to the operand buffer. -/
  | scalarStore (at_ : At) (minor : BitVec 6) (f : Fields)
  /-- AMOADD (R114). Indivisibly adds to a 64-bit word at its home and returns the old value. -/
  | amoadd (at_ : At) (f : Fields)
  /-- AMOSWAP (R114). Indivisibly swaps a 64-bit word and returns the old value. -/
  | amoswap (at_ : At) (f : Fields)
  /-- AMOCAS (R114). Indivisibly compares a 64-bit word and swaps it on equality, returning the old value. -/
  | amocas (at_ : At) (f : Fields)
  /-- AMOMAX (R114). Indivisibly sets a 64-bit word to the signed maximum and returns the old value. -/
  | amomax (at_ : At) (f : Fields)
  /-- AMOMIN (R114). Indivisibly sets a 64-bit word to the signed minimum and returns the old value. -/
  | amomin (at_ : At) (f : Fields)
  /-- BEQ (R115). Branches by 8 × imm when the two scalar registers are equal. -/
  | beq (at_ : At) (f : Fields)
  /-- BNE (R115). Branches when the two scalar registers differ. -/
  | bne (at_ : At) (f : Fields)
  /-- BLT (R115). Branches when src1 is less than src2, signed. -/
  | blt (at_ : At) (f : Fields)
  /-- BGE (R115). Branches when src1 is greater than or equal to src2, signed. -/
  | bge (at_ : At) (f : Fields)
  /-- BLTU (R115). Branches when src1 is less than src2, unsigned. -/
  | bltu (at_ : At) (f : Fields)
  /-- BGEU (R115). Branches when src1 is greater than or equal to src2, unsigned. -/
  | bgeu (at_ : At) (f : Fields)
  /-- JAL (R115). Jumps to pc + 8 × imm and writes the link to dst. -/
  | jal (at_ : At) (f : Fields)
  /-- JALR (R115). Jumps to s[src1] + 8 × imm and writes the link to dst. -/
  | jalr (at_ : At) (f : Fields)
  /-- ILLEGAL_OPCODE (R109). Issue of an unassigned major or minor opcode, or of a second word, fails at issue. -/
  | illegalOpcode (at_ : At) (w : Word)
  /-- FADD (R117). Vector floating-point add, per lane under predication. -/
  | fadd (at_ : At) (f : Fields)
  /-- FSUB (R117). Vector floating-point subtract. -/
  | fsub (at_ : At) (f : Fields)
  /-- FMUL (R117). Vector floating-point multiply. -/
  | fmul (at_ : At) (f : Fields)
  /-- FMA (R117). Vector fused multiply-add, rounded once. -/
  | fma (at_ : At) (f : Fields)
  /-- FMS (R117). Vector fused multiply-subtract, rounded once. -/
  | fms (at_ : At) (f : Fields)
  /-- FNMA (R117). Vector negated fused multiply-add, rounded once. -/
  | fnma (at_ : At) (f : Fields)
  /-- FMIN (R117). Vector IEEE minimum, a NaN giving the canonical NaN. -/
  | fmin (at_ : At) (f : Fields)
  /-- FMAX (R117). Vector IEEE maximum, a NaN giving the canonical NaN. -/
  | fmax (at_ : At) (f : Fields)
  /-- FABS (R117). Clears the sign of each lane. -/
  | fabs (at_ : At) (f : Fields)
  /-- FNEG (R117). Inverts the sign of each lane. -/
  | fneg (at_ : At) (f : Fields)
  /-- FCVT_W (R117). Converts FP32 lanes to INT32, clamping, with NaN giving 0. -/
  | fcvtW (at_ : At) (f : Fields)
  /-- FCVT_S (R117). Converts INT32 lanes to FP32. -/
  | fcvtS (at_ : At) (f : Fields)
  /-- BPACK (R117). Packs two FP32 registers into BF16 halves of each lane. -/
  | bpack (at_ : At) (f : Fields)
  /-- BUNPK_L (R117). Unpacks the low BF16 half of each lane to FP32. -/
  | bunpkL (at_ : At) (f : Fields)
  /-- BUNPK_H (R117). Unpacks the high BF16 half of each lane to FP32. -/
  | bunpkH (at_ : At) (f : Fields)
  /-- CMP_EQ (R117). Writes a predicate of lane-wise equality. -/
  | cmpEq (at_ : At) (f : Fields)
  /-- CMP_NE (R117). Writes a predicate of lane-wise inequality. -/
  | cmpNe (at_ : At) (f : Fields)
  /-- CMP_LT (R117). Writes a predicate of lane-wise less-than. -/
  | cmpLt (at_ : At) (f : Fields)
  /-- CMP_LE (R117). Writes a predicate of lane-wise less-or-equal. -/
  | cmpLe (at_ : At) (f : Fields)
  /-- CMP_UNORD (R117). Writes a predicate of lanes where either operand is NaN. -/
  | cmpUnord (at_ : At) (f : Fields)
  /-- CMP_LTU (R117). Writes a predicate of unsigned lane-wise less-than. -/
  | cmpLtu (at_ : At) (f : Fields)
  /-- IADD (R117). Vector 32-bit wrapping add. -/
  | iadd (at_ : At) (f : Fields)
  /-- ISUB (R117). Vector 32-bit wrapping subtract. -/
  | isub (at_ : At) (f : Fields)
  /-- IMUL (R117). Vector 32-bit multiply, low 32 bits. -/
  | imul (at_ : At) (f : Fields)
  /-- IAND (R117). Vector bitwise AND. -/
  | iand (at_ : At) (f : Fields)
  /-- IOR (R117). Vector bitwise OR. -/
  | ior (at_ : At) (f : Fields)
  /-- IXOR (R117). Vector bitwise XOR. -/
  | ixor (at_ : At) (f : Fields)
  /-- ISHL (R117). Vector shift left by src2 mod 32. -/
  | ishl (at_ : At) (f : Fields)
  /-- ISHR (R117). Vector logical shift right by src2 mod 32. -/
  | ishr (at_ : At) (f : Fields)
  /-- ISAR (R117). Vector arithmetic shift right by src2 mod 32. -/
  | isar (at_ : At) (f : Fields)
  /-- IMIN (R117). Vector signed minimum. -/
  | imin (at_ : At) (f : Fields)
  /-- IMAX (R117). Vector signed maximum. -/
  | imax (at_ : At) (f : Fields)
  /-- IMINU (R117). Vector unsigned minimum. -/
  | iminu (at_ : At) (f : Fields)
  /-- IMAXU (R117). Vector unsigned maximum. -/
  | imaxu (at_ : At) (f : Fields)
  /-- VBCAST (R117). Broadcasts the low 32 bits of a scalar register to every lane. -/
  | vbcast (at_ : At) (f : Fields)
  /-- VSEL (R117). Selects per lane between two registers by a predicate. -/
  | vsel (at_ : At) (f : Fields)
  /-- VIOTA (R117). Writes each lane's index into it. -/
  | viota (at_ : At) (f : Fields)
  /-- VMOV (R117). Copies a vector register. -/
  | vmov (at_ : At) (f : Fields)
  /-- VLD (R119). Loads 4 KiB from a descriptor range into a vector register. -/
  | vld (at_ : At) (f : Fields)
  /-- VLD_W (R119). Loads narrow elements, widening them and multiplying by σ. -/
  | vldW (at_ : At) (f : Fields)
  /-- VST (R119). Stores a vector register into a descriptor range. -/
  | vst (at_ : At) (f : Fields)
  /-- VST_N (R119). Stores a vector register narrowed and quantised by σ, counting saturations. -/
  | vstN (at_ : At) (f : Fields)
  /-- VPERM (R120). Permutes lanes by an index register. -/
  | vperm (at_ : At) (f : Fields)
  /-- VROT (R120). Rotates lanes by a scalar amount. -/
  | vrot (at_ : At) (f : Fields)
  /-- VZIP (R120). Interleaves the lower halves of two registers. -/
  | vzip (at_ : At) (f : Fields)
  /-- VUNZIP (R120). Concatenates the even lanes of two registers. -/
  | vunzip (at_ : At) (f : Fields)
  /-- VTRANS32 (R120). Transposes a register read as 32 × 32. -/
  | vtrans32 (at_ : At) (f : Fields)
  /-- VGATHER (R121). Gathers 32-bit words from a descriptor range by per-lane indices. -/
  | vgather (at_ : At) (f : Fields)
  /-- VSCATTER (R121). Scatters lanes to words of a descriptor range, the highest lane winning. -/
  | vscatter (at_ : At) (f : Fields)
  /-- PAND (R122). Predicate AND. -/
  | pand (at_ : At) (f : Fields)
  /-- POR (R122). Predicate OR. -/
  | por (at_ : At) (f : Fields)
  /-- PXOR (R122). Predicate XOR. -/
  | pxor (at_ : At) (f : Fields)
  /-- PANDN (R122). Predicate AND NOT. -/
  | pandn (at_ : At) (f : Fields)
  /-- PNOT (R122). Predicate NOT. -/
  | pnot (at_ : At) (f : Fields)
  /-- PSET (R122). Sets every bit of a predicate. -/
  | pset (at_ : At) (f : Fields)
  /-- PCLR (R122). Clears every bit of a predicate. -/
  | pclr (at_ : At) (f : Fields)
  /-- PFIRST (R122). Sets the first n lanes of a predicate. -/
  | pfirst (at_ : At) (f : Fields)
  /-- PCOUNT (R122). Counts the set bits of a predicate into a scalar register. -/
  | pcount (at_ : At) (f : Fields)
  /-- PANY (R122). Returns 1 if any bit of a predicate is set. -/
  | pany (at_ : At) (f : Fields)
  /-- RSUM (R123). Sums each segment of lanes in a fixed pairwise tree. -/
  | rsum (at_ : At) (f : Fields)
  /-- RMAX (R123). Takes the maximum of each segment. -/
  | rmax (at_ : At) (f : Fields)
  /-- RMIN (R123). Takes the minimum of each segment. -/
  | rmin (at_ : At) (f : Fields)
  /-- RSUMSQ (R123). Sums the rounded squares of each segment. -/
  | rsumsq (at_ : At) (f : Fields)
  /-- IRSUM (R123). Integer sum of each segment, wrapping modulo 2^32. -/
  | irsum (at_ : At) (f : Fields)
  /-- ARGMAX (R123). Returns the lowest lane index holding the segment maximum. -/
  | argmax (at_ : At) (f : Fields)
  /-- ARGMIN (R123). Returns the lowest lane index holding the segment minimum. -/
  | argmin (at_ : At) (f : Fields)
  /-- DMA_LD (R124). Moves shaped rows from device memory into a descriptor range. -/
  | dmaLd (at_ : At) (f : Fields)
  /-- DMA_ST (R124). Moves a descriptor range to shaped rows of device memory. -/
  | dmaSt (at_ : At) (f : Fields)
  /-- DMA_BB (R124). Moves shaped rows from one descriptor range to another within the allotment. -/
  | dmaBb (at_ : At) (f : Fields)
  /-- CVT (R125). Converts and quantises one descriptor range into another format. -/
  | cvt (at_ : At) (f : Fields)
  /-- MCOPY (R126). Copies bytes between device addresses as if reading the whole source first. -/
  | mcopy (at_ : At) (f : Fields)
  /-- MFILL (R126). Fills device memory with a 64-bit pattern. -/
  | mfill (at_ : At) (f : Fields)
  /-- FENCE (R128). Holds later commands until earlier accesses are complete at core, package or system scope. -/
  | fence (at_ : At) (f : Fields)
  /-- SEM_POST (R131). Adds a count to a semaphore after an implied package fence and wakes waiters in arrival order. -/
  | semPost (at_ : At) (f : Fields)
  /-- SEM_WAIT (R131). Waits until a semaphore reaches the count, then subtracts it. -/
  | semWait (at_ : At) (f : Fields)
  /-- SEM_WAITGE (R131). Waits until a semaphore reaches the count, leaving it unchanged. -/
  | semWaitge (at_ : At) (f : Fields)
  /-- SEM_SET (R131). Sets a semaphore's value after an implied package fence. -/
  | semSet (at_ : At) (f : Fields)
  /-- SEM_READ (R131). Reads a semaphore's value with no ordering. -/
  | semRead (at_ : At) (f : Fields)
  /-- SEM_WAIT_TIMEOUT (R132). A semaphore wait's timeout expires and it returns 0 with the value untouched. -/
  | semWaitTimeout (at_ : At)
  /-- BAR_SYNC (R134). Arrives at a stage-group barrier and waits; the last arrival releases the generation. -/
  | barSync (at_ : At) (f : Fields)
  /-- WAIT_ENG (R131). Waits until every earlier command of the context on the selected engines has completed. -/
  | waitEng (at_ : At) (f : Fields)
  /-- NOP (R136). Does nothing. -/
  | nop (at_ : At) (f : Fields)
  /-- TRAP (R136). Ends the job with fault TRAP carrying a code. -/
  | trap (at_ : At) (f : Fields)
  /-- CNT_READ (R137). Reads one of the slot's numeric, activity or declined-hint counters. -/
  | cntRead (at_ : At) (f : Fields)
  /-- TIME (R136). Reads the 64-bit package timestamp. -/
  | time (at_ : At) (f : Fields)
  /-- END (R136). Ends the task once all its commands have completed and their writes are visible. -/
  | endTask (at_ : At) (f : Fields)
  /-- STEST (R136). Enters the self-test program, for context 0 only. -/
  | stest (at_ : At) (f : Fields)
  /-- TMM (R155). Reads and checks a loop descriptor table at issue, then runs its loop nest tile by tile. -/
  | tmm (at_ : At) (f : Fields) (w2 : Word)
  /-- TENSOR_TILE_RUN (R162). The array runs one staged tile of a TMM as one command of the round-robin, promoting its runs and storing finished slots. -/
  | tensorTileRun (core : Nat) (upset : TileUpset)
  /-- TACC_ZERO (R147). Sets every entry of a handle's tile to +0. -/
  | taccZero (at_ : At) (f : Fields) (w2 : Word)
  /-- TACC_ST (R149). Stores a handle's tile converted to a named format. -/
  | taccSt (at_ : At) (f : Fields) (w2 : Word)
  /-- TACC_LD (R149). Loads FP32, BF16 or FP16 data exactly into a handle's tile. -/
  | taccLd (at_ : At) (f : Fields) (w2 : Word)
  /-- TACC_VRD (R149). Copies a 1,024-entry chunk of a tile into a vector register. -/
  | taccVrd (at_ : At) (f : Fields) (w2 : Word)
  /-- TACC_VWR (R149). Copies a vector register into a 1,024-entry chunk of a tile. -/
  | taccVwr (at_ : At) (f : Fields) (w2 : Word)
  /-- EXP (R168). Evaluates e^x on the SFU. -/
  | exp (at_ : At) (f : Fields)
  /-- EXP2 (R168). Evaluates 2^x on the SFU. -/
  | exp2 (at_ : At) (f : Fields)
  /-- LOG (R168). Evaluates ln x on the SFU. -/
  | log (at_ : At) (f : Fields)
  /-- LOG2 (R168). Evaluates log2 x on the SFU. -/
  | log2 (at_ : At) (f : Fields)
  /-- RCP (R168). Evaluates 1/x on the SFU. -/
  | rcp (at_ : At) (f : Fields)
  /-- RSQRT (R168). Evaluates 1/√x on the SFU. -/
  | rsqrt (at_ : At) (f : Fields)
  /-- SQRT (R168). Evaluates √x on the SFU. -/
  | sqrt (at_ : At) (f : Fields)
  /-- SIN (R168). Evaluates sin x on the SFU. -/
  | sin (at_ : At) (f : Fields)
  /-- COS (R168). Evaluates cos x on the SFU. -/
  | cos (at_ : At) (f : Fields)
  /-- TANH (R168). Evaluates tanh x on the SFU. -/
  | tanh (at_ : At) (f : Fields)
  /-- SIGMOID (R168). Evaluates the logistic function on the SFU. -/
  | sigmoid (at_ : At) (f : Fields)
  /-- ERF (R168). Evaluates erf x on the SFU. -/
  | erf (at_ : At) (f : Fields)
  /-- GELU (R168). Evaluates the exact GELU on the SFU. -/
  | gelu (at_ : At) (f : Fields)
  /-- GELU_T (R168). Evaluates the tanh form of GELU on the SFU. -/
  | geluT (at_ : At) (f : Fields)
  /-- SILU (R168). Evaluates SiLU on the SFU. -/
  | silu (at_ : At) (f : Fields)
  /-- SOFTPLUS (R168). Evaluates softplus on the SFU. -/
  | softplus (at_ : At) (f : Fields)
  /-- DGELU (R205). Evaluates the GELU derivative from the table, optionally times a gradient. -/
  | dgelu (at_ : At) (f : Fields)
  /-- DGELU_T (R205). Evaluates the tanh-form GELU derivative from the table. -/
  | dgeluT (at_ : At) (f : Fields)
  /-- DSOFTPLUS (R205). Evaluates the softplus derivative from the table. -/
  | dsoftplus (at_ : At) (f : Fields)
  /-- DSILU (R205). Evaluates the SiLU derivative from x and the recomputed output. -/
  | dsilu (at_ : At) (f : Fields)
  /-- GATE (R179). Checks at issue and starts the fused gate act(g) × u over rows. -/
  | gate (at_ : At) (f : Fields)
  /-- NORM_FWD (R182). Reads its parameter block and starts fused LayerNorm or RMSNorm with modulation over rows. -/
  | normFwd (at_ : At) (f : Fields)
  /-- SMAX_FWD (R186). Reads its parameter block and starts the soft maximum over rows. -/
  | smaxFwd (at_ : At) (f : Fields)
  /-- NORM_BWD (R211). Starts the fused normalisation backward kernel, with optional parameter gradients. -/
  | normBwd (at_ : At) (f : Fields)
  /-- SMAX_BWD (R214). Starts the fused soft-maximum backward kernel. -/
  | smaxBwd (at_ : At) (f : Fields)
  /-- ROW_COMMAND_ROW (R176). An engine processes one row of a GATE, normalisation or soft-maximum command as one command of the round-robin. -/
  | rowCommandRow (at_ : At)
  /-- CONV (R233). Reads a convolution descriptor, checks it and starts a striped convolution on the tensor array. -/
  | conv (at_ : At) (f : Fields) (w2 : Word)
  /-- MAXPOOL (R238). Starts a maximum pooling over windows. -/
  | maxpool (at_ : At) (f : Fields) (w2 : Word)
  /-- AVGPOOL (R238). Starts an average pooling over windows. -/
  | avgpool (at_ : At) (f : Fields) (w2 : Word)
  /-- DWCONV (R238). Starts a depthwise convolution on the vector unit. -/
  | dwconv (at_ : At) (f : Fields) (w2 : Word)
  /-- CONV_PASS (R240). Runs one pass of a convolution or pooling command once its penumbra rows are present, storing it and posting the rows-done counter. -/
  | convPass (at_ : At)
  /-- PENUMBRA_TIMEOUT (R246). An exchange-mode wait sees no counter increase for wait_ms, and the lantern acts on the producing stripe. -/
  | penumbraTimeout (at_ : At)
  /-- ATTN_FWD (R254). Reads and checks an attention descriptor and starts fused forward attention, dense or walked. -/
  | attnFwd (at_ : At) (f : Fields) (w2 : Word)
  /-- ATTN_BWD_KV (R258). Computes dK and dV for one key tile, recomputing scores. -/
  | attnBwdKv (at_ : At) (f : Fields) (w2 : Word)
  /-- ATTN_BWD_Q (R258). Computes dQ for one query tile, recomputing scores. -/
  | attnBwdQ (at_ : At) (f : Fields) (w2 : Word)
  /-- ATTN_MERGE (R260). Merges two partial attention results by their row statistics. -/
  | attnMerge (at_ : At) (f : Fields) (w2 : Word)
  /-- ATTN_STEP (R254). Runs one 128-key or pseudo-token step of an attention command once its page is available. -/
  | attnStep (at_ : At)
  /-- PAGE_WRITE (R273). Writes key and value tokens into a sequence's pages, taking frames and copying on write. -/
  | pageWrite (at_ : At) (f : Fields) (w2 : Word)
  /-- PAGE_SHARE (R274). Shares a page range with another sequence and increments reference counts. -/
  | pageShare (at_ : At) (f : Fields) (w2 : Word)
  /-- PAGE_DROP (R275). Releases a page range, with or without its silhouettes. -/
  | pageDrop (at_ : At) (f : Fields) (w2 : Word)
  /-- PAGE_SEAL (R276). Forms silhouettes of partly filled pages. -/
  | pageSeal (at_ : At) (f : Fields) (w2 : Word)
  /-- FRAME_FREE_AFTER_WALK (R275). Returns a frame whose count reached 0 to the free list once the walks in progress have ended. -/
  | frameFreeAfterWalk (set frame : Nat)
  /-- PAGE_WALK (R278). The region lantern walks a page list for a query tile and emits page descriptors while the queue has room. -/
  | pageWalk (at_ : At)
  /-- PAGE_FETCH_DEADLINE (R280). A pending page's grace expires; the silhouette replaces it if allowed, otherwise the wait continues. -/
  | pageFetchDeadline (at_ : At)
  /-- PAGE_WAIT_LIMIT (R280). A page wait reaches max_wait_ms and the attention command faults. -/
  | pageWaitLimit (at_ : At)
  /-- TIER_UP (R307). Posts extents of a name range for stack homes. -/
  | tierUp (at_ : At) (f : Fields)
  /-- TIER_DOWN (R307). Posts extents of a name range for DDR homes. -/
  | tierDown (at_ : At) (f : Fields)
  /-- TIER_WHERE (R307). Returns the state, tier and slices of an extent. -/
  | tierWhere (at_ : At) (f : Fields)
  /-- COLL_ALLREDUCE (R419). Reads its command block and starts a ring all-reduce across the group. -/
  | collAllreduce (at_ : At) (f : Fields)
  /-- COLL_REDSCAT (R416). Starts a reduce-scatter across the group. -/
  | collRedscat (at_ : At) (f : Fields)
  /-- COLL_ALLGATHER (R416). Starts an all-gather across the group. -/
  | collAllgather (at_ : At) (f : Fields)
  /-- COLL_ALLTOALL (R416). Starts an all-to-all across the group. -/
  | collAlltoall (at_ : At) (f : Fields)
  /-- COLL_BCAST (R416). Starts a broadcast from the root member. -/
  | collBcast (at_ : At) (f : Fields)
  /-- COLL_COMPLETE (R416). A collective finishes once its writes are visible and its sends acknowledged, posting its semaphore. -/
  | collComplete (ctx group : Nat) (peers : List PeerJoin)
  /-- COLL_JOIN_TIMEOUT (R418). A member has not joined within timeout_ms, and every joined member fails. -/
  | collJoinTimeout (ctx group : Nat)
  /-- COLL_ABORT_IN (R418). An abort from a torn-down member arrives, and this member fails. -/
  | collAbortIn (ctx group : Nat)
  /-- ENGINE_DISPATCH (R54). An engine finishes a command and takes the next slot's ready head command in round-robin order. -/
  | engineDispatch (core : Nat) (eng : Engine)
  /-- CLAIM_GRANT (R56). The claim arbiter grants a waiting multi-engine claim once its engines are free of older claims. -/
  | claimGrant (core : Nat)
  /-- ICACHE_FILL (R60). A missing instruction line arrives from the code object's home and the waiting context can issue. -/
  | icacheFill (at_ : At)
  /-- COMPLETION_POST (R131). A command carrying post_en completes and its semaphore receives +1 once its writes are visible. -/
  | completionPost (at_ : At)
  /-- CORE_CTX_ID_WRITE (R40). A lantern places or frees a context slot; profile, polder and ID are ignored while resident. -/
  | coreCtxIdWrite (core slot : Nat) (v : Lane) (start : TaskStart)
  /-- CORE_CTX_ALLOT_WRITE (R44). Sets a slot's allotments, refusing resident, out-of-range or overlapping values. -/
  | coreCtxAllotWrite (core slot : Nat) (v : Lane)
  /-- REGISTER_WRITE (R499). Write to a register without behaviour of its own, applying access codes and partial-write handling. -/
  | registerWrite (fn offset width : Nat) (v : Word)
  /-- RC_REGISTER_READ (R499). A full-width read of a read-to-clear field returns and clears it. -/
  | rcRegisterRead (fn offset width : Nat)
  /-- HUB_TIME_LO_READ (R500). Reading the low timestamp word latches the high word for the next read. -/
  | hubTimeLoRead (fn width : Nat)
  /-- HUB_STACK_SPLIT_WRITE (R24). Sets the die-local share, refused while any object has a stack home, moving the hub structures. -/
  | hubStackSplitWrite (v : Lane)
  /-- HUB_PKG_ID_WRITE (R402). Sets the package ID while links are down or in ident_wait. -/
  | hubPkgIdWrite (v : Lane)
  /-- HUB_VF_POLDER_WRITE (R385). Binds VFs to polders, leaving unchanged fields of VFs with live contexts. -/
  | hubVfPolderWrite (high : Bool) (v : Lane)
  /-- CORE_FENCE_CMD (R431). Fences a core at the runtime's request, moving its tasks. -/
  | coreFenceCmd (core : BitVec 8)
  /-- CORE_UNFENCE_CMD (R431). Unfences a core that has passed a test since its fence, or refuses. -/
  | coreUnfenceCmd (core : BitVec 8)
  /-- POLDER_CTRL_WRITE (R383). Sets a polder's enable, exclusive, priority and slot quota for later submissions and placements. -/
  | polderCtrlWrite (polder : BitVec 4) (v : Lane)
  /-- POLDER_SALT_WRITE (R319). Writing the high salt word makes the pair the polder's salt for later homes. -/
  | polderSaltWrite (polder : BitVec 4) (high : Bool) (v : Lane)
  /-- DIKE_REGISTER_WRITE (R388). Sets a dike's rate or burst, taking effect within 10 µs. -/
  | dikeRegisterWrite (polder : BitVec 4) (dike : BitVec 6) (burst : Bool) (v : Lane)
  /-- DIKE_WINDOW (R388). Each 1-second window checks whether a dike held requests for 900 ms. -/
  | dikeWindow (polder : BitVec 4) (dike : BitVec 6)
  /-- LINK_ENABLE_WRITE (R411). Holds a link disabled or lets it train from step 1. -/
  | linkEnableWrite (link : Nat) (v : Lane)
  /-- LINK_RECAL_REQ (R412). Requests recalibration of a link, refused without an alternate route unless forced. -/
  | linkRecalReq (link : Nat)
  /-- LINK_RECAL_DRAINED (R412). Every flit on a link being recalibrated is acknowledged; it re-equalises and returns to route selection. -/
  | linkRecalDrained (link : Nat)
  /-- LINK_RETRAIN_REQ (R411). Requests full training of a link from step 1. -/
  | linkRetrainReq (link : Nat)
  /-- QUEUE_OWNER_WRITE (R481). PF0 assigns a stopped queue to a function and local index. -/
  | queueOwnerWrite (q : Nat) (v : Lane)
  /-- QUEUE_ENABLE (R481). Starts a queue, or records an error for an invalid configuration. -/
  | queueEnable (fn q : Nat) (v : Lane)
  /-- QUEUE_DISABLE (R491). Stops taking entries, completes taken commands and then clears running. -/
  | queueDisable (fn q : Nat)
  /-- DB_SQ_TAIL (R483). Host writes the SQ tail doorbell, making new entries available. -/
  | dbSqTail (fn q : Nat) (v : Lane)
  /-- DB_CQ_HEAD (R483). Host writes the CQ or event-ring head doorbell, freeing room. -/
  | dbCqHead (fn q : Nat) (v : Lane)
  /-- MSIX_COALESCE_TIMER (R490). The coalescing delay passes and the queue's vector is raised. -/
  | msixCoalesceTimer (q : Nat)
  /-- EVENT_SELECT_WRITE (R509). Selects a log or journal record and latches it into the data registers. -/
  | eventSelectWrite (v : Lane)
  /-- EVENT_CTRL_WRITE (R509). Changes the event source and relatches the current selection. -/
  | eventCtrlWrite (v : Lane)
  /-- EVENT_DATA7_READ (R509). Reading the last data word advances the selection and latches the next record. -/
  | eventData7Read (width : Nat)
  /-- PWR_HOST_LIMIT_WRITE (R514). Sets the host power limit, clamped, applied by the warden within 10 ms. -/
  | pwrHostLimitWrite (v : Lane)
  /-- SUBMIT (R377). Checks a job descriptor and stage map, assigns a context ID and queues its tasks for placement. -/
  | submit (q : Nat)
  /-- SUSPEND (R390). Suspends a job or long operation at its landing points. -/
  | suspend (q : Nat)
  /-- SUSPEND_COMPLETE (R390). The last part of a suspend target lands and the command completes. -/
  | suspendComplete (kind ctx handle : Nat)
  /-- RESUME (R391). Resumes a suspended job or operation, placing its tasks again. -/
  | resume (q : Nat)
  /-- CANCEL (R392). Ends a job or operation like a teardown, without quarantine. -/
  | cancel (q : Nat)
  /-- PROGRESS (R392). Returns a progress record of a job or operation. -/
  | progress (q : Nat)
  /-- RELEASE (R393). Returns a quarantined object to service or destroys it. -/
  | release (q : Nat)
  /-- CODE_LOAD (R141). Checks and loads a code object, giving it an ID and making its extents read-only. -/
  | codeLoad (q : Nat)
  /-- CODE_UNLOAD (R142). Unloads a code object not named by a live job, invalidating its cache lines. -/
  | codeUnload (q : Nat)
  /-- OBJ_CREATE (R291). Creates an object from its descriptor, giving it an ID and homes. -/
  | objCreate (q : Nat)
  /-- OBJ_DESTROY (R290). Destroys an object, refused while a move is in flight. -/
  | objDestroy (q : Nat)
  /-- MOVE (R298). Queues a sluice move or copy command and returns its handle. -/
  | move (q : Nat)
  /-- BIAS_SET (R474). Flips a range of extents to device or host bias. -/
  | biasSet (q : Nat)
  /-- HOST_POOL_ADD (R479). Registers a range of host memory for host-tier homes. -/
  | hostPoolAdd (q : Nat)
  /-- CACHESET_CREATE (R269). Creates a cache set from its CSD, building its free list. -/
  | cachesetCreate (q : Nat)
  /-- CACHESET_DESTROY (R269). Destroys a cache set not named by an issued command, freeing every frame. -/
  | cachesetDestroy (q : Nat)
  /-- BATCHQ_CREATE (R331). Creates a batch queue on a media die. -/
  | batchqCreate (q : Nat)
  /-- BATCHQ_DESTROY (R485). Destroys a batch queue. -/
  | batchqDestroy (q : Nat)
  /-- ENC_OPEN (R356). Checks an encode stream descriptor and holds a stream context. -/
  | encOpen (q : Nat)
  /-- ENC_CLOSE (R371). Closes an encode stream after its posted frames are coded. -/
  | encClose (q : Nat)
  /-- ROUTE_LOAD (R403). Loads a range of routing-table entries. -/
  | routeLoad (q : Nat)
  /-- EXPORT_LOAD (R413). Loads a range of export window entries. -/
  | exportLoad (q : Nat)
  /-- GROUP_CREATE (R415). Creates a collective group. -/
  | groupCreate (q : Nat)
  /-- GROUP_DESTROY (R485). Destroys a collective group. -/
  | groupDestroy (q : Nat)
  /-- SELFTEST (R446). Starts an in-service or offline self-test of the named unit classes. -/
  | selftest (q : Nat)
  /-- TABLE_RELOAD (R191). Requests a reload of the SFU tables of named regions. -/
  | tableReload (q : Nat)
  /-- ENTRY_BAD (R485). Completes an SQ entry with an unassigned opcode. -/
  | entryBad (q : Nat)
  /-- SFU_TABLE_BANK_WRITE (R191). Once no command holds the inactive bank, the lantern writes the new table image into it. -/
  | sfuTableBankWrite (region : Nat)
  /-- SFU_TABLE_FLIP (R191). A core flips to the new table bank at its next instruction boundary. -/
  | sfuTableFlip (core : Nat)
  /-- TASK_PLACE (R380). The job manager offers a waiting task to regions and the region lantern places it on the first fitting core. -/
  | taskPlace
  /-- STRIPED_STAGE_PLACE (R381). A striped stage is placed all together once slots for every task are found. -/
  | stripedStagePlace (ctx stage : Nat)
  /-- STRIPED_STAGE_RESERVE (R379). A striped stage waits 100 ms at the head and lower placements in its dies are held. -/
  | stripedStageReserve (ctx stage : Nat)
  /-- JOB_COMPLETE (R378). Once every task has ended and its resources closed, the job completes and frees its ID. -/
  | jobComplete (ctx : Nat)
  /-- JOB_TEARDOWN (R393). A job fault tears down the job's context: slots, semaphores, streams, moves, cache sets and objects. -/
  | jobTeardown (ctx : Nat)
  /-- TASK_MOVE (R394). After a fence's save completes or fails, a task resumes elsewhere, restarts or is lost. -/
  | taskMove (at_ : At) (saved : Bool)
  /-- CORE_POWER_OFF (R539). A core idle and unoffered for 1 ms is powered off. -/
  | corePowerOff (core : Nat)
  /-- CODEC_POWER_OFF (R539). A codec engine with no ready context for 10 ms is powered off. -/
  | codecPowerOff (media eng : Nat)
  /-- REFRESH_BEGIN (R220). The job manager takes a post of begin_sem, sets the pending epoch and writes a begin record. -/
  | refreshBegin (ctx : Nat)
  /-- REFRESH_BEGIN_DURABLE (R220). The warden reports the begin record durable and stages may write their alternates. -/
  | refreshBeginDurable (ctx : Nat)
  /-- REFRESH_STAGE_FLIP (R220). A stage whose ready_sem and flip barrier are complete has its epoch word flipped. -/
  | refreshStageFlip (ctx stage : Nat)
  /-- REFRESH_COMMIT_DURABLE (R220). The commit record becomes durable; the epoch commits and the flip barriers are released. -/
  | refreshCommitDurable (ctx : Nat)
  /-- REFRESH_TIMER_EXPIRY (R223). timeout_ms passes before the commit is durable; the refresh is abandoned and the job faults. -/
  | refreshTimerExpiry (ctx : Nat)
  /-- SLUICE_MARK (R299). The tier lantern checks an extent and marks it moving with its target slices. -/
  | sluiceMark (handle : Nat)
  /-- SLUICE_DRAINED (R299). Writes already accepted at a moving extent's source are complete and the copy starts. -/
  | sluiceDrained (handle : Nat)
  /-- SLUICE_COPY_DONE (R299). The last byte of an extent lands at its target; the entry flips and held writes are released. -/
  | sluiceCopyDone (handle : Nat)
  /-- SLUICE_SOURCE_FREE (R299). Reads served from a moved extent's source complete and its slices are freed. -/
  | sluiceSourceFree (handle : Nat)
  /-- SLUICE_COPY (R303). A sluice carries out a copy command, stopping at a unit it cannot carry. -/
  | sluiceCopy (handle : Nat)
  /-- AFTERGLOW_IMAGE_SWITCH (R312). When an extent is fully written or 2 µs pass after its last write, its new compressed image is written and switched in. -/
  | afterglowImageSwitch (extent : Nat)
  /-- HOT_CHANNEL_WINDOW (R318). Each 1 ms window the monitor counts accesses per group and checks for hot members. -/
  | hotChannelWindow (group : Nat) (counts : List Nat) (busyPercent : Nat) (polder : BitVec 4)
  /-- SAMPLE_REQUEST_TAKE (R333). A post of req_sem makes the pipeline take and check the next sample request. -/
  | sampleRequestTake (bq : Nat)
  /-- DECODE_START (R327). A request starts decoding once a stream context, buffer and parallelism allow, or fills from the cache. -/
  | decodeStart (bq seq : Nat)
  /-- CODEC_FRAME (R328). At a frame boundary an engine takes the next frame of the next ready stream context and codes it. -/
  | codecFrame (media eng : Nat)
  /-- SAMPLE_COMPLETE (R337). A sample's tensors, mask and record are written into its buffer. -/
  | sampleComplete (bq seq : Nat)
  /-- SAMPLE_DEADLINE_EXPIRY (R342). A request's deadline passes before its sample completes and the sample becomes late. -/
  | sampleDeadlineExpiry (bq seq : Nat)
  /-- BATCH_ASSEMBLE (R343). Once its positions hold samples, the assembler builds the next batch, writes its descriptor and posts batch_sem. -/
  | batchAssemble (bq : Nat)
  /-- ENC_FRAME_TAKE (R357). A post of frame_sem makes the stream take the next frame entry. -/
  | encFrameTake (enc : Nat)
  /-- ENCODE_FRAME (R363). A ready encode frame is coded row by row under the cap, appended, recorded and posted. -/
  | encodeFrame (enc eng : Nat)
  /-- ENCODE_CLOSE_COMPLETE (R370). After the last posted frame is coded, the stream summary is written and the close completes. -/
  | encodeCloseComplete (enc : Nat)
  /-- HOST_MEM_READ (R470). A host CXL.mem or BAR2 read is translated by the home table and bias and served. -/
  | hostMemRead (path : HostPath) (fn : Nat) (addr : Word) (len : Nat)
  /-- HOST_MEM_WRITE (R470). A host CXL.mem or BAR2 write is translated and stored, held or discarded. -/
  | hostMemWrite (path : HostPath) (fn : Nat) (addr : Word) (data : List Byte)
  /-- HDM_DECODER_COMMIT (R469). Commits an HDM decoder, failing for an unsupported interleave or size. -/
  | hdmDecoderCommit (dec : Nat) (base size : Nat) (ways : Nat)
  /-- CXL_LINK_RETRAIN (R459). The CXL link retrains in service at a new width or speed, or goes down. -/
  | cxlLinkRetrain (width : Nat) (speed : Nat)
  /-- HOST_ACCESS_TIMEOUT (R459). A host-memory access still waits 1 s after the link went down and fails. -/
  | hostAccessTimeout (at_ : At)
  /-- VF_FLR (R493). Function-level reset of a VF, or VF Enable cleared, cancels its jobs and stops its queues. -/
  | vfFlr (vf : Nat)
  /-- PF_FLR (R493). Function-level reset of PF0 cancels its jobs and stops its queues. -/
  | pfFlr
  /-- PERST_ASSERT (R495). Assertion of PERST# causes a warm reset. -/
  | perstAssert
  /-- REMOTE_ACCESS_IN (R414). A remote access arriving on a levee port is checked against the export windows and carried out. -/
  | remoteAccessIn (link : Nat) (src : BitVec 12) (acc : RemoteAccess)
  /-- PACKET_FORWARD (R404). A packet for another package is forwarded by the routing table or discarded. -/
  | packetForward (src dst : BitVec 12) (ctx : BitVec 12) (hops : Nat)
  /-- REMOTE_REQUEST_TIMEOUT (R404). A remote request receives no response within 100 ms and fails. -/
  | remoteRequestTimeout (req : Nat)
  /-- FLIT_CRC_FAIL (R400). A received flit fails its CRC, is discarded and negatively acknowledged. -/
  | flitCrcFail (link : Nat)
  /-- FLIT_NAK_RECEIVED (R400). A negative acknowledgement arrives and the sender resends from the failed sequence. -/
  | flitNakReceived (link : Nat) (seq : BitVec 12)
  /-- LINK_TRAIN (R406). The link lantern trains a link through detect, patterns, lane map and width. -/
  | linkTrain (link : Nat) (obs : LinkObs)
  /-- LINK_TRAIN_ATTEMPT_TIMEOUT (R406). A training-pattern attempt times out after 50 ms. -/
  | linkTrainAttemptTimeout (link : Nat)
  /-- LINK_IDENT_COMPLETE (R406). Both ends hold assigned IDs; the ID check runs and the link comes up or faults. -/
  | linkIdentComplete (link : Nat) (farAssigned : Bool) (farPkg : BitVec 12) (farLink : BitVec 6)
  /-- LANE_LOCK_LOST (R409). A lane loses lock in service and the link retrains at once. -/
  | laneLockLost (link lane : Nat)
  /-- FEC_RATE_WINDOW (R409). Each 1 ms the FEC uncorrectable rate is checked and an excess retrains the link. -/
  | fecRateWindow (link codewords uncorrectable : Nat)
  /-- LINK_LOSS_TIMEOUT (R423). A lost up link has not retrained within 2 ms. -/
  | linkLossTimeout (link : Nat)
  /-- CABLE_PRESENCE_CHANGE (R567). CBL_PRES# shows a cable removed or refitted, letting a faulted link train again. -/
  | cablePresenceChange (link : Nat) (present : Bool)
  /-- CAUSEWAY_CRC_FAIL (R30). A causeway transfer fails its CRC and is resent from the replay buffer. -/
  | causewayCrcFail (port : Nat) (resent : Bool)
  /-- SRAM_ECC_ERROR (R435). SECDED finds an SRAM error, correcting it or acting by the storage struck. -/
  | sramEccError (place : SramPlace) (correctable : Bool)
  /-- MEM_ECC_ERROR (R437). Stack or DDR ECC finds an error, correcting it or poisoning the word. -/
  | memEccError (place : MemPlace) (correctable : Bool)
  /-- PATROL_SCRUB (R436). The patrol scrub reads and corrects both tiers continuously. -/
  | patrolScrub
  /-- FENCE_WINDOW_EXPIRY (R431). A core's mismatch counting window ends and its count restarts. -/
  | fenceWindowExpiry (core : Nat)
  /-- CORE_TEST (R447). Tests one core in service: empties it, runs the test program and records the result. -/
  | coreTest (core : Nat) (pass : Bool)
  /-- UNIT_TEST (R448). Tests or calibrates a link, codec engine, sluice, collective engine or table bank. -/
  | unitTest (unit : TestUnit) (pass : Bool)
  /-- LANTERN_WATCHDOG_EXPIRY (R440). A lantern's watchdog expires and it restarts, or is contained on a second expiry within 1 s. -/
  | lanternWatchdogExpiry (lantern : Nat)
  /-- LANTERN_RESTART_DONE (R440). A restarted lantern rebuilds its state and resumes its duties. -/
  | lanternRestartDone (lantern : Nat)
  /-- HUB_HEARTBEAT_TIMEOUT (R441). The warden sees no hub heartbeat for 100 ms and performs a warm reset. -/
  | hubHeartbeatTimeout
  /-- PAIR_OUTPUT_MISMATCH (R442). The warden's lockstep pair disagrees; both halt and restart, holding rails and resets. -/
  | pairOutputMismatch
  /-- WARDEN_PAIR_RESTART_DONE (R442). The pair runs again and pending journal writes and management requests proceed. -/
  | wardenPairRestartDone
  /-- REGION_FIRMWARE_SWITCH (R444). A region that is empty, or whose update_wait has elapsed, switches its lantern to the new image. -/
  | regionFirmwareSwitch (region : Nat)
  /-- DIE_FIRMWARE_SWITCH (R444). A media, link or tier die switches its lantern at a frame or extent boundary. -/
  | dieFirmwareSwitch (die : Nat)
  /-- HUB_UPDATE_RESTART (R444). The hub suspends every job, restarts its lanterns and resumes the jobs. -/
  | hubUpdateRestart
  /-- FIRMWARE_REVERT (R445). A switched lantern fails its checks and the update reverts. -/
  | firmwareRevert (lantern : Nat)
  /-- EVENT_POST (R453). An event record is numbered, written to the log and journal, and delivered to event queues. -/
  | eventPost
  /-- POWER_LOOP_TICK (R541). Each 1 ms the warden compares input power with the limit and steps throttling. -/
  | powerLoopTick (watts : Nat)
  /-- OVERCURRENT_TRIP (R542). Input power above 1.1 × the limit for 20 µs halves the tensor steps in hardware. -/
  | overcurrentTrip (watts : Nat)
  /-- THERMAL_TERM_UPDATE (R543). The warden moves the thermal term by die and coolant temperatures and flow. -/
  | thermalTermUpdate (die : Nat) (temp : Int) (ms : Nat)
  /-- FLOW_LOW_SUSTAINED (R543). Flow below 1.0 L/min for 1 s caps the thermal term at 1,200 W. -/
  | flowLowSustained
  /-- THERMAL_HOLD_EXPIRY (R543). A die at 115 °C, or at 105 °C for 1 s, turns the main rails off. -/
  | thermalHoldExpiry (die : Nat) (temp : Int)
  /-- SENSOR_SAMPLE (R566). Each 1 ms the warden reads the inlet and flow sensors, declaring faults after 10 bad samples. -/
  | sensorSample (inlet flow : SensorReading)
  /-- INPUT_REVERSED (R556). A reversed 54 V input is blocked and P1 does not start. -/
  | inputReversed (volts10mV : Int)
  /-- INPUT_UNDERVOLT (R556). Input below 40 V for 1 ms sets the thermal term to 1,200 W. -/
  | inputUndervolt (volts10mV : Int)
  /-- MAIN_POWER_LOST (R556). Input below 36 V, or below 40 V for 100 ms, turns the main rails off. -/
  | mainPowerLost (volts10mV : Int)
  /-- INPUT_OVERVOLT (R556). Reports input above 60 V, operation continuing. -/
  | inputOvervolt (volts10mV : Int)
  /-- INPUT_OVERVOLT_TRIP (R556). Input above 63 V for 10 µs opens the input switch. -/
  | inputOvervoltTrip (volts10mV : Int)
  /-- INPUT_RECOVERED (R556). Input in range for 1 s restores the term or starts a cold start from P1. -/
  | inputRecovered (volts10mV : Int)
  /-- STANDBY_LOST (R556). Loss of 12 V standby stops everything. -/
  | standbyLost
  /-- DIMM_SUPPLY_FAULT (R557). A DIMM fuse opens, quarantining DDR homes and removing the tier's capacity. -/
  | dimmSupplyFault (socket milliamps : Nat)
  /-- MGMT_BUS_RECOVERED (R556). The management bus held low for 10 ms is recovered, retrying every second. -/
  | mgmtBusRecovered (attempts : Nat)
  /-- PLL_UNLOCK (R548). A PLL loses lock, causing a region or die reset, or a cold reset for the warden oscillator. -/
  | pllUnlock (domain die region : Nat)
  /-- MGMT_POWER_LIMIT (R540). The management port sets mgmt_limit, clamped to 1,200 W to 3,300 W. -/
  | mgmtPowerLimit (watts : Nat)
  /-- CORE_RESET (R67). Resets one core's slots and caches after its contexts are moved. -/
  | coreReset (core : Nat)
  /-- REGION_RESET (R17). Writes back and invalidates a region's cache half and resets the region. -/
  | regionReset (region : Nat)
  /-- DIE_RESET (R549). Resets a die's logic, lanterns and registers, keeping its memories. -/
  | dieReset (die : Nat)
  /-- DIE_RESET_TIMEOUT (R507). A die not back in service 1 s after its reset is declared out of service. -/
  | dieResetTimeout (die : Nat)
  /-- WARM_RESET (R549). Resets every die except the warden, keeping memories, and starts at P2. -/
  | warmReset
  /-- COLD_RESET (R549). Resets everything including the warden, keeping only journal, fuses and flash. -/
  | coldReset
  /-- WARDEN_START (R551). Phase P0: the warden starts on standby and verifies its image. -/
  | wardenStart
  /-- RAIL_SEQUENCE (R551). Phase P1: after the input stays in range 100 ms, the warden sequences the rails. -/
  | railSequence
  /-- SLOT_VERIFY (R524). Phase P2: the hub verifies the active slot, falling back or to recovery, and loads the lanterns. -/
  | slotVerify
  /-- CXL_READY (R494). Phase P3: CXL trains and configuration retry status ends. -/
  | cxlReady (cxlMode : Bool) (width speed : Nat)
  /-- MEMORY_TRAIN (R551). Phase P4: stacks and DDR train; after a warm reset the home table is restored. -/
  | memoryTrain (res : TrainResult)
  /-- STARTUP_SELFTEST (R551). Phase P5: every core is tested in reference mode and failures are fenced. -/
  | startupSelftest (badCores badDies : List Nat)
  /-- STARTUP_LINK_TRAIN (R551). Phase P6 completes when every link is up or faulted, or after 10 s. -/
  | startupLinkTrain
  /-- JOB_MANAGER_OPEN (R551). Phase P7: the hub opens the job manager. -/
  | jobManagerOpen
  /-- GET_CERTS (R525). Returns the package and die certificates. -/
  | getCerts (port : Port)
  /-- ATTEST (R529). Returns a signed attestation report over a nonce. -/
  | attest (port : Port) (nonce : List Byte)
  /-- SPDM_REQUEST (R530). Serves an SPDM certificate or measurement request over DOE or MCTP. -/
  | spdmRequest (port : Port) (req : SpdmReq)
  /-- SLOT_STATUS (R525). Returns the state of both image slots and the counter. -/
  | slotStatus (port : Port)
  /-- PORT_STATS (R534). Returns and clears the per-port refusal counters. -/
  | portStats (port : Port)
  /-- SLOT_WRITE (R526). Writes data into the inactive image slot. -/
  | slotWrite (port : Port) (slotB : Bool) (offset : Nat) (data : List Byte)
  /-- ACTIVATE (R527). Verifies a slot and makes it active live or at the next warm reset. -/
  | activate (port : Port) (slotB live : Bool) (updateWait : Nat)
  /-- SVN_COMMIT (R528). Raises the rollback counter to the active set's svn by blowing fuses. -/
  | svnCommit (port : Port)
  /-- DEBUG_CHALLENGE (R532). Returns the serial and a fresh one-use challenge. -/
  | debugChallenge (port : Port)
  /-- DEBUG_UNLOCK (R532). Checks a debug token and unlocks JTAG at its level. -/
  | debugUnlock (port : Port) (token : List Byte)
  /-- DEBUG_UNLOCK_EXPIRY (R533). An unlock's lifetime ends and JTAG locks again. -/
  | debugUnlockExpiry
  /-- JTAG_ACCESS (R531). A JTAG scan, halt or memory request is carried out within the unlock's scope or refused. -/
  | jtagAccess (die : Nat) (kind : JtagKind) (addr : Word) (data : Option Word)
  /-- DECOMMISSION (R535). Stores a final report, erases memory and slots, kills the keys and holds the module in recovery. -/
  | decommission (port : Port) (force : Bool)
  /-- DIKE_TOKEN_ACCRUAL (R386). Tokens accrue in a dike's bucket at its rate, and a request held there is admitted once the count rises above 0. -/
  | dikeTokenAccrual (polder : BitVec 4) (dike : BitVec 6) (us : Nat)
  /-- PERST_DEASSERT (R494). Deassertion of PERST# starts the configuration-retry period and the start-up sequence that leads to readiness. -/
  | perstDeassert
  /-- PM_POWER_STATE_WRITE (R462). The host moves a function between D0 and D3hot: memory accesses are refused and interrupts are held until the function returns to D0. -/
  | pmPowerStateWrite (fn : Nat) (d3hot : Bool)
  /-- VF_ENABLE_SET (R492). Setting VF Enable in the SR-IOV capability brings VFs 1 to 15 into existence. -/
  | vfEnableSet
  /-- CXL_CACHE_SNOOP (R477). The host snoops a line held in the hub's 4 MiB coherent cache through CXL.cache, and the hub answers and changes the line's state. -/
  | cxlCacheSnoop (line : Nat) (kind : SnoopKind)
  /-- DIE_BACK_IN_SERVICE (R507). A die reset completes and the die returns from resetting to in service, letting accesses and teardowns that waited on it complete. -/
  | dieBackInService (die : Nat)
  /-- REGION_BACK_IN_SERVICE (R17). A region reset ends: the region's cache half is back in service and the region returns to placement. -/
  | regionBackInService (region : Nat)
  deriving DecidableEq, Repr

end Sys2Proof
end

