-- ==== Sys2Proof/Machine/Map.lean ====
section
/-!
DEFINITION. Sparse maps from a natural number to plain data, the one form in which the state holds memory,
register files, tables and the units of the package. A map lists its entries by rising key and lists no entry
that equals the default, so equal contents are equal data.
-/
namespace Sys2Proof.Machine

variable {β : Type}

/-- What key `i` holds; the default `d` where the map lists nothing. -/
def mapGet (d : β) : List (Nat × β) → Nat → β
  | [], _ => d
  | (k, v) :: m, i => if i = k then v else if i < k then d else mapGet d m i

/-- The entries of consecutive values from key `a`, without those equal to the default. -/
def mapRun [DecidableEq β] (d : β) : Nat → List β → List (Nat × β)
  | _, [] => []
  | a, v :: vs => if v = d then mapRun d (a + 1) vs else (a, v) :: mapRun d (a + 1) vs

/-- The map with consecutive values written from key `a`. -/
def mapPut [DecidableEq β] (d : β) (m : List (Nat × β)) (a : Nat) (vs : List β) : List (Nat × β) :=
  m.takeWhile (fun e => decide (e.1 < a)) ++ mapRun d a vs
    ++ m.dropWhile (fun e => decide (e.1 < a + vs.length))

/-- The map with one key written. -/
def mapSet [DecidableEq β] (d : β) (m : List (Nat × β)) (i : Nat) (v : β) : List (Nat × β) :=
  mapPut d m i [v]

/-- The map with the keys from `a` to `a + n - 1` back at the default. -/
def mapClear (m : List (Nat × β)) (a n : Nat) : List (Nat × β) :=
  m.takeWhile (fun e => decide (e.1 < a)) ++ m.dropWhile (fun e => decide (e.1 < a + n))

/-- The `n` values from key `a`. -/
def mapSlice (d : β) (m : List (Nat × β)) : Nat → Nat → List β
  | _, 0 => []
  | a, n + 1 => mapGet d m a :: mapSlice d m (a + 1) n

/-- Keys rise strictly from `lo` on and no entry equals the default. -/
def mapWfFrom [DecidableEq β] (d : β) : Nat → List (Nat × β) → Bool
  | _, [] => true
  | lo, (k, v) :: m => decide (lo ≤ k) && !decide (v = d) && mapWfFrom d (k + 1) m

/-- The canonical form: keys rise strictly and no entry equals the default. -/
def mapWf [DecidableEq β] (d : β) (m : List (Nat × β)) : Bool := mapWfFrom d 0 m

/-- The first listed key from `lo` on whose entry satisfies `p`. -/
def mapFind (p : Nat → β → Bool) : List (Nat × β) → Option Nat
  | [] => none
  | (k, v) :: m => if p k v then some k else mapFind p m

/-- A map whose values are all replaced; entries that become the default are no longer listed. -/
def mapOver {γ : Type} [DecidableEq γ] (d : γ) (f : β → γ) (m : List (Nat × β)) : List (Nat × γ) :=
  (m.map (fun e => (e.1, f e.2))).filter (fun e => !decide (e.2 = d))

/-- Little-endian bytes of a number, `n` of them (R9). -/
def toBytes : Nat → Nat → List Byte
  | 0, _ => []
  | n + 1, w => BitVec.ofNat 8 w :: toBytes n (w / 256)

/-- The number that little-endian bytes spell (R9). -/
def ofBytes : List Byte → Nat
  | [] => 0
  | b :: bs => b.toNat + 256 * ofBytes bs

/-- The bit field `[hi:lo]` of a number. -/
def fieldOf (w : Nat) (lo width : Nat) : Nat := (w >>> lo) % 2 ^ width

/-- The field from byte `i` of a record, `n` bytes wide, little-endian. -/
def recField (bs : List Byte) (i n : Nat) : Nat := ofBytes ((bs.drop i).take n)

/-- The list with position `i` replaced; a list too short is left as it is. -/
def listSet {α : Type} (l : List α) (i : Nat) (v : α) : List α := l.set i v

/-- `n` divided by `d`, rounded up; 0 where `d` is 0. -/
def ceilDiv (n d : Nat) : Nat := if d = 0 then 0 else (n + d - 1) / d

/-- A list padded with `d` at its end to `n` elements and cut there. -/
def padTo {α : Type} (d : α) (n : Nat) (l : List α) : List α :=
  (l ++ List.replicate (n - l.length) d).take n

/-- The first of the faults whose condition holds. -/
def firstOf {α : Type} : List (Bool × α) → Option α
  | [] => none
  | (c, x) :: l => if c then some x else firstOf l

/-- Consecutive chunks of `n` elements, at most `fuel` of them. -/
def chunksOf {α : Type} (n : Nat) : Nat → List α → List (List α)
  | 0, _ => []
  | fuel + 1, l => if l.isEmpty then [] else l.take n :: chunksOf n fuel (l.drop n)

end Sys2Proof.Machine
end

