-- ==== Sys2Proof/Machine/Fp.lean ====
section
/-!
DEFINITION. Exact values and their rounding (chapter 03): a value is NaN, an infinity, or a signed dyadic
number; each floating-point layout of R70 is decoded to one exactly and a value is rounded to nearest-even
into a layout.
-/
namespace Sys2Proof.Machine

/-- An exact value: `fin neg m e` is (−1)^neg × m × 2^e; a zero keeps its sign. -/
inductive Fv where
  | nan
  | inf (neg : Bool)
  | fin (neg : Bool) (m : Nat) (e : Int)
  deriving DecidableEq, Repr

/-- A floating-point layout (R70): exponent bits, fraction bits, bias, whether the top exponent holds the
infinity and NaNs (`ieee`), and whether only the all-ones code is NaN (`oneNan`, E4M3). -/
structure FpFmt where
  eb : Nat
  mb : Nat
  bias : Nat
  ieee : Bool
  oneNan : Bool
  deriving DecidableEq, Repr

def fp32 : FpFmt := ⟨8, 23, 127, true, false⟩
def bf16 : FpFmt := ⟨8, 7, 127, true, false⟩
def fp16 : FpFmt := ⟨5, 10, 15, true, false⟩
def e4m3 : FpFmt := ⟨4, 3, 7, false, true⟩
def e5m2 : FpFmt := ⟨5, 2, 15, true, false⟩
def e2m3 : FpFmt := ⟨2, 3, 1, false, false⟩
def e3m2 : FpFmt := ⟨3, 2, 3, false, false⟩
def e2m1 : FpFmt := ⟨2, 1, 1, false, false⟩
/-- The SI4 scale (R74): no sign, no infinity, no NaN. -/
def e5m3 : FpFmt := ⟨5, 3, 15, false, false⟩

/-- Width of a layout in bits with its sign. -/
def FpFmt.width (f : FpFmt) : Nat := f.eb + f.mb + 1

/-- Exponent of the last place of a subnormal. -/
def FpFmt.emin (f : FpFmt) : Int := 1 - (f.bias : Int) - f.mb

/-- The code, without sign, of the largest finite magnitude. -/
def FpFmt.maxCode (f : FpFmt) : Nat :=
  if f.ieee then 2 ^ (f.eb + f.mb) - 2 ^ f.mb - 1
  else if f.oneNan then 2 ^ (f.eb + f.mb) - 2
  else 2 ^ (f.eb + f.mb) - 1

/-- The exact value of a code (R70). -/
def FpFmt.decode (f : FpFmt) (code : Nat) : Fv :=
  let neg := code.testBit (f.eb + f.mb)
  let x := fieldOf code f.mb f.eb
  let frac := fieldOf code 0 f.mb
  if f.ieee && x = 2 ^ f.eb - 1 then (if frac = 0 then .inf neg else .nan)
  else if f.oneNan && x = 2 ^ f.eb - 1 && frac = 2 ^ f.mb - 1 then .nan
  else if x = 0 then .fin neg frac f.emin
  else .fin neg (frac + 2 ^ f.mb) (f.emin + (x : Int) - 1)

/-- The canonical NaN of a layout (R71). -/
def FpFmt.nanCode (f : FpFmt) : Nat :=
  if f.ieee then (2 ^ f.eb - 1) * 2 ^ f.mb + (if f = e5m2 then 3 else 2 ^ (f.mb - 1))
  else 2 ^ (f.eb + f.mb) - 1

/-- `n / d` rounded to the nearest integer, a tie to the even one. -/
def rneDiv (n d : Nat) : Nat :=
  let q := n / d
  let r := n % d
  if 2 * r > d || (2 * r = d && q % 2 = 1) then q + 1 else q

/-- The exponent of the leading bit of (n / d) × 2^e, for n and d not 0. -/
def leadExp (n d : Nat) (e : Int) : Int :=
  let g := (Nat.log2 n : Int) - Nat.log2 d
  let below := if g ≥ 0 then n < d * 2 ^ g.toNat else n * 2 ^ (-g).toNat < d
  (if below then g - 1 else g) + e

/-- (n / d) × 2^e as a multiple of 2^q: the numerator and denominator of the multiple. -/
def atExp (n d : Nat) (e q : Int) : Nat × Nat :=
  if e ≥ q then (n * 2 ^ (e - q).toNat, d) else (n, d * 2 ^ (q - e).toNat)

/-- (n / d) × 2^e rounded to nearest-even with `p` significant bits and no last place below 2^emin; the
exponent has no upper bound. The result is the integer and the exponent of its last place. -/
def roundQ (p : Nat) (emin : Int) (n d : Nat) (e : Int) : Nat × Int :=
  if n = 0 then (0, emin)
  else
    let q := max emin (leadExp n d e - (p : Int) + 1)
    let nd := atExp n d e q
    let m := rneDiv nd.1 nd.2
    if m = 2 ^ p then (2 ^ (p - 1), q + 1) else (m, q)

/-- The code, without sign, of m × 2^q, a value that `roundQ` gives for the layout. It exceeds `maxCode`
exactly where the magnitude is above the largest finite one. -/
def FpFmt.pack (f : FpFmt) (m : Nat) (q : Int) : Nat :=
  if m < 2 ^ f.mb then m else (q - f.emin + 1).toNat * 2 ^ f.mb + (m - 2 ^ f.mb)

/-- The sign bit of a layout. -/
def FpFmt.signed (f : FpFmt) (neg : Bool) (code : Nat) : Nat :=
  if neg then code + 2 ^ (f.eb + f.mb) else code

/-- A magnitude rounded into a layout: the code without sign. -/
def FpFmt.magCode (f : FpFmt) (n d : Nat) (e : Int) : Nat :=
  let r := roundQ (f.mb + 1) f.emin n d e
  f.pack r.1 r.2

/-- A value rounded once, to nearest-even, into an IEEE layout, with overflow to infinity (R71, R88, R89). -/
def FpFmt.round (f : FpFmt) : Fv → Nat
  | .nan => f.nanCode
  | .inf neg => f.signed neg (f.maxCode + 1)
  | .fin neg m e =>
    let c := f.magCode m 1 e
    f.signed neg (if c > f.maxCode then f.maxCode + 1 else c)

namespace Fv

/-- The value 0, positive. -/
def zero : Fv := .fin false 0 0
/-- The value of an integer. -/
def ofInt (i : Int) : Fv := .fin (decide (i < 0)) i.natAbs 0

def isNan : Fv → Bool
  | .nan => true
  | _ => false

def isFin : Fv → Bool
  | .fin _ _ _ => true
  | _ => false

def isZero : Fv → Bool
  | .fin _ 0 _ => true
  | _ => false

def neg : Fv → Fv
  | .nan => .nan
  | .inf s => .inf (!s)
  | .fin s m e => .fin (!s) m e

def abs : Fv → Fv
  | .nan => .nan
  | .inf _ => .inf false
  | .fin _ m e => .fin false m e

def sign : Fv → Bool
  | .nan => false
  | .inf s => s
  | .fin s _ _ => s

/-- The signed integer of a finite value at exponent `q`, for `q` not above its own. -/
def atInt (s : Bool) (m : Nat) (e q : Int) : Int :=
  let x : Int := (m * 2 ^ (e - q).toNat : Nat)
  if s then -x else x

/-- Exact sum, with the signs of zero and the special values of IEEE 754 under round-to-nearest (R89). -/
def add : Fv → Fv → Fv
  | .nan, _ => .nan
  | _, .nan => .nan
  | .inf s, .inf t => if s = t then .inf s else .nan
  | .inf s, .fin _ _ _ => .inf s
  | .fin _ _ _, .inf t => .inf t
  | .fin s m e, .fin t n f =>
    let q := min e f
    let x := atInt s m e q + atInt t n f q
    if x = 0 then .fin (s && t) 0 q else .fin (decide (x < 0)) x.natAbs q

def sub (a b : Fv) : Fv := a.add b.neg

/-- Exact product, with the special values of IEEE 754 (R89). -/
def mul : Fv → Fv → Fv
  | .nan, _ => .nan
  | _, .nan => .nan
  | .inf s, .inf t => .inf (s != t)
  | .inf s, .fin t n _ => if n = 0 then .nan else .inf (s != t)
  | .fin s m _, .inf t => if m = 0 then .nan else .inf (s != t)
  | .fin s m e, .fin t n f => .fin (s != t) (m * n) (e + f)

/-- a < b, false where either is NaN. -/
def lt : Fv → Fv → Bool
  | .nan, _ => false
  | _, .nan => false
  | .inf s, .inf t => s && !t
  | .inf s, .fin _ _ _ => s
  | .fin _ _ _, .inf t => !t
  | .fin s m e, .fin t n f =>
    let q := min e f
    decide (atInt s m e q < atInt t n f q)

/-- a = b as numbers, false where either is NaN. -/
def eq (a b : Fv) : Bool := !a.isNan && !b.isNan && !a.lt b && !b.lt a

def le (a b : Fv) : Bool := a.lt b || a.eq b

/-- The larger of two values neither of which is NaN. -/
def maxv (a b : Fv) : Fv := if a.lt b then b else a

/-- The integer nearest to a finite value, a tie to the even one. -/
def toIntRne : Fv → Int
  | .fin s m e =>
    let nd := atExp m 1 e 0
    let n : Int := (rneDiv nd.1 nd.2 : Nat)
    if s then -n else n
  | _ => 0

/-- The value rounded to FP32 and read back. -/
def r32 (a : Fv) : Fv := fp32.decode (fp32.round a)

/-- The value rounded to BF16 and read back. -/
def rbf (a : Fv) : Fv := bf16.decode (bf16.round a)

/-- The quotient a / b rounded once to FP32 (IEEE 754). -/
def div32 : Fv → Fv → Nat
  | .nan, _ => fp32.nanCode
  | _, .nan => fp32.nanCode
  | .inf _, .inf _ => fp32.nanCode
  | .inf s, .fin t _ _ => fp32.signed (s != t) (fp32.maxCode + 1)
  | .fin s _ _, .inf t => fp32.signed (s != t) 0
  | .fin s m e, .fin t n f =>
    if n = 0 then (if m = 0 then fp32.nanCode else fp32.signed (s != t) (fp32.maxCode + 1))
    else
      let c := fp32.magCode m n (e - f)
      fp32.signed (s != t) (if c > fp32.maxCode then fp32.maxCode + 1 else c)

/-- Truncation toward zero to `p` significant bits (R87). -/
def trunc (p : Nat) : Fv → Fv
  | .fin s m e =>
    if m = 0 then .fin s 0 e
    else
      let k := Nat.log2 m + 1
      if k ≤ p then .fin s m e else .fin s (m >>> (k - p)) (e + (k - p : Nat))
  | a => a

end Fv

/-- The FP32 value of a lane. -/
def Fv.ofLane (x : Lane) : Fv := fp32.decode x.toNat

/-- A value rounded to FP32, as a lane. -/
def Fv.toLane (a : Fv) : Lane := BitVec.ofNat 32 (fp32.round a)

/-- FP32 sum of two lanes, rounded once. -/
def addLane (a b : Lane) : Lane := ((Fv.ofLane a).add (Fv.ofLane b)).toLane

/-- FP32 product of two lanes, rounded once. -/
def mulLane (a b : Lane) : Lane := ((Fv.ofLane a).mul (Fv.ofLane b)).toLane

/-- FP32 difference of two lanes, rounded once. -/
def subLane (a b : Lane) : Lane := ((Fv.ofLane a).sub (Fv.ofLane b)).toLane

end Sys2Proof.Machine
end

