-- ==== Sys2Proof/Machine/SfuMath.lean ====
section
/-!
DEFINITION. The functions of the special-function unit (R168, R205) as real numbers, evaluated in fixed point
with 320 fraction bits, and the accuracy that R171, R173 and R206 promise for each. The error of the fixed-point
evaluation is many orders below the last place of any result; where a function is said to meet a bound, any
FP32 value inside the bound is a result that the part may give.
-/
namespace Sys2Proof.Machine

/-! ### Fixed point -/

/-- The number 1. -/
def fxOne : Int := 2 ^ 320
def fxMul (a b : Int) : Int := a * b / fxOne
def fxDiv (a b : Int) : Int := a * fxOne / b
/-- The rational n / d. -/
def fxLit (n : Int) (d : Nat) : Int := n * fxOne / d
def fxSqrt (a : Int) : Int := ((a.toNat * 2 ^ 320).sqrt : Nat)

/-- A finite FP32 value; none of its bits lies below the fixed point. -/
def fxOf : Fv → Int
  | .fin s m e =>
    let n : Int := (m * 2 ^ (e + 320).toNat : Nat)
    if s then -n else n
  | _ => 0

/-- A fixed-point number as an exact value. -/
def fvOf (x : Int) : Fv := .fin (decide (x < 0)) x.natAbs (-320)

/-- Sum of a series: each term from the one before by `next n t`. -/
def series (next : Nat → Int → Int) : Nat → Nat → Int → Int
  | 0, _, _ => 0
  | fuel + 1, n, t => t + series next fuel (n + 1) (next n t)

/-- ln 2 = Σ 1 / (n 2^n). -/
def fxLn2 : Int := ((List.range 340).map (fun i => fxOne / ((i + 1) * 2 ^ (i + 1) : Nat))).foldl (· + ·) 0

/-- atan (1 / k). -/
def fxAtanInv (k : Nat) : Int :=
  ((List.range 240).map (fun i =>
    let t := fxOne / (((2 * i + 1) * k ^ (2 * i + 1) : Nat) : Int)
    if i % 2 = 0 then t else -t)).foldl (· + ·) 0

def fxPi : Int := 16 * fxAtanInv 5 - 4 * fxAtanInv 239

/-- 2^k times a fixed-point number. -/
def fxScale (x : Int) (k : Int) : Int := if k ≥ 0 then x * 2 ^ k.toNat else x / 2 ^ (-k).toNat

def fxExp (x : Int) : Int :=
  let k := x / fxLn2
  let r := x - k * fxLn2
  fxScale (series (fun n t => t * r / fxOne / ((n + 1 : Nat) : Int)) 90 0 fxOne) k

/-- ln of a positive number. -/
def fxLn (x : Int) : Int :=
  let k : Int := (Nat.log2 x.toNat : Int) - 320
  let m := fxScale x (-k)
  let z := fxDiv (m - fxOne) (m + fxOne)
  let z2 := fxMul z z
  let terms := (List.range 110).foldl (fun (p : Int × Int) i => (p.1 + p.2 / (2 * i + 1 : Nat), fxMul p.2 z2)) (0, z)
  2 * terms.1 + k * fxLn2

/-- sin of a number: reduced modulo 2π, then its series. -/
def fxSin (x : Int) : Int :=
  let p := 2 * fxPi
  let r := x - (x + fxPi) / p * p
  let r2 := fxMul r r
  series (fun n t => -(fxMul t r2 / ((2 * n + 2) * (2 * n + 3) : Nat))) 60 0 r

def fxCos (x : Int) : Int := fxSin (x + fxPi / 2)

/-- erf for |x| below 8: (2 / √π) e^(−x²) Σ 2^n x^(2n+1) / (1·3·…·(2n+1)). -/
def fxErf (x : Int) : Int :=
  let x2 := fxMul x x
  let s := series (fun n t => 2 * fxMul t x2 / ((2 * n + 3 : Nat) : Int)) 520 0 x
  fxDiv (2 * fxMul (fxExp (-x2)) s) (fxSqrt fxPi)

/-- The logistic function 1 / (1 + e^−x). -/
def fxSigmoid (x : Int) : Int :=
  if x ≥ 0 then fxDiv fxOne (fxOne + fxExp (-x))
  else let t := fxExp x; fxDiv t (fxOne + t)

def fxTanh (x : Int) : Int :=
  let t := fxExp (-2 * x.natAbs)
  let y := fxDiv (fxOne - t) (fxOne + t)
  if x < 0 then -y else y

/-- Φ(x), the normal distribution function. -/
def fxPhi (x : Int) : Int := (fxOne + fxErf (fxDiv x (fxSqrt (2 * fxOne)))) / 2

/-- φ(x), the normal density. -/
def fxDensity (x : Int) : Int := fxDiv (fxExp (-(fxMul x x / 2))) (fxSqrt (2 * fxPi))

/-- √(2/π)·(x + 0.044715 x³), doubled: GELU.T is x times the logistic function of it (R168). -/
def fxGeluArg (x : Int) : Int :=
  2 * fxMul (fxSqrt (fxDiv (2 * fxOne) fxPi)) (x + fxMul (fxLit 44715 1000000) (fxMul x (fxMul x x)))

/-- Derivative of `fxGeluArg`. -/
def fxGeluSlope (x : Int) : Int :=
  2 * fxMul (fxSqrt (fxDiv (2 * fxOne) fxPi)) (fxOne + 3 * fxMul (fxLit 44715 1000000) (fxMul x x))

/-! ### The functions and their accuracy -/

/-- The functions of majors 0x28 (R168, R205). -/
inductive SfuFn where
  | exp
  | exp2
  | log
  | log2
  | rcp
  | rsqrt
  | sqrt
  | sin
  | cos
  | tanh
  | sigmoid
  | erf
  | gelu
  | geluT
  | silu
  | softplus
  | dgelu
  | dgeluT
  | dsoftplus
  | dsilu
  deriving DecidableEq, Repr

/-- What is said of a result: its exact value, or the real value it approximates, how far it may lie from it in
normal service, and whether the input lies in the function's range, where reference mode is tighter. -/
inductive SfuRes where
  | exact (v : Fv)
  | near (v : Int) (bound : Int) (inRange : Bool)
  deriving DecidableEq, Repr

/-- 2^-k. -/
def fxPow (k : Nat) : Int := fxOne / 2 ^ k

/-- Exponent e of a real with |y| in [2^e, 2^(e+1)), at least −126. -/
def fxExpo (y : Int) : Int := if y = 0 then -126 else max (-126) ((Nat.log2 y.natAbs : Int) - 320)

/-- ulp(y) = 2^(max(e, −126) − 23) (R171). -/
def fxUlp (y : Int) : Int := fxScale fxOne (fxExpo y - 23)

/-- A result within `k` ulp. -/
def within (k : Nat) (v : Int) : SfuRes := .near v ((k : Int) * fxUlp v) true

def posInf : SfuRes := .exact (.inf false)
def negInf : SfuRes := .exact (.inf true)
def posZero : SfuRes := .exact .zero
def negZero : SfuRes := .exact (.fin true 0 0)
def oneRes (neg : Bool) : SfuRes := .exact (.fin neg 1 0)

/-- The result of the logistic function (R171). -/
def sigmoidRes (x : Fv) : SfuRes :=
  let t := fxOf x
  match x with
  | .nan => .exact .nan
  | .inf s => if s then posZero else oneRes false
  | .fin _ _ _ =>
    if 10 * t ≥ 174 * fxOne then oneRes false
    else if 100 * t < -10397 * fxOne then posZero
    else if 100 * t < -8733 * fxOne then .near (fxSigmoid t) (fxPow 149) false
    else within 2 (fxSigmoid t)

/-- σ(x) + y (1 − σ(x)) (R205, R206); where y is infinite the sum is that infinity. -/
def dsiluRes (x y : Fv) : SfuRes :=
  let t := fxOf x
  match x, y with
  | .nan, _ => .exact .nan
  | _, .nan => .exact .nan
  | .inf s, _ => if s then .exact y else oneRes false
  | .fin _ _ _, _ =>
    if 10 * t ≥ 174 * fxOne then oneRes false
    else if 100 * t < -8733 * fxOne then .exact y
    else match y with
      | .fin _ _ _ =>
        let g := fxSigmoid t
        let rest := fxMul (fxOf y) (fxOne - g)
        .near (g + rest) (4 * (fxPow 24 * (g + rest.natAbs)) / fxOne) true
      | _ => .exact y

/-- What R171 and R206 state of a function of x (and, for DSILU, the recomputed output y). -/
def sfuRes (fn : SfuFn) (x y : Fv) : SfuRes :=
  let t := fxOf x
  let lt (n : Int) (d : Nat) : Bool := decide ((d : Int) * t < n * fxOne)
  let mag : Int := t.natAbs
  match fn with
  | .sigmoid => sigmoidRes x
  | .dsoftplus => sigmoidRes x
  | .dsilu => dsiluRes x y
  | .exp =>
    match x with
    | .nan => .exact .nan
    | .inf s => if s then posZero else posInf
    | .fin _ _ _ =>
      if 100 * t > 8872 * fxOne then posInf
      else if lt (-10397) 100 then posZero
      else if lt (-8733) 100 then .near (fxExp t) (fxPow 149) false
      else within 2 (fxExp t)
  | .exp2 =>
    match x with
    | .nan => .exact .nan
    | .inf s => if s then posZero else posInf
    | .fin _ _ _ =>
      let v := fxExp (fxMul t fxLn2)
      if t ≥ 128 * fxOne then posInf
      else if t ≤ -150 * fxOne then posZero
      else if lt (-126) 1 then .near v (fxPow 149) false
      else within 1 v
  | .log =>
    match x with
    | .nan => .exact .nan
    | .inf s => if s then .exact .nan else posInf
    | .fin _ _ _ =>
      if t = 0 then negInf else if t < 0 then .exact .nan
      else within (if lt 75 100 || 10 * t > 15 * fxOne then 2 else 3) (fxLn t)
  | .log2 =>
    match x with
    | .nan => .exact .nan
    | .inf s => if s then .exact .nan else posInf
    | .fin _ _ _ =>
      if t = 0 then negInf else if t < 0 then .exact .nan
      else within (if lt 75 100 || 10 * t > 15 * fxOne then 2 else 3) (fxDiv (fxLn t) fxLn2)
  | .rcp =>
    match x with
    | .nan => .exact .nan
    | .inf s => .exact (.fin s 0 0)
    | .fin s m _ =>
      if m = 0 then .exact (.inf s)
      else if mag > 2 ^ 126 * fxOne then .near (fxDiv fxOne t) (fxPow 149) false
      else within 1 (fxDiv fxOne t)
  | .rsqrt =>
    match x with
    | .nan => .exact .nan
    | .inf s => if s then .exact .nan else posZero
    | .fin s m _ =>
      if m = 0 then .exact (.inf s) else if s then .exact .nan
      else within 1 (fxDiv fxOne (fxSqrt t))
  | .sqrt =>
    match x with
    | .nan => .exact .nan
    | .inf s => if s then .exact .nan else posInf
    | .fin s m _ =>
      if m = 0 && s then negZero else if s then .exact .nan else within 1 (fxSqrt t)
  | .sin =>
    match x with
    | .fin _ _ _ =>
      if mag ≤ 65536 * fxOne then .near (fxSin t) (fxPow 22) true else .near (fxSin t) (mag / 2 ^ 38) false
    | _ => .exact .nan
  | .cos =>
    match x with
    | .fin _ _ _ =>
      if mag ≤ 65536 * fxOne then .near (fxCos t) (fxPow 22) true else .near (fxCos t) (mag / 2 ^ 38) false
    | _ => .exact .nan
  | .tanh =>
    match x with
    | .nan => .exact .nan
    | .inf s => oneRes s
    | .fin s _ _ => if 10 * mag ≥ 91 * fxOne then oneRes s else within 2 (fxTanh t)
  | .erf =>
    match x with
    | .nan => .exact .nan
    | .inf s => oneRes s
    | .fin s _ _ => if 100 * mag ≥ 392 * fxOne then oneRes s else within 2 (fxErf t)
  | .gelu =>
    match x with
    | .nan => .exact .nan
    | .inf s => if s then negZero else posInf
    | .fin _ _ _ =>
      if 10 * t ≥ 55 * fxOne then .exact x else if lt (-10) 1 then negZero else within 3 (fxMul t (fxPhi t))
  | .geluT =>
    match x with
    | .nan => .exact .nan
    | .inf s => if s then negZero else posInf
    | .fin _ _ _ =>
      if 10 * t ≥ 55 * fxOne then .exact x else if lt (-10) 1 then negZero
      else within 3 (fxMul t (fxSigmoid (fxGeluArg t)))
  | .silu =>
    match x with
    | .nan => .exact .nan
    | .inf s => if s then negZero else posInf
    | .fin _ _ _ =>
      if 10 * t ≥ 174 * fxOne then .exact x
      else if lt (-8733) 100 then .near (if lt (-400) 1 then 0 else fxMul t (fxSigmoid t)) (fxPow 146) false
      else within 3 (fxMul t (fxSigmoid t))
  | .softplus =>
    match x with
    | .nan => .exact .nan
    | .inf s => if s then posZero else posInf
    | .fin _ _ _ =>
      if 10 * t ≥ 174 * fxOne then .exact x
      else if lt (-8733) 100 then .near (if lt (-400) 1 then 0 else fxLn (fxOne + fxExp t)) (fxPow 149) false
      else within 2 (fxLn (fxOne + fxExp t))
  | .dgelu =>
    match x with
    | .nan => .exact .nan
    | .inf s => if s then negZero else oneRes false
    | .fin _ _ _ =>
      let v := fxPhi t + fxMul t (fxDensity t)
      if t ≥ 6 * fxOne then oneRes false else if lt (-10) 1 then negZero
      else if !lt (-9) 10 && !decide (-6 * fxOne < 10 * t) then .near v (fxPow 24) true
      else within 4 v
  | .dgeluT =>
    match x with
    | .nan => .exact .nan
    | .inf s => if s then negZero else oneRes false
    | .fin _ _ _ =>
      let g := fxSigmoid (fxGeluArg t)
      let v := g + fxMul t (fxMul (fxMul g (fxOne - g)) (fxGeluSlope t))
      if t ≥ 6 * fxOne then oneRes false else if lt (-10) 1 then negZero
      else if !lt (-9) 10 && !decide (-6 * fxOne < 10 * t) then .near v (fxPow 24) true
      else within 4 v

/-- A finite FP32 value lies within a bound of a real. DEDUCED (log entry 31). -/
def insideBound (v bound : Int) (c : Fv) : Bool :=
  match c with
  | .fin _ _ _ => decide (((fxOf c - v).natAbs : Int) ≤ bound)
  | _ => false

/-- An FP32 value brackets a real: a multiple of its ulp closer than one ulp (R173). DEDUCED (log entry 31). -/
def brackets (v : Int) (c : Fv) : Bool :=
  match c with
  | .fin _ _ _ => decide (((fxOf c - v).natAbs : Int) < fxUlp v) && decide (fxOf c % fxUlp v = 0)
  | _ => false

/-- The FP32 result of a function: its exact value, or the candidate where the mode allows it, or else the value
nearest to the real one (R171, R173). DEDUCED (log entry 31). -/
def sfu32 (ref : Bool) (r : SfuRes) (cand : Fv) : Fv :=
  match r with
  | .exact v => v
  | .near v bound inRange =>
    let ok := if ref && inRange then brackets v cand else insideBound v bound cand
    if ok then cand else (fvOf v).r32

end Sys2Proof.Machine
end

