-- ==== Sys2Proof/Config.lean ====
section
/-!
DEFINITION. What the manual leaves open: free values, each an opaque constant that no proof can evaluate, and
functions that the manual names without describing them.
-/
namespace Sys2Proof.Config

/-- A free 64-bit value: the n-th value that the manual does not fix. DESIGN CHOICE (log entry 3). -/
opaque freeWord : Nat → BitVec 64

/-- A free byte. DESIGN CHOICE (log entry 3). -/
opaque freeByte : Nat → BitVec 8

/-- A byte of another package's memory: at the n-th time, at an address. -/
opaque farByte : Nat → Nat → BitVec 8

/-- A free 32-bit lane. DESIGN CHOICE (log entry 3). -/
opaque freeLane : Nat → BitVec 32

/-- A free natural number. DESIGN CHOICE (log entry 3). -/
opaque freeNat : Nat → Nat

/-- The hash that picks a link for a flow, of its source, destination and context (R404).
DESIGN CHOICE (log entry 12). -/
opaque flowHash : Nat → Nat → Nat → Nat

/-- How the engines cut the data of a reduction (R419): the channel and the owner of each block group, of the number
of members, of channels and of groups, and the group's number. DESIGN CHOICE (log entry 13). -/
opaque ringCut : Nat → Nat → Nat → Nat → Nat

/-- SHAKE256 of a message, to a number of bytes (R140, R522): the standard's function, which the manual names.
DESIGN CHOICE (log entry 11). -/
opaque shake256 : List (BitVec 8) → Nat → List (BitVec 8)

/-- The stepping of the silicon, the serial number in the fuses (R504). -/
opaque stepping : Nat
opaque serial : Nat

/-- What a compressed bitstream holds, by the standard of its codec: for the n-th request, a property and an index
(R324, R325, R339, R340). DESIGN CHOICE (log entry 14). -/
opaque codec : Nat → Nat → Nat → Nat

/-- A component of a decoded picture: for the n-th request, of a frame, a plane, x and y.
DESIGN CHOICE (log entry 14). -/
opaque codecPixel : Nat → Nat → Nat → Nat → Nat → Nat

/-- A pixel of a damaged picture is concealed or derived: for the n-th request, of a frame, x and y.
DESIGN CHOICE (log entry 14). -/
opaque codecConcealed : Nat → Nat → Nat → Nat → Bool

/-- The Lanczos kernel with a = 3 at an FP32 argument, as an FP32 code (R336). DESIGN CHOICE (log entry 15). -/
opaque lanczos3 : Nat → Nat

/-- What coding a frame gives: for the n-th frame, a property, a row and a rate offset (R363 to R368).
DESIGN CHOICE (log entry 14). -/
opaque encode : Nat → Nat → Nat → Nat → Nat

/-- A byte of a coded frame: of the n-th frame, at an offset. DESIGN CHOICE (log entry 14). -/
opaque encodedByte : Nat → Nat → BitVec 8

/-- A component of a reconstructed frame: of the n-th frame, a plane, x and y. DESIGN CHOICE (log entry 14). -/
opaque reconPixel : Nat → Nat → Nat → Nat → Nat

/-- A level given in an encode descriptor holds the stream (R352): the limits stand in the codec's standard.
DESIGN CHOICE (log entry 14). -/
opaque levelHolds : List (BitVec 8) → Bool

/-- Whether the directory of an image slot is sound, and where the image of a type begins in the slot (R522, R524):
the directory's layout is not stated. DESIGN CHOICE (log entry 11). -/
opaque directoryOk : List (Nat × BitVec 8) → Bool
/-- DESIGN CHOICE (log entry 11). -/
opaque imagePlace : List (Nat × BitVec 8) → Nat → Nat

/-- The Abradon firmware key under which a signature of a message verifies, 0 to 3; any other number where none does
(R522). DESIGN CHOICE (log entry 11). -/
opaque firmwareKey : List (BitVec 8) → List (BitVec 8) → Nat

/-- A signature of a message verifies under the Abradon debug key (R532). DESIGN CHOICE (log entry 11). -/
opaque debugSigned : List (BitVec 8) → List (BitVec 8) → Bool

/-- The Ed448 signature of a message by a die's key (R520, R529). DESIGN CHOICE (log entry 11). -/
opaque sign : Nat → List (BitVec 8) → List (BitVec 8)

/-- Certificates (R521): 0 that of the device CA, 1 of the package, 2 + n of die n. DESIGN CHOICE (log entry 11). -/
opaque certificate : Nat → List (BitVec 8)

/-- What the image slots of the boot flash, B or A, and the warden's own store hold when the module is first powered:
no rule says (R522, R524). DESIGN CHOICE (log entry 11). -/
opaque flash : Bool → List (Nat × BitVec 8)
/-- DESIGN CHOICE (log entry 11). -/
opaque wardenImage : List (BitVec 8)

/-- The code of a reset level in CONTAINMENT_RESET (R454): the level of R549 counted from 0 for a context teardown.
DESIGN CHOICE (log entry 103). -/
opaque resetLevel : Nat → Nat

end Sys2Proof.Config
end

