-- ==== Sys2Proof/Machine/Formats.lean ====
section
/-!
DEFINITION. The number formats in memory (R68 to R85): how an element of each format is read from a row, and
how a row of exact values is quantised into a format, with what saturated and which blocks are zero blocks.
-/
namespace Sys2Proof.Machine

/-- Code 0x1 to 0xE names a format (R68). -/
def fmtNamed (c : Nat) : Bool := decide (c < 15)

/-- Bits of one element (R68, R70). -/
def elemBits (c : Nat) : Nat :=
  match c with
  | 0x0 => 32 | 0x1 => 16 | 0x2 => 16 | 0x6 => 6 | 0x7 => 6 | 0x8 => 4 | 0x9 => 4 | 0xA => 2 | 0xD => 32
  | _ => 8

/-- Elements that share a block scale (R68); 0 for a format without block scales. -/
def blockElems (c : Nat) : Nat :=
  match c with
  | 0x5 => 32 | 0x6 => 32 | 0x7 => 32 | 0x8 => 32 | 0x9 => 16 | 0xA => 64 | 0xB => 32
  | _ => 0

/-- A format stores block groups (R76). -/
def isBlockFmt (c : Nat) : Bool := decide (blockElems c ≠ 0)

/-- Blocks of one group (R76). -/
def groupBlocks (c : Nat) : Nat := if c = 0xA then 8 else 16

/-- Bytes of one block scale. -/
def scaleBytes (c : Nat) : Nat := if c = 0xA then 2 else 1

/-- Elements of one group (R76); 1 for a format without block scales. -/
def groupElems (c : Nat) : Nat := if isBlockFmt c then blockElems c * groupBlocks c else 1

/-- Bytes of the elements of one group (R76). -/
def groupElemBytes (c : Nat) : Nat := groupElems c * elemBits c / 8

/-- Bytes of one group with its 16 scale bytes (R76). -/
def groupBytes (c : Nat) : Nat := if isBlockFmt c then 16 + groupElemBytes c else elemBits c / 8

/-- Bytes of a row of `n` elements (R78). -/
def rowBytes (c n : Nat) : Nat := ceilDiv n (groupElems c) * groupBytes c

/-- The MX formats (R68). -/
def isMx (c : Nat) : Bool := c = 0x5 || c = 0x6 || c = 0x7 || c = 0x8 || c = 0xB

/-- The floating-point layout of the elements of a format. -/
def elemFp (c : Nat) : Option FpFmt :=
  match c with
  | 0x0 => some fp32 | 0x1 => some bf16 | 0x2 => some fp16 | 0x3 => some e4m3 | 0x4 => some e5m2
  | 0x5 => some e4m3 | 0x6 => some e2m3 | 0x7 => some e3m2 | 0x8 => some e2m1
  | _ => none

/-- The signed value of an n-bit two's complement code. -/
def sext (n x : Nat) : Int := if x.testBit (n - 1) then (x : Int) - 2 ^ n else x

/-- A decoded element: its exact value and whether its code is a saturated marker (R74, R75, R84). -/
structure Elem where
  val : Fv
  marker : Bool := false
  deriving DecidableEq, Repr

/-- The value of a block scale code (R73, R74, R75). -/
def decodeScale (c code : Nat) : Fv :=
  if c = 0x9 then e5m3.decode code
  else if c = 0xA then bf16.decode code
  else if code = 0xFF then .nan else .fin false 1 ((code : Int) - 127)

/-- A scale that marks a zero block (R74, R75). DEDUCED (log entry 27). -/
def zeroScale (c code : Nat) : Bool :=
  (c = 0x9 && code = 0) || (c = 0xA && code % 2 ^ 15 = 0)

/-- The value of an element code without any scale (R70, R72, R74, R75). -/
def decodeCode (c code : Nat) : Elem :=
  match elemFp c with
  | some f => { val := f.decode code }
  | none =>
    if c = 0x9 then
      if code = 8 then { val := .zero, marker := true } else { val := Fv.ofInt (sext 4 code) }
    else if c = 0xA then
      if code = 2 then { val := .zero, marker := true } else { val := Fv.ofInt (sext 2 code) }
    else if c = 0xB then { val := (Fv.ofInt (sext 8 code)).mul (.fin false 1 (-6)) }
    else if c = 0xC then { val := Fv.ofInt (sext 8 code) }
    else if c = 0xD then { val := Fv.ofInt (sext 32 code) }
    else { val := Fv.ofInt code }

/-- The bits `[lo + w - 1 : lo]` of a byte string, bit 0 lowest in byte 0 (R77). -/
def bitsAt (rd : Nat → Nat) (lo w : Nat) : Nat :=
  let b := lo / 8
  fieldOf (rd b + 256 * rd (b + 1) + 65536 * rd (b + 2) + 16777216 * rd (b + 3)) (lo % 8) w

/-- Element `j` of a row whose bytes `rd` reads (R76 to R78, R84). -/
def decodeAt (c : Nat) (rd : Nat → Nat) (j : Nat) : Elem :=
  if isBlockFmt c then
    let g := j / groupElems c
    let t := j % groupElems c
    let b := t / blockElems c
    let base := g * groupBytes c
    let sc := if c = 0xA then rd (base + 2 * b) + 256 * rd (base + 2 * b + 1) else rd (base + b)
    let code := bitsAt (fun i => rd (base + 16 + i)) (t * elemBits c) (elemBits c)
    if zeroScale c sc then { val := .zero }
    else
      let e := decodeCode c code
      if e.marker then e else { val := e.val.mul (decodeScale c sc) }
  else decodeCode c (bitsAt rd (j * elemBits c) (elemBits c))

/-- The `n` elements of a row. -/
def decodeRow (c : Nat) (rd : Nat → Nat) (n : Nat) : List Elem := (List.range n).map (decodeAt c rd)

/-- Saturated markers among elements (R84). -/
def markersIn (es : List Elem) : Nat := (es.filter (·.marker)).length

/-- The code of a value divided by a positive finite scale, and whether it saturates (R82, R83).
DEDUCED (log entry 26). -/
def quantElem (c : Nat) (scale v : Fv) : Nat × Bool :=
  let ms := match scale with | .fin _ m _ => m | _ => 1
  let es := match scale with | .fin _ _ e => e | _ => 0
  match elemFp c with
  | some f =>
    match v with
    | .nan => if c = 0x0 then (f.nanCode, false)
              else if f.ieee || f.oneNan then (f.nanCode, true) else (f.maxCode, true)
    | .inf s => if c = 0x0 then (f.signed s (f.maxCode + 1), false)
                else if f.ieee then (f.signed s (f.maxCode + 1), true) else (f.signed s f.maxCode, true)
    | .fin s m e =>
      let k := f.magCode m ms (e - es)
      if k > f.maxCode then
        if c = 0x0 then (f.signed s (f.maxCode + 1), false) else (f.signed s f.maxCode, true)
      else (f.signed s k, false)
  | none =>
    if c = 0xA then
      match v with
      | .fin s m e =>
        -- |v| against scale/2 and 3·scale/2, at one exponent
        let q := min e (es - 1)
        let x := m * 2 ^ (e - q).toNat
        let h := ms * 2 ^ (es - 1 - q).toNat
        if x ≤ h then (0, false) else if x > 3 * h then (2, true) else (if s then 3 else 1, false)
      | _ => (2, true)
    else
      let e' : Int := if c = 0xB then es - 6 else es
      let lo : Int := if c = 0x9 then -7 else if c = 0xE then 0 else if c = 0xD then -2147483648 else -127
      let hi : Int := if c = 0x9 then 7 else if c = 0xE then 255 else if c = 0xD then 2147483647 else 127
      let w := elemBits c
      let code (i : Int) : Nat := (i % (2 ^ w : Int)).toNat
      match v with
      | .nan => if c = 0x9 then (8, true) else if c = 0xB then (127, true) else (0, true)
      | .inf s => if c = 0x9 then (8, true) else (code (if s then lo else hi), true)
      | .fin s m e =>
        let nd := atExp m ms (e - e') 0
        let n : Int := (rneDiv nd.1 nd.2 : Nat)
        let i := if s then -n else n
        if i < lo then (if c = 0x9 then 8 else code lo, true)
        else if i > hi then (if c = 0x9 then 8 else code hi, true)
        else (code i, false)

/-- An element code is a zero of its format, of either sign (R85). -/
def zeroCode (c code : Nat) : Bool :=
  match elemFp c with
  | some f => code % 2 ^ (f.eb + f.mb) = 0
  | none => code = 0

/-- The largest finite magnitude of a block (R79). -/
def maxMag : List Fv → Fv
  | [] => .zero
  | v :: vs => if v.isFin then v.abs.maxv (maxMag vs) else maxMag vs

/-- emax of an MX format as m × 2^e (R80). -/
def mxMax (c : Nat) : Nat × Int :=
  match c with
  | 0x5 => (7, 6) | 0x6 => (15, -1) | 0x7 => (7, 2) | 0x8 => (3, 1)
  | _ => (127, -6)

/-- The code of the smallest E5M3 value not below (n / d) × 2^e, at most 0xFF (R80). -/
def e5m3Up (n d : Nat) (e : Int) : Nat :=
  if n = 0 then 0
  else
    let q := max e5m3.emin (leadExp n d e - 3)
    let nd := atExp n d e q
    let m := ceilDiv nd.1 nd.2
    min 0xFF (if m = 16 then e5m3.pack 8 (q + 1) else e5m3.pack m q)

/-- The block scale chosen in current-block mode (R80). DEDUCED (log entry 27). -/
def chooseScale (c : Nat) (vs : List Fv) : Nat :=
  let special := vs.any (fun v => !v.isFin)
  match maxMag vs with
  | .fin _ m e =>
    if c = 0x9 then
      let k := e5m3Up m 7 e
      if k = 0 && special then 1 else k
    else if c = 0xA then
      let k := bf16.magCode m 1 e
      if k = 0 && special then 1 else min k bf16.maxCode
    else if m = 0 then 0
    else
      let (cm, ce) := mxMax c
      let g := leadExp m 1 e - leadExp cm 1 ce
      -- M ≤ emax × 2^g, compared at one exponent
      let q := min e (ce + g)
      let x := if m * 2 ^ (e - q).toNat ≤ cm * 2 ^ (ce + g - q).toNat then g else g + 1
      (max (-127) (min 127 x) + 127).toNat
  | _ => 0

/-- A quantised block: its scale, its codes, how many elements saturated, and whether it is a zero block. -/
structure QBlock where
  scale : Nat
  codes : List Nat
  sat : Nat
  zero : Bool
  deriving DecidableEq, Repr

/-- One block quantised with the given scale code, or with the scale chosen from the block (R79 to R85). A
block of T2 whose chosen scale rounds to +0 is written as a zero block. -/
def quantBlock (c : Nat) (given : Option Nat) (vs : List Fv) : QBlock :=
  let sc := match given with | some g => g | none => chooseScale c vs
  if zeroScale c sc then ⟨0, vs.map (fun _ => 0), 0, true⟩
  else
    let qs := vs.map (quantElem c (decodeScale c sc))
    let codes := qs.map (·.1)
    let sat := (qs.filter (·.2)).length
    if codes.all (zeroCode c) then
      ⟨0, if isMx c then codes else codes.map (fun _ => 0), sat, true⟩
    else ⟨sc, codes, sat, false⟩

/-- Codes packed from the least significant bit up (R77). -/
def packCodes (w : Nat) : List Nat → Nat
  | [] => 0
  | x :: xs => x + 2 ^ w * packCodes w xs

/-- A quantised row: its bytes, the elements that saturated, and the zero blocks written (padding apart). -/
structure QRow where
  bytes : List Byte
  sat : Nat
  zeros : Nat
  deriving DecidableEq, Repr

/-- One group from its blocks (R76). -/
def groupOut (c : Nat) (bs : List QBlock) : List Byte :=
  padTo 0 16 (bs.flatMap (fun b => toBytes (scaleBytes c) b.scale))
    ++ toBytes (groupElemBytes c) (packCodes (elemBits c) (bs.flatMap (·.codes)))

/-- A row of values quantised into a format (R78 to R85). `given` is the scale of given-scale mode: a scale code
of a block format, the FP32 σ of any other (none: σ is 1.0). -/
def quantRow (c : Nat) (given : Option Nat) (vs : List Fv) : QRow :=
  let n := vs.length
  if isBlockFmt c then
    let blk := blockElems c
    let groups := ceilDiv n (groupElems c)
    let blocks := (chunksOf blk (groups * groupBlocks c) (padTo .zero (groups * groupElems c) vs)).map
      (quantBlock c given)
    { bytes := (chunksOf (groupBlocks c) groups blocks).flatMap (groupOut c)
      sat := (blocks.map (·.sat)).sum
      zeros := ((blocks.take (ceilDiv n blk)).filter (·.zero)).length }
  else
    let sc := match given with | some g => fp32.decode g | none => .fin false 1 0
    let qs := vs.map (quantElem c sc)
    { bytes := toBytes (n * elemBits c / 8) (packCodes (elemBits c) (qs.map (·.1)))
      sat := (qs.filter (·.2)).length
      zeros := 0 }

/-- A scale supplied in given-scale mode is valid (R81). -/
def scaleValid (c code : Nat) : Bool :=
  if isMx c then code % 256 ≠ 0xFF
  else if c = 0x9 then code % 256 ≠ 0
  else if c = 0xA then
    match bf16.decode (code % 65536) with
    | .fin s m _ => !s && m ≠ 0
    | _ => false
  else
    match fp32.decode (code % 2 ^ 32) with
    | .fin s m _ => !s && m ≥ 2 ^ 23
    | _ => false

/-- A format that carries a scale: a block scale or a per-tensor σ (R68, R152). -/
def takesScale (c : Nat) : Bool := isBlockFmt c || (1 ≤ c && c ≤ 4) || c = 0xC

/-- The part of a 32-bit scale field that a format reads (R81). -/
def scaleField (c code : Nat) : Nat :=
  if isMx c || c = 0x9 then code % 256 else if c = 0xA then code % 65536 else code % 2 ^ 32

/-- K-step depth of a format (R86). -/
def kDepth (c : Nat) : Nat :=
  match c with
  | 0x1 => 64 | 0x2 => 64 | 0x8 => 256 | 0x9 => 256 | 0xA => 512
  | _ => 128

/-- The format to which an on-load format falls back (R93); none ends the chain. -/
def fallbackOf (c : Nat) : Option Nat :=
  match c with
  | 0xA => some 0x9
  | 0x9 => some 0x5 | 0x8 => some 0x5 | 0x6 => some 0x5 | 0x7 => some 0x5
  | 0x5 => some 0x1 | 0x3 => some 0x1 | 0x4 => some 0x1 | 0xB => some 0x1 | 0xC => some 0x1 | 0x2 => some 0x1
  | _ => none

/-- Either operand puts the tile on the 28-bit path (R87). -/
def onShortPath (ca cb : Nat) : Bool := (1 ≤ ca && ca ≤ 7) || (1 ≤ cb && cb ≤ 7)

end Sys2Proof.Machine
end

