-- ==== Sys2Proof/Machine/CoreState.lean ====
section
/-!
DEFINITION. The state of a compute core (chapters 02 to 09): its context slots with their registers and
control words, its engines' sub-queues, its operand buffer and accumulator memory, its instruction cache and
its table banks. Numbers that the manual uses as counts, identifiers or field values are naturals; register
contents are bit vectors.
-/
namespace Sys2Proof.Machine

/-- CORE_CTX_ID (R40). `state` is 0 free, 1 running, 2 draining, 3 saving, 4 tearing down. -/
structure CtxId where
  resident : Bool := false
  state : Nat := 0
  allotRefused : Bool := false
  profile : Bool := false
  polder : Nat := 0
  ctx : Nat := 0
  deriving DecidableEq, Repr

/-- CORE_CTX_ALLOT (R43). -/
structure Allot where
  valid : Bool := false
  bufBase : Nat := 0
  bufCount : Nat := 0
  accBase : Nat := 0
  accCount : Nat := 0
  deriving DecidableEq, Repr

/-- CORE_CTX_NUM (R96). -/
structure NumCtl where
  fallbackEn : Bool := true
  threshShift : Nat := 0xA
  widespread : Nat := 0x1000
  deriving DecidableEq, Repr

/-- CORE_CTX_SFU (R175). -/
structure SfuCtl where
  refMode : Bool := false
  refForced : Bool := false
  deriving DecidableEq, Repr

/-- CORE_CTX_ATTN (R281). -/
structure AttnCtl where
  silOnDeadline : Bool := false
  maxWaitMs : Nat := 0x03E8
  deriving DecidableEq, Repr

/-- The numeric counters of a slot (R97). -/
structure NumCount where
  fallbackTiles : Nat := 0
  splitTiles : Nat := 0
  satOnLoad : Nat := 0
  satOnStore : Nat := 0
  markersRead : Nat := 0
  zeroBlocks : Nat := 0
  widespreadPosts : Nat := 0
  wireEscapes : Nat := 0
  deriving DecidableEq, Repr

/-- The activity counters of a slot (R137): indices 0x10 to 0x18. The cycle counts are free values of the
model (no cycle is modelled), so only the counted ones stand here. -/
structure ActCount where
  issued : Nat := 0
  dmaBytes : Nat := 0
  declined : Nat := 0
  deriving DecidableEq, Repr

/-- Why the last instruction sent to a slot did not issue (R50, R53, R55, R60, R128, R129).
DESIGN CHOICE (log entry 23). -/
inductive HeldWhy where
  | waiting
  | icacheMiss
  | hazard
  | queueFull
  | outstanding
  | dike
  | movingExtent
  | dieResetting (die major : Nat)
  | hostLink (addr : Nat)
  | stateNotRunning
  deriving DecidableEq, Repr

/-- A wait that holds a slot's issue (R50, R131, R134). `keep` is SEM.WAITGE. -/
inductive Wait where
  | sem (index count dst : Nat) (keep : Bool) (timeoutUs : Nat)
  | bar (index generation : Nat)
  | remote (request : Nat)
  deriving DecidableEq, Repr

/-- A range of operand-buffer bytes or accumulator entries that a command in flight reads or writes (R55). -/
structure Span where
  acc : Bool
  write : Bool
  base : Nat
  len : Nat
  deriving DecidableEq, Repr

/-- A TMM in flight (R155 to R163): the table as read at issue, the handle, staging descriptor and offsets
captured then, the next tile, the bank of each slot, and the addresses of the two staged copies of each
operand, newest last. -/
structure TmmRun where
  table : List Byte
  handle : Word
  dstage : Word
  offA : Int
  offB : Int
  offC : Int
  tile : Nat
  banks : List (Nat × Bool)
  heldA : List Int
  heldB : List Int
  deriving DecidableEq, Repr

/-- What a row command does (R178, R180, R208). -/
inductive RowOp where
  | gate
  | norm
  | smax
  | normBwd
  | smaxBwd
  deriving DecidableEq, Repr

/-- A row command in flight (R176): what it does, the registers captured at issue (descriptors of the output and
of the inputs, or a handle), the parameter block as read, the row length and the number of rows, the next row,
the generation of the table bank taken and its place (R190), whether it replays in reference mode (R174), the
output scale, and the counts of its rows so far (R192). -/
structure RowRun where
  op : RowOp
  act : Nat
  dout : Word
  din : Word
  dthird : Word
  fromAcc : Bool
  params : List Byte
  width : Nat
  rows : Nat
  qmode : Bool
  scale : Nat
  row : Nat
  bank : Bool
  gen : Nat
  ref : Bool
  counted : NumCount
  deriving DecidableEq, Repr

/-- The instructions of majors 0x30 and 0x31 (R227). -/
inductive ConvOp where
  | conv
  | maxpool
  | avgpool
  | dwconv
  deriving DecidableEq, Repr

/-- The stripe record of a command (R245): the pc of the command, the registers at its issue, and the counter's
value then. -/
structure StripeRec where
  pc : Nat
  s : List (Nat × Word)
  d : List (Nat × Word)
  a : List (Nat × Word)
  counter : Nat
  deriving DecidableEq, Repr

/-- A convolution or pooling command in flight (R228 to R245): the descriptor as read, the registers captured at
issue, the columns of a pass, the place of the next pass in the loop of R233, the bank of the next pass, the
rows finished since the last post, and its stripe record. -/
structure ConvRun where
  op : ConvOp
  desc : List Byte
  handle : Word
  dline : Word
  dwst : Word
  stripe : Nat
  offx : Int
  offy : Int
  tileP : Nat
  t : Nat
  y : Nat
  g : Nat
  block : Nat
  seg : Nat
  bank : Bool
  unposted : Nat
  record : Option StripeRec
  deriving DecidableEq, Repr

/-- A page descriptor of a slot's page queue (R278, R279). -/
structure PageDesc where
  addr : Nat := 0
  home : Nat := 0
  token : Nat := 0
  lo : Nat := 0
  hi : Nat := 0
  page : Nat := 0
  silOnly : Bool := false
  silOk : Bool := false
  pending : Bool := false
  last : Bool := false
  ringSlot : Option Nat := none
  silAddr : Nat := 0
  silN : Nat := 0
  horizon : Bool := false
  deriving DecidableEq, Repr

/-- The attention instructions (R249). -/
inductive AttnOp where
  | fwd
  | bwdKv
  | bwdQ
  | merge
  deriving DecidableEq, Repr

/-- An attention command in flight (R254 to R260, R278): the descriptor and registers as read at issue; the place
in heads and tiles; in a tile, the staged query rows and their format, the next key, the page queue with the part
of its first page that comes next, the walk's number and next slot, the pseudo-tokens collected and used, the
running maximum and sum of each row, and, for a wait on a page, when it began and whether its deadline has
passed. -/
structure AttnRun where
  op : AttnOp
  desc : List Byte
  handle : Word
  dwork : Word
  q0 : Nat
  qRows : Nat
  h0 : Nat
  heads : Nat
  k0 : Nat
  kCount : Nat
  qTile : Nat
  bank : Bool
  gen : Nat
  ref : Bool
  head : Nat := 0
  tile : Nat := 0
  step : Nat := 0
  started : Bool := false
  qFmt : Nat := 0
  qBytes : List Byte := []
  queue : List PageDesc := []
  part : Nat := 0
  walk : Nat := 0
  walkSlot : Nat := 0
  walkDone : Bool := false
  pseudo : List (Nat × Nat) := []
  rowM : List Lane := []
  rowL : List Lane := []
  rowD : List Lane := []
  waitFrom : Option Nat := none
  late : Bool := false
  deriving DecidableEq, Repr

/-- A command that stays in an engine's sub-queue over several steps (R53). -/
inductive Flight where
  | tmm (r : TmmRun)
  | row (r : RowRun)
  | conv (r : ConvRun)
  | attn (r : AttnRun)
  deriving DecidableEq, Repr

/-- A flight with what the hazard rule and the claims need of it: its spans, its claimed engines, whether the
claim is granted, and the semaphore to post at its end (R55, R56, R131). -/
structure Queued where
  pc : Nat
  major : Nat
  flight : Flight
  spans : List Span
  claims : List Engine
  granted : Bool
  post : Option Nat
  deriving DecidableEq, Repr

/-- A context slot of a core (R39 to R49). -/
structure Slot where
  id : CtxId := {}
  allot : Allot := {}
  num : NumCtl := {}
  sfu : SfuCtl := {}
  attn : AttnCtl := {}
  s : List (Nat × Word) := []
  v : List (Nat × List (Nat × Lane)) := []
  p : List (Nat × PredBits) := []
  d : List (Nat × Word) := []
  a : List (Nat × Word) := []
  pc : Nat := 0
  code : Nat := 0
  stage : Nat := 0
  task : Nat := 0
  wait : Option Wait := none
  faulted : Bool := false
  held : Option HeldWhy := none
  cnt : NumCount := {}
  act : ActCount := {}
  consecFallback : Nat := 0
  posts : List Nat := []
  qVec : List Queued := []
  qSfu : List Queued := []
  qTa : List Queued := []
  qCe : List Queued := []
  qDma : List Queued := []
  deriving DecidableEq, Repr

/-- CORE_STATUS and the failure record of a core (R430 to R432, R510). -/
structure CoreHealth where
  fenced : Bool := false
  fenceReason : Nat := 0
  underTest : Bool := false
  lastTest : Nat := 0
  windowCount : Nat := 0
  testedSinceFence : Bool := false
  mismatches : Nat := 0
  sramCorrected : Nat := 0
  off : Bool := false
  deriving DecidableEq, Repr

/-- CORE_SFU_TBL and the two banks of interpolation tables (R189 to R193): the generation each bank holds, and whether
a written bank waits for the flip. The commands that hold the inactive bank are counted from the sub-queues.
DEDUCED (log entry 34). -/
structure SfuTables where
  reloadBusy : Bool := false
  activeBank : Bool := false
  gen0 : Nat := 1
  gen1 : Nat := 0
  flipDue : Bool := false
  deriving DecidableEq, Repr

/-- A compute core (R37): its slots; by engine number, the slot each engine last served and 1 + the slot whose
command it has taken (R54); the claims posted and not yet granted, oldest first, as 8 × slot + engine number
(R56); its storage with the valid bits of R48, and its instruction cache as (code object, line) pairs (R60). -/
structure Core where
  slots : List (Nat × Slot) := []
  last : List (Nat × Nat) := []
  taken : List (Nat × Nat) := []
  claims : List Nat := []
  buf : List (Nat × Byte) := []
  bufValid : List (Nat × Bool) := []
  acc : List (Nat × Lane) := []
  accValid : List (Nat × Bool) := []
  icache : List (Nat × Nat) := []
  tables : SfuTables := {}
  health : CoreHealth := {}
  deriving DecidableEq, Repr

end Sys2Proof.Machine
end

