-- ==== Sys2Proof/Machine/PackageState.lean ====
section
/-!
DEFINITION. The state of the package beside the cores, part one: events (chapter 15), memory and homes
(chapters 01, 10, 15), code objects and semaphores (chapter 04), jobs and polders (chapter 13), collectives and
remote requests (chapter 14).
-/
namespace Sys2Proof.Machine

/-- What an SQ command leaves for its completion: its queue, identifier and function. -/
structure Reply where
  q : Nat := 0
  id : Nat := 0
  fn : Nat := 0
  deriving DecidableEq, Repr

/-- An event record (R451), with the function that submitted its context (R489). -/
structure Ev where
  time : Nat := 0
  seq : Nat := 0
  code : Nat := 0
  die : Nat := 0
  cls : Nat := 0
  index : Nat := 0
  sev : Nat := 0
  ctx : Nat := 0
  boot : Nat := 0
  detail : Nat := 0
  fn : Nat := 0
  deriving DecidableEq, Repr

/-- An event that the warden holds while the hub is not running (R453); a dropped one leaves its place. -/
inductive EarlyEv where
  | held (e : Ev)
  | journaled (e : Ev)
  | dropped
  deriving DecidableEq, Repr

/-- The event log, the journal and the EVENT block (R451 to R453, R508, R509). While the warden's pair restarts it is
`halted` and journal records wait (R442). -/
structure Events where
  detected : List Ev := []
  next : Nat := 0
  wraps : Nat := 0
  log : List (Nat × Ev) := []
  journal : List Ev := []
  journalLost : List (Nat × Nat) := []
  halted : Bool := false
  journalWait : List Ev := []
  early : List EarlyEv := []
  dropped : Nat := 0
  lastPost : List (Nat × Nat) := []
  select : Nat := 0
  source : Bool := false
  bootSel : Nat := 0
  valid : Bool := false
  skipped : Bool := false
  data : List Byte := []
  bootCount : Nat := 0
  deriving DecidableEq, Repr

/-- A home entry (R292). `tier` 0 stack, 1 DDR, 2 host; `state` 0 unallocated, 1 empty, 2 resident, 3 moving,
4 quarantined. -/
structure Home where
  slice : Nat := 0
  slicesM1 : Nat := 0
  salt : Nat := 0
  tier : Nat := 0
  state : Nat := 0
  object : Nat := 0
  destTier : Nat := 0
  destSlice : Nat := 0
  destSlicesM1 : Nat := 0
  deriving DecidableEq, Repr

/-- A write held at a moving extent until the flip (R300), and the extent. -/
structure HeldWrite where
  extent : Nat
  ctx : Nat
  addr : Nat
  bytes : List Byte
  deriving DecidableEq, Repr

/-- The contents of device memory and host memory by 52-bit device address (R18), the poison marks by 64-byte granule
(R437), the home table by extent (R292), the bias table (R471), held writes, and the afterglow extents whose collected
writes have not been switched in, with 1 + the context of the last writer, and what those writes replaced, as 1 + the
byte (R312); extents whose home entry was lost (R438), and the runs of slices that stay taken until the free lists are
rebuilt, by tier (R302); and the hot windows in a row of each monitored group (R318). DESIGN CHOICE (log entry 8). -/
structure Mem where
  bytes : List (Nat × Byte) := []
  poison : List (Nat × Bool) := []
  home : List (Nat × Home) := []
  bias : List (Nat × Bool) := []
  held : List HeldWrite := []
  glow : List (Nat × Nat) := []
  undo : List (Nat × Nat) := []
  lost : List (Nat × Bool) := []
  orphans : List (Nat × Nat × Nat) := []
  hot : List (Nat × Nat) := []
  deriving DecidableEq, Repr

/-- A region of 12 cores (R15, R17, R191): whether it is in reset, the step of the table reload at hand (0 none, 2
waiting for the inactive banks, 4 flipping), the requests that wait, and the generation being loaded. -/
structure Region where
  resetting : Bool := false
  tblStep : Nat := 0
  tblWaiting : Nat := 0
  tblGen : Nat := 0
  deriving DecidableEq, Repr

/-- An object (R290, R291). -/
structure Obj where
  nameBase : Nat := 0
  extents : Nat := 0
  homeTier : Nat := 0
  interleave : Nat := 0
  die : Nat := 0
  polder : Nat := 0
  glowMode : Nat := 0
  desc : List Byte := []
  pin : Bool := false
  fn : Nat := 0
  job : Nat := 0
  deriving DecidableEq, Repr

/-- A sluice command in progress (R298, R299). `phase` is the step of R299 that comes next for the current
extent: 1 check, 3 drain, 4 copy, 6 free the source. -/
structure Sluice where
  cmd : List Byte := []
  reply : Option Reply := none
  fn : Nat := 0
  phase : Nat := 1
  at_ : Nat := 0
  moved : Nat := 0
  skipped : Nat := 0
  copied : Nat := 0
  state : Nat := 0
  hintSlot : Option Nat := none
  srcSlice : Nat := 0
  srcSlicesM1 : Nat := 0
  srcTier : Nat := 0
  waiting : Option Reply := none
  cancelReq : Option Reply := none
  ring : Option (Nat × Nat × Nat) := none
  deriving DecidableEq, Repr

/-- A slot of a set's fetch ring (R278): 1 + the frame it holds or fetches, whether the copy is still under way,
and when it was last used. -/
structure RingSlot where
  frame : Nat := 0
  pending : Bool := false
  used : Nat := 0
  deriving DecidableEq, Repr

/-- A cache set (R268 to R275): its owner, the address and copy of its descriptor, the free list's first frame and
length, the fetch ring, and the frames that wait for the walks in progress when they were dropped. The frame
table, the page lists and the silhouettes lie in device memory. -/
structure CacheSet where
  live : Bool := false
  ctx : Nat := 0
  addr : Nat := 0
  csd : List Byte := []
  freeHead : Nat := 0
  freeCount : Nat := 0
  ring : List (Nat × RingSlot) := []
  clock : Nat := 0
  deferred : List (Nat × List Nat) := []
  deriving DecidableEq, Repr

/-- A code object (R140 to R142): its header address, version, the profile it counts as, section lengths and
entries (offset, buffer granules, accumulator granules). -/
structure CodeObj where
  addr : Nat := 0
  version : Nat := 0
  profile : Nat := 0
  codeBytes : Nat := 0
  constBytes : Nat := 0
  entries : List (Nat × Nat × Nat) := []
  units : Nat := 0
  fn : Nat := 0
  deriving DecidableEq, Repr

/-- A waiter of a semaphore (R132): the core and slot, as 4 × core + slot, and what it waits for. -/
structure Waiter where
  place : Nat
  count : Nat
  keep : Bool
  deriving DecidableEq, Repr

/-- A semaphore (R130) with its waiters in order of arrival (R132). -/
structure Sem where
  value : Nat := 0
  poison : Bool := false
  waiters : List Waiter := []
  deriving DecidableEq, Repr

/-- A barrier of a stage group (R134): generations released and the tasks that have arrived at the current
one. -/
structure Barrier where
  gen : Nat := 0
  arrived : List Nat := []
  deriving DecidableEq, Repr

/-- The saved state of a suspended context (R61, R65): the slot as it stopped and the blocks of its allotment,
at offsets from the allotment's base. -/
structure Saved where
  slot : Slot := {}
  buf : List (Nat × Byte) := []
  bufValid : List (Nat × Bool) := []
  acc : List (Nat × Lane) := []
  accValid : List (Nat × Bool) := []
  deriving DecidableEq, Repr

/-- A task of a job (R376, R390, R394). `state` is 0 waiting, 1 running, 2 suspending, 3 suspended, 4 ended; `notice`
is the event that its placement after a move or a restart posts. -/
structure Task where
  state : Nat := 0
  core : Nat := 0
  slot : Nat := 0
  saved : Option Saved := none
  notice : Option Ev := none
  deriving DecidableEq, Repr

/-- A stage of a job (R376) with the granules its entry requests (R140); `reserved` after it has waited 100 ms at the
head of its priority (R379). -/
structure Stage where
  code : Nat := 0
  entry : Nat := 0
  striped : Bool := false
  restartable : Bool := false
  tasks : Nat := 0
  dieMask : Nat := 0
  buf : Nat := 0
  acc : Nat := 0
  reserved : Bool := false
  deriving DecidableEq, Repr

/-- A stage entry of a refresh control block (R217). -/
structure RefreshEntry where
  word : Nat := 0
  readySem : Nat := 0
  readyCount : Nat := 0
  barrier : Nat := 0
  deriving DecidableEq, Repr

/-- The weight set of a job as its RCB gave it at submission, with the epoch committed last (R217 to R220). -/
structure WeightSet where
  rcb : Nat := 0
  hold : Bool := true
  beginSem : Nat := 0
  timeoutMs : Nat := 0
  tag : Nat := 0
  epoch : Nat := 0
  entries : List RefreshEntry := []
  deriving DecidableEq, Repr

/-- A weight refresh in flight (R220, R224): the step that is under way, 2, 3 (3 to 5) or 6; the time of its record;
the stages flipped. `state` is 0 running, 1 suspending, 2 suspended. -/
structure Refresh where
  step : Nat := 2
  time : Nat := 0
  flipped : List Nat := []
  state : Nat := 0
  waiting : Option Reply := none
  deriving DecidableEq, Repr

/-- A record of the warden's ring of refresh records (R222). -/
structure RefreshRec where
  type : Nat := 0
  ctx : Nat := 0
  epoch : Nat := 0
  rcb : Nat := 0
  tag : Nat := 0
  time : Nat := 0
  deriving DecidableEq, Repr

/-- A job (R374 to R378, R390 to R393). `state` is 0 running, 1 suspending, 2 suspended, 3 ending, 4 ended with
quarantined objects left. `reply` is where its completion goes; suspends, and a resume, that have not landed wait
for theirs. The fault that tears it down has a code and the core and stage it came from. -/
structure Job where
  live : Bool := false
  fn : Nat := 0
  reply : Reply := {}
  order : Nat := 0
  tag : Nat := 0
  emuBase : Nat := 0
  emuLen : Nat := 0
  polder : Nat := 0
  profile : Bool := false
  numPolicy : Nat := 0
  sfuPolicy : Nat := 0
  attnPolicy : Nat := 0
  statsArea : Nat := 0
  weights : Option WeightSet := none
  savePools : List (Nat × Nat) := []
  objects : List Nat := []
  stages : List Stage := []
  tasks : List (Nat × Task) := []
  barriers : List (Nat × Barrier) := []
  state : Nat := 0
  faulted : Bool := false
  faultCode : Nat := 0
  faultCore : Nat := 0xFF
  faultStage : Nat := 0
  poisoned : Bool := false
  waiting : List Reply := []
  resumeReq : Option Reply := none
  stats : NumCount := {}
  fbSinceEvent : Nat := 0
  emulated : List Nat := []
  refresh : Option Refresh := none
  deriving DecidableEq, Repr

/-- A dike (R386 to R388). Tokens are bytes, or millionths of a microsecond for codec engine time; the time in which
it held a request counts in microseconds, since the last read and in the window under way. DEDUCED (log entry 94). -/
structure Dike where
  rate : Nat := 0xFFFFFF
  burst : Nat := 0x4000
  waitUs : Nat := 0
  tokens : Int := 0x1000000
  holding : Bool := false
  heldUs : Nat := 0
  deriving DecidableEq, Repr

/-- A polder page (R319, R383). `salt` is the salt in force; `saltLo` the low word as written. -/
structure Polder where
  enable : Bool := false
  exclusive : Bool := false
  priority : Nat := 0
  slotQuota : Nat := 0x300
  saltLo : Nat := 0
  salt : Nat := 0
  dikes : List (Nat × Dike) := []
  deriving DecidableEq, Repr

end Sys2Proof.Machine
end

