-- ==== Sys2Proof/Machine/LinkState.lean ====
section
/-!
DEFINITION. The state of the levee links, of routing, of the export windows and of the collectives (chapter 14).
-/
namespace Sys2Proof.Machine

/-- A levee link (R406 to R412): LNK_STATE, LNK_CTRL, LNK_PEER and LNK_ERR; whether a request of an assigned far
end was posted as refused, whether an up link was lost and has not come back, the lanes that lost lock once and
those dropped for losing it again (R409), the sequence that was negatively acknowledged last and how often in a
row (R400), whether the cable is fitted, and the negative acknowledgements sent. `state` is 0 down, 1 detect,
2 train, 3 ident_wait, 4 up, 5 recal, 6 fault, 7 disabled. -/
structure Link where
  state : Nat := 0
  width : Nat := 0
  lanesGood : Nat := 0
  polInverted : Nat := 0
  orderReversed : Bool := false
  crossed : Bool := false
  enable : Bool := true
  recalReq : Bool := false
  retrainReq : Bool := false
  minWidth : Nat := 1
  recalForce : Bool := false
  farLink : Nat := 0
  farPkg : Nat := 0
  replays : Nat := 0
  uncorrectable : Nat := 0
  idRefused : Bool := false
  lost : Bool := false
  weakLanes : Nat := 0
  droppedLanes : Nat := 0
  nakSeq : Nat := 0
  nakCount : Nat := 0
  cable : Bool := true
  naksSent : Nat := 0
  deriving DecidableEq, Repr

/-- A routing-table entry (R403). -/
structure Route where
  mask : Nat := 0
  valid : Bool := false
  hopLimit : Nat := 0
  deriving DecidableEq, Repr

/-- An export window (R413). -/
structure ExportWin where
  base : Nat := 0
  count : Nat := 0
  kind : Nat := 0
  access : Nat := 0
  polder : Nat := 0
  valid : Bool := false
  anyPackage : Bool := false
  ctx : Nat := 0
  source : Nat := 0
  deriving DecidableEq, Repr

/-- A collective group (R415) and the collectives its owner has issued on it. -/
structure CollGroup where
  live : Bool := false
  tag : Nat := 0
  members : List Nat := []
  rank : Nat := 0
  channels : Nat := 0
  ctx : Nat := 0
  fn : Nat := 0
  issued : Nat := 0
  deriving DecidableEq, Repr

/-- A collective that this member has issued and that is not complete (R416 to R418): the slot and the task that
issued it, its place among the collectives of its group, its command block as read, and the semaphore it posts. -/
structure CollRun where
  minor : Nat
  core : Nat
  slot : Nat
  stage : Nat
  task : Nat
  group : Nat
  ctx : Nat
  polder : Nat
  seq : Nat
  block : List Byte
  post : Option Nat
  deriving DecidableEq, Repr

/-- The last request of a context to another package: its destination and the requester's place in events (R404).
DEDUCED (log entry 49). DESIGN CHOICE (log entry 129). -/
structure RemoteReq where
  live : Bool := false
  dest : Nat := 0
  die : Nat := 0
  cls : Nat := 0
  index : Nat := 0
  deriving DecidableEq, Repr

/-- The levee system seen from this package: links, routes, windows, groups, collectives in progress oldest
first, remote requests by context, packets forwarded by link and those discarded (R404), and the answer to the
last access that arrived (R414). -/
structure Levee where
  links : List (Nat × Link) := []
  routes : List (Nat × Route) := []
  windows : List (Nat × ExportWin) := []
  groups : List (Nat × CollGroup) := []
  colls : List CollRun := []
  requests : List (Nat × RemoteReq) := []
  forwarded : List (Nat × Nat) := []
  discarded : Nat := 0
  answer : Option (List Byte) := none
  deriving DecidableEq, Repr

end Sys2Proof.Machine
end

