-- ==== Sys2Proof/Machine/BootState.lean ====
section
/-!
DEFINITION. The state of the warden and of the hub's root of trust (chapters 18 and 19): power, sensors and the input,
start-up, image slots, fuses, debug unlocks and the answers that ports hold.
-/
namespace Sys2Proof.Machine

/-- A sensor input (R544, R566): the value last read while it was valid, in the unit of R513; 0 valid, 1 open, 2
shorted; and the samples in a row that say otherwise. -/
structure Sensor where
  value : Int := 0
  fault : Nat := 0
  run : Nat := 0
  deriving DecidableEq, Repr

/-- The warden's power control (R513, R538 to R545, R556). Limits in W: set through the management port, by the host
(a write while the pair restarts waits), and the thermal term; whether low flow caps it and whether the input is low;
the steps of the tensor clock and of the other engines in 32nds, whether codec engines idle, milliseconds over the
limit at the floors, below 98 % of it, and without throttling; die temperatures in 0.1 °C; the milliseconds that count
toward a rise of the term. The last mirrored input; the main rails off, the standby lost, the input reversed; open
DIMM fuses and channels that failed training; the DIMMs fitted, in GB; and the straps ADDR1 and ADDR0 of J3, which
read 1 open (R565). PRESUMED (log entry 74). DESIGN CHOICE (log entries 4, 5). -/
structure Power where
  mgmt : Nat := 0x0CE4
  host : Nat := 0x0CE4
  hostWaits : Option Nat := none
  term : Nat := 3300
  flowCap : Bool := false
  undervolt : Bool := false
  tensor : Nat := 32
  other : Nat := 32
  idle : Bool := false
  overMs : Nat := 0
  underMs : Nat := 0
  clearMs : Nat := 1000
  throttleMs : Nat := 0
  temps : List (Nat × Int) := []
  coolMs : Nat := 0
  inlet : Sensor := {}
  flow : Sensor := {}
  volts : Int := 0
  watts : Nat := 0
  mainOff : Bool := false
  standbyOff : Bool := false
  reversed : Bool := false
  fuses : List Nat := []
  trainFailed : List Nat := []
  dimms : List Nat := [256, 256, 256, 256, 256, 256, 256, 256]
  straps : Nat := 3
  deriving DecidableEq, Repr

/-- Start-up (R551, R554, R555): the phases completed, bit n for Pn; whether it follows a warm reset, stopped at a stack
that failed training, or runs in the recovery ROM; whether a slot fell back; the time of PERST# deassertion. -/
structure Boot where
  done : Nat := 0
  warm : Bool := false
  stopped : Bool := false
  recovery : Bool := false
  fallback : Bool := false
  since : Nat := 0
  deriving DecidableEq, Repr

/-- The image that a die runs, as it last reported it (R523). -/
structure DieImage where
  type : Nat := 0
  version : Nat := 0
  svn : Nat := 0
  measurement : List Byte := []
  deriving DecidableEq, Repr

/-- An image slot of the boot flash (R522, R526): its bytes, and whether it is being written. -/
structure ImgSlot where
  bytes : List (Nat × Byte) := []
  writing : Bool := false
  deriving DecidableEq, Repr

/-- What a request on a port came to (R515, R525): the result and the response. -/
structure Answer where
  result : Nat := 0
  rsp : List Byte := []
  deriving DecidableEq, Repr

/-- A debug unlock in force (R532, R533). -/
structure Unlock where
  level : Nat
  mask : Nat
  lifetime : Nat
  deriving DecidableEq, Repr

/-- The root of trust: both image slots, the slot recorded as active, the warden's own image (R524), blown rollback
fuses, revoked firmware keys, the images that dies run, the challenge with its time of issue, the unlock in force, the
final report of a decommissioned module and killed keys, answers by port, and PF0's mailbox: its command, request
bytes and whether a request is under way or met a collision (R515). `halted` holds dies halted over JTAG.
DESIGN CHOICE (log entry 4). -/
structure Security where
  slotA : ImgSlot := {}
  slotB : ImgSlot := {}
  activeB : Bool := false
  warden : List Byte := []
  counter : Nat := 0
  revoked : List Nat := []
  running : List (Nat × DieImage) := []
  challenge : Option (List Byte × Nat) := none
  unlock : Option Unlock := none
  report : List Byte := []
  killed : Bool := false
  answers : List (Nat × Answer) := []
  opcode : Nat := 0
  reqLen : Nat := 0
  req : List (Nat × Byte) := []
  busy : Bool := false
  collision : Bool := false
  halted : List (Nat × Bool) := []
  deriving DecidableEq, Repr

end Sys2Proof.Machine
end

