-- ==== Sys2Proof/Machine/HostState.lean ====
section
/-!
DEFINITION. The state of the CXL host interface (chapter 16): queues, MSI-X, decoders, bias control, the coherent
cache and the host's view of the functions.
-/
namespace Sys2Proof.Machine

/-- A queue (R480 to R491). The four base words and the control, owner and coalescing fields are as written;
`head` and `tail` index the SQ; `written` and `read` count entries of the CQ or event ring since the enable;
`inFlight` counts commands taken and not completed, `owed` the completions they still produce; `unsignalled`
entries have not raised an interrupt; `dropped` counts records that a full event ring dropped. A queue that
`stopping` takes no more entries. `held` lists what was taken before phase P7, with the function that gave it (R494). -/
structure Queue where
  sqLo : Nat := 0
  sqHi : Nat := 0
  cqLo : Nat := 0
  cqHi : Nat := 0
  enable : Bool := false
  kind : Bool := false
  sqLog2 : Nat := 0
  cqLog2 : Nat := 0
  irqEn : Bool := false
  vector : Nat := 0
  localIx : Nat := 0
  fn : Nat := 0
  running : Bool := false
  stopping : Bool := false
  error : Nat := 0
  coCount : Nat := 0
  coTime : Nat := 0
  head : Nat := 0
  tail : Nat := 0
  written : Nat := 0
  read : Nat := 0
  inFlight : Nat := 0
  owed : Nat := 0
  unsignalled : Nat := 0
  dropped : Nat := 0
  held : List (Nat × List Byte) := []
  deriving DecidableEq, Repr

/-- An MSI-X vector (R462, R502) and the messages it has sent. PRESUMED (log entry 7). -/
structure MsixVec where
  addr : Nat := 0
  data : Nat := 0
  masked : Bool := true
  pending : Bool := false
  sent : Nat := 0
  deriving DecidableEq, Repr

/-- An HDM decoder (R469). DEDUCED (log entry 69). -/
structure Decoder where
  base : Nat := 0
  size : Nat := 0
  committed : Bool := false
  notCommitted : Bool := false
  deriving DecidableEq, Repr

/-- A bias flip that waits for extents to stop moving (R475): where its completion goes, the bias it gives, and the
extents left. -/
structure BiasFlip where
  reply : Option Reply := none
  toHost : Bool := false
  extents : List Nat := []
  deriving DecidableEq, Repr

/-- The host interface: queues; MSI-X vectors as 2,048 × function + vector; HUB_BAR2_BASE, HUB_BIAS_CTRL and
HUB_CXL_LINK; the HDM decoders; the host pool (R479) as ranges; bias flips that wait (R475); lines of the coherent
cache (R477) by number, 1 shared, 2 exclusive, 3 modified; the answer to the last snoop; functions in D3hot (R462); VF
Enable (R492); PERST# and the configuration-retry status (R494); Memory_Active of the two ranges (R463); the latched
high word of the timestamp by function (R500); and the answer to the host's last read: a register value, or bytes with
poison. DESIGN CHOICE (log entry 129). -/
structure HostIf where
  queues : List (Nat × Queue) := []
  msix : List (Nat × MsixVec) := []
  bar2 : Nat := 0
  autoFlip : Bool := true
  autoFlips : Nat := 0
  cxlMode : Bool := false
  speed : Nat := 0
  width : Nat := 0
  retrains : Nat := 0
  decoders : List (Nat × Decoder) := []
  pool : List (Nat × Nat) := []
  flips : List BiasFlip := []
  lines : List (Nat × Nat) := []
  snoop : Option (List Byte) := none
  d3hot : List (Nat × Bool) := []
  vfEnable : Bool := false
  perst : Bool := true
  retry : Bool := true
  active1 : Bool := false
  active2 : Bool := false
  timeLatch : List (Nat × Option Nat) := []
  value : Nat := 0
  data : List Byte := []
  poisoned : Bool := false
  deriving DecidableEq, Repr

end Sys2Proof.Machine
end

