-- ==== Sys2Proof/Machine/DependState.lean ====
section
/-!
DEFINITION. The state of dependability (chapter 15): lanterns and the warden pair, live update, self-tests and the
error counters.
-/
namespace Sys2Proof.Machine

/-- A self-test under way (R446 to R449): its completion, the descriptor, the units still to test as 0 a core, 1 a
link, 2 a codec engine, 3 a sluice, 4 a collective engine, 5 the tables of a core, the counts of this pass, and
the jobs that an offline test has suspended. `state` is 0 running, 1 suspending after the unit under test, 2 suspended;
a cancel that waits for the unit stands in `cancelReq`. -/
structure SelfTest where
  live : Bool := false
  reply : Reply := {}
  desc : List Byte := []
  units : List (Nat × Nat) := []
  tested : Nat := 0
  failed : Nat := 0
  state : Nat := 0
  waiting : Option Reply := none
  cancelReq : Option Reply := none
  jobs : List Nat := []
  deriving DecidableEq, Repr

/-- A live update (R444, R445): the slot, its wait in seconds, when it began, the step of R444 it is at, and the
regions and dies switched, with the images they ran before; 1 + the time of the switch by lantern; the
jobs that step 5 has suspended. -/
structure Update where
  slotB : Bool := false
  wait : Nat := 0
  since : Nat := 0
  step : Nat := 2
  regions : List Nat := []
  dies : List Nat := []
  before : List (Nat × DieImage) := []
  times : List (Nat × Nat) := []
  jobs : List Nat := []
  deriving DecidableEq, Repr

/-- Lanterns that are restarting and, by lantern, 1 + the time of the last expiry of their watchdog (R440); the
mismatches of the warden pair (R442, R443); the update under way; self-tests by handle; corrected words by unit since the last post
(R434, R436); consecutive failed resends by causeway port (R30); codec engines, sluices and collective engines
that failed their test (R448), as 64 + 2 × die + engine, 80 + 4 × die + sluice and 96 + 4 × die + engine; the ring of refresh records (R222). -/
structure Depend where
  down : List (Nat × Bool) := []
  expiry : List (Nat × Nat) := []
  pairTimes : List Nat := []
  safeMode : Bool := false
  update : Option Update := none
  tests : List (Nat × SelfTest) := []
  corrected : List (Nat × Nat) := []
  resends : List (Nat × Nat) := []
  unitsOut : List (Nat × Bool) := []
  refreshLog : List RefreshRec := []
  deriving DecidableEq, Repr

end Sys2Proof.Machine
end

