-- ==== Sys2Proof/Machine/MediaState.lean ====
section
/-!
DEFINITION. The state of the media dies (chapters 11 and 12): stream contexts, batch queues with their requests
and samples, the decoded-sample caches, and encode streams.
-/
namespace Sys2Proof.Machine

/-- A sample at a planned position (R333, R343): its ID, its request and box, the buffer it holds, and, once it is
done, the status, flags and decode time of its record. -/
structure Sample where
  id : Nat := 0
  req : Nat := 0
  box : Nat := 0
  buffer : Option Nat := none
  done : Bool := false
  status : Nat := 0
  late : Bool := false
  hit : Bool := false
  deriving DecidableEq, Repr

/-- A sample request taken from its ring (R332, R333): its position, its bytes, the code of the check it failed, the
number under which its bitstream's contents are free, whether it has started, fills from the cache or is cancelled,
the stream context it holds, the frames decoded, when its decode and its first frame began, and its deadline in
microseconds. -/
structure IngestReq where
  seq : Nat := 0
  bytes : List Byte := []
  fail : Nat := 0
  seed : Nat := 0
  started : Bool := false
  fill : Bool := false
  cancelled : Bool := false
  stream : Option Nat := none
  frames : Nat := 0
  since : Nat := 0
  first : Option Nat := none
  deadline : Nat := 0
  deriving DecidableEq, Repr

/-- A batch queue (R331, R343): its descriptor and owner, requests taken and those not finished, the planned order
from the next batch on (an empty position was left by a replacement), batches written and those not freed with
their buffers, buffers in use, the decode times that the deadline's median takes, oldest first, and the samples
completed. `state` is 0 running, 1 suspending, 2 suspended, 3 ending, 4 ended. -/
structure BatchQ where
  desc : List Byte := []
  ctx : Nat := 0
  fn : Nat := 0
  taken : Nat := 0
  reqs : List IngestReq := []
  plan : List (Option Sample) := []
  batch : Nat := 0
  out : List (List Nat) := []
  busy : List (Nat × Bool) := []
  times : List Nat := []
  completed : Nat := 0
  state : Nat := 0
  waiting : Option Reply := none
  cancelReq : Option Reply := none
  deriving DecidableEq, Repr

/-- A tensor of a sample (R338): its entry, T, H, W, C, its format and its bytes. -/
structure SampleTensor where
  entry : Nat
  t : Nat
  h : Nat
  w : Nat
  c : Nat
  fmt : Nat
  bytes : List Byte
  deriving DecidableEq, Repr

/-- What is written for a sample (R337 to R341). -/
structure SampleData where
  status : Nat := 0
  reason : Nat := 0
  frames : Nat := 0
  saturated : Nat := 0
  damage : List (List Byte) := []
  more : Bool := false
  motion : Bool := false
  tensors : List SampleTensor := []
  deriving DecidableEq, Repr

/-- An entry of a decoded-sample cache (R345, R346): its area, its key, the sample, and when it was last used. -/
structure CacheEnt where
  area : Nat
  key : List Byte
  data : SampleData
  used : Nat
  deriving DecidableEq, Repr

/-- A frame that an encode stream has taken from its ring (R357): its display index, its entry, whether it is intra,
and its temporal layer and whether later frames refer to it, once its mini-group is formed. -/
structure EncFrame where
  index : Nat := 0
  bytes : List Byte := []
  intra : Bool := false
  layer : Nat := 0
  leaf : Bool := false
  deriving DecidableEq, Repr

/-- An encode stream (R355 to R371): its descriptor, owner and stream context; entries taken, those not yet in a
mini-group in display order, and the mini-group in coded order; the engine that codes its frame; frames coded and bytes written; the buffer model of R361 in bits times window_frames; the bits of
the last frames; the counts of its summary; reconstruction buffers not freed; the CAP_EXHAUSTED events of the second
under way; frames since the last
intra frame was taken and whether its last entry was; whether it closes, and with which status; and what waits for
it. -/
structure EncStream where
  desc : List Byte := []
  ctx : Nat := 0
  fn : Nat := 0
  stream : Nat := 0
  taken : Nat := 0
  frames : List EncFrame := []
  group : List EncFrame := []
  engine : Option Nat := none
  coded : Nat := 0
  bytes : Nat := 0
  model : Nat := 0
  bits : List Nat := []
  largest : Nat := 0
  capped : Nat := 0
  unposted : Nat := 0
  psnr : List Lane := []
  codeUs : Nat := 0
  recons : List Nat := []
  nextRecon : Nat := 0
  capSecond : Nat := 0
  capPosts : Nat := 0
  sinceIntra : Nat := 0
  ended : Bool := false
  closing : Bool := false
  status : Nat := 0
  state : Nat := 0
  closeReq : Option Reply := none
  waiting : Option Reply := none
  cancelReq : Option Reply := none
  deriving DecidableEq, Repr

/-- What holds a stream context (R327): nothing, a request of a batch queue, or an encode stream, by handle. -/
inductive StreamUse where
  | none_
  | ingest (handle seq : Nat)
  | encode (handle : Nat)
  deriving DecidableEq, Repr

/-- The media dies: batch queues and encode streams by handle, stream contexts as 64 × die + index, by engine
(2 × die + engine) 1 + the context it served last and whether it is powered off, the caches, and the frames that
the cache has counted for its least recently used entry. -/
structure Media where
  queues : List (Nat × BatchQ) := []
  encs : List (Nat × EncStream) := []
  streams : List (Nat × StreamUse) := []
  served : List (Nat × Nat) := []
  off : List (Nat × Bool) := []
  cache : List CacheEnt := []
  clock : Nat := 0
  deriving DecidableEq, Repr

end Sys2Proof.Machine
end

