-- ==== Sys2Proof/Machine/State.lean ====
section
/-!
DEFINITION. The state of the block, the reasons a step can stop, and the state after reset. The queue
`pending` holds the commands that wait, first in, first out.
-/
namespace Sys2Proof.Machine

/-- The reasons a step stops with a fault. The spec stops the part nowhere: each of its faults is an event, a job
fault, a completion status or a discarded access, all of them in the state. No command answers a fault.
DESIGN CHOICE (log entry 127). -/
inductive Fault where
  /-- Raised by no command; the part has no stop of its own. Safe: nothing can be concluded from it. -/
  | partStopped
  deriving DecidableEq, Repr

/-- The reasons a step is refused. DESIGN CHOICE (log entry 127). -/
inductive Refusal where
  /-- Raised in the dispatch of a command that has no meaning yet, with its mnemonic. Safe: the model stops
  where the part goes on. -/
  | notModelled (mnemonic : String)
  deriving DecidableEq, Repr

/-- The four ordering variants (R1). -/
inductive Variant where
  | tbx20
  | tbx20c
  | tbx20l
  | tbx20d
  deriving DecidableEq, Repr

/-- HUB registers and hub facts (R503): the hub runs; the phase that HUB_STATUS shows, and whether the job manager is
open (R551); the fields of its registers. DEDUCED (log entry 97). -/
structure Hub where
  running : Bool := false
  phase : Nat := 0
  jobOpen : Bool := false
  dielocal : Nat := 0x20
  partialWrite : Bool := false
  fenceRefused : Bool := false
  splitRefused : Bool := false
  updateActive : Bool := false
  vfPolder0 : Nat := 0x76543210
  vfPolder1 : Nat := 0xFEDCBA98
  pkgAssigned : Bool := false
  pkgId : Nat := 0
  fenceWindowMin : Nat := 0x3C
  fenceThreshold : Nat := 3
  autoTest : Bool := true
  fenceCmd : Nat := 0
  deriving DecidableEq, Repr

/-- A die's service (R507). -/
structure DieSt where
  out : Bool := false
  resetting : Bool := false
  resets : Nat := 0
  deriving DecidableEq, Repr

/-- The state of the block. `rc` holds the counters that a read clears in the MEDIA and TIER blocks (R511, R512), by
BAR0 offset; those of the sluices count bytes. -/
structure State where
  variant : Variant := .tbx20
  time : Nat := 0
  cores : List (Nat × Core) := []
  mem : Mem := {}
  ev : Events := {}
  hub : Hub := {}
  dies : List (Nat × DieSt) := []
  regions : List (Nat × Region) := []
  portsDown : List (Nat × Bool) := []
  ddrBytes : Nat := 7629 * 2 ^ 28
  objs : List (Nat × Obj) := []
  codes : List (Nat × CodeObj) := []
  sems : List (Nat × Sem) := []
  jobs : List (Nat × Job) := []
  jobOrder : Nat := 0
  polders : List (Nat × Polder) := []
  sluices : List (Nat × Sluice) := []
  nextHandle : Nat := 1
  sets : List (Nat × CacheSet) := []
  nextWalk : Nat := 1
  levee : Levee := {}
  host : HostIf := {}
  dep : Depend := {}
  power : Power := {}
  boot : Boot := {}
  sec : Security := {}
  rc : List (Nat × Nat) := []
  media : Media := {}
  refusals : List (Nat × Nat) := []
  pending : List Instr := []
  freeCtr : Nat := 0
  deriving DecidableEq, Repr

/-- The machine right after a cold reset. What the boot flash and the warden's store hold by then is left open.
DESIGN CHOICE (log entries 2, 4). -/
def State.reset : State :=
  { sec := { slotA := { bytes := Config.flash false }, slotB := { bytes := Config.flash true }, warden := Config.wardenImage } }

end Sys2Proof.Machine
end

