-- ==== Sys2Proof/Machine/Words.lean ====
section
/-!
DEFINITION. The words of the context-slot registers (R40, R43, R96, R175, R281), of CORE_SFU_TBL (R193), and the
saturating counters (R97).
-/
namespace Sys2Proof.Machine

/-- A counter that stops at its largest value (R97). -/
def satAdd (bits n k : Nat) : Nat := min (n + k) (2 ^ bits - 1)

def bit (b : Bool) (n : Nat) : Nat := if b then 2 ^ n else 0

/-- CORE_CTX_ID (R40). -/
def CtxId.word (i : CtxId) : Nat :=
  bit i.resident 31 + i.state % 8 * 2 ^ 28 + bit i.allotRefused 27 + bit i.profile 26 + i.polder % 16 * 2 ^ 16
    + i.ctx % 4096

/-- CORE_CTX_ALLOT (R43). -/
def Allot.word (al : Allot) : Nat :=
  bit al.valid 31 + al.bufBase % 64 * 2 ^ 24 + al.bufCount % 64 * 2 ^ 18 + al.accBase % 64 * 2 ^ 6
    + al.accCount % 64

/-- The allotment that a written word gives (R43). -/
def Allot.ofWord (w : Nat) : Allot :=
  { valid := w.testBit 31, bufBase := fieldOf w 24 6, bufCount := fieldOf w 18 6, accBase := fieldOf w 6 6,
    accCount := fieldOf w 0 6 }

/-- CORE_CTX_NUM (R96). -/
def NumCtl.word (n : NumCtl) : Nat := bit n.fallbackEn 31 + n.threshShift % 16 * 2 ^ 24 + n.widespread % 65536
def NumCtl.ofWord (w : Nat) : NumCtl :=
  { fallbackEn := w.testBit 31, threshShift := fieldOf w 24 4, widespread := fieldOf w 0 16 }

/-- Counters summed, each stopping at its largest value (R97). -/
def NumCount.add (x y : NumCount) : NumCount :=
  { fallbackTiles := satAdd 64 x.fallbackTiles y.fallbackTiles
    splitTiles := satAdd 64 x.splitTiles y.splitTiles
    satOnLoad := satAdd 64 x.satOnLoad y.satOnLoad
    satOnStore := satAdd 64 x.satOnStore y.satOnStore
    markersRead := satAdd 64 x.markersRead y.markersRead
    zeroBlocks := satAdd 64 x.zeroBlocks y.zeroBlocks
    widespreadPosts := satAdd 32 x.widespreadPosts y.widespreadPosts
    wireEscapes := satAdd 32 x.wireEscapes y.wireEscapes }

/-- The numeric statistics record (R97): 64 bytes. -/
def NumCount.record (x : NumCount) : List Byte :=
  toBytes 8 x.fallbackTiles ++ toBytes 8 x.splitTiles ++ toBytes 8 x.satOnLoad ++ toBytes 8 x.satOnStore
    ++ toBytes 8 x.markersRead ++ toBytes 8 x.zeroBlocks ++ toBytes 4 x.widespreadPosts
    ++ toBytes 4 x.wireEscapes ++ toBytes 8 0

/-- CORE_CTX_SFU (R175). -/
def SfuCtl.word (x : SfuCtl) : Nat := bit x.refMode 31 + bit x.refForced 30

/-- CORE_CTX_ATTN (R281). -/
def AttnCtl.ofWord (w : Nat) : AttnCtl := { silOnDeadline := w.testBit 31, maxWaitMs := w % 65536 }
def AttnCtl.word (x : AttnCtl) : Nat := bit x.silOnDeadline 31 + x.maxWaitMs % 65536

end Sys2Proof.Machine
end

