-- ==== Sys2Proof/Machine/Ops.lean ====
section
/-!
DEFINITION. The named operations over the state: cores and slots, registers, the operand buffer and the
accumulator memory, events and job faults, device memory and its homes, dikes, semaphores, and the issue of an
instruction.
-/
namespace Sys2Proof.Machine

/-! ### Cores and slots -/

def State.core (s : State) (c : Nat) : Core := mapGet {} s.cores c
def State.setCore (s : State) (c : Nat) (v : Core) : State := { s with cores := mapSet {} s.cores c v }
def Core.slot (c : Core) (k : Nat) : Slot := mapGet {} c.slots k
def Core.setSlot (c : Core) (k : Nat) (v : Slot) : Core := { c with slots := mapSet {} c.slots k v }
def State.slot (s : State) (c k : Nat) : Slot := (s.core c).slot k
def State.setSlot (s : State) (c k : Nat) (v : Slot) : State := s.setCore c ((s.core c).setSlot k v)
def State.at_ (s : State) (a : At) : Slot := s.slot a.core a.slot
def State.setAt (s : State) (a : At) (v : Slot) : State := s.setSlot a.core a.slot v

def State.job (s : State) (j : Nat) : Job := mapGet {} s.jobs j
def State.setJob (s : State) (j : Nat) (v : Job) : State := { s with jobs := mapSet {} s.jobs j v }
def State.polder (s : State) (p : Nat) : Polder := mapGet {} s.polders p
def State.setPolder (s : State) (p : Nat) (v : Polder) : State := { s with polders := mapSet {} s.polders p v }
def State.dike (s : State) (p i : Nat) : Dike := mapGet {} (s.polder p).dikes i
def State.setDike (s : State) (p i : Nat) (v : Dike) : State :=
  s.setPolder p { s.polder p with dikes := mapSet {} (s.polder p).dikes i v }
def State.obj (s : State) (i : Nat) : Obj := mapGet {} s.objs i
def State.setObj (s : State) (i : Nat) (v : Obj) : State := { s with objs := mapSet {} s.objs i v }
def State.code (s : State) (i : Nat) : CodeObj := mapGet {} s.codes i
def State.home (s : State) (x : Nat) : Home := mapGet {} s.mem.home x
def State.setHome (s : State) (x : Nat) (v : Home) : State :=
  { s with mem := { s.mem with home := mapSet {} s.mem.home x v } }
def State.die (s : State) (d : Nat) : DieSt := mapGet {} s.dies d

/-- The next free value of the model, taken by counting on. DESIGN CHOICE (log entry 3). -/
def State.tick (s : State) : State := { s with freeCtr := s.freeCtr + 1 }

/-! ### Registers of a slot (R39) -/

def Slot.rs (sl : Slot) (r : BitVec 5) : Word := if r = 0 then 0 else mapGet 0 sl.s r.toNat
def Slot.ws (sl : Slot) (r : BitVec 5) (v : Word) : Slot :=
  if r = 0 then sl else { sl with s := mapSet 0 sl.s r.toNat v }
def Slot.rd (sl : Slot) (r : Nat) : Word := mapGet 0 sl.d (r % 16)
def Slot.wd (sl : Slot) (r : Nat) (v : Word) : Slot := { sl with d := mapSet 0 sl.d (r % 16) v }
def Slot.ra (sl : Slot) (r : Nat) : Word := mapGet 0 sl.a (r % 16)
def Slot.wa (sl : Slot) (r : Nat) (v : Word) : Slot := { sl with a := mapSet 0 sl.a (r % 16) v }
def Slot.rp (sl : Slot) (r : Nat) : PredBits := mapGet 0 sl.p (r % 8)
def Slot.wp (sl : Slot) (r : Nat) (v : PredBits) : Slot := { sl with p := mapSet 0 sl.p (r % 8) v }
def Slot.lane (sl : Slot) (r : BitVec 5) (i : Nat) : Lane := mapGet 0 (mapGet [] sl.v r.toNat) i
/-- A vector register from its 1,024 lanes. -/
def laneRun (f : Nat → Lane) : List (Nat × Lane) := mapRun 0 0 ((List.range 1024).map f)
def Slot.wv (sl : Slot) (r : BitVec 5) (f : Nat → Lane) : Slot :=
  { sl with v := mapSet [] sl.v r.toNat (laneRun f) }

/-! ### Operand buffer and accumulator memory of a core (R48, R49) -/

/-- A byte of the operand buffer at a physical offset; 0 in a block that is not valid. -/
def Core.bufByte (c : Core) (x : Nat) : Byte :=
  if mapGet false c.bufValid (x / 4096) then mapGet 0 c.buf x else 0

/-- The blocks of size `n` that `len` units from `a` touch. -/
def blocksOf (n a len : Nat) : List Nat :=
  if len = 0 then [] else (List.range ((a + len - 1) / n - a / n + 1)).map (· + a / n)

/-- One block made valid; what it held before it was valid is gone. DEDUCED (log entry 9). -/
def Core.validateBuf (c : Core) (b : Nat) : Core :=
  if mapGet false c.bufValid b then c
  else { c with buf := mapClear c.buf (b * 4096) 4096, bufValid := mapSet false c.bufValid b true }

/-- Bytes written to the operand buffer at a physical offset. -/
def Core.bufPut (c : Core) (x : Nat) (bs : List Byte) : Core :=
  let c := (blocksOf 4096 x bs.length).foldl Core.validateBuf c
  { c with buf := mapPut 0 c.buf x bs }

def Core.accEntry (c : Core) (x : Nat) : Lane :=
  if mapGet false c.accValid (x / 1024) then mapGet 0 c.acc x else 0

/-- DEDUCED (log entry 9). -/
def Core.validateAcc (c : Core) (b : Nat) : Core :=
  if mapGet false c.accValid b then c
  else { c with acc := mapClear c.acc (b * 1024) 1024, accValid := mapSet false c.accValid b true }

def Core.accPut (c : Core) (x : Nat) (vs : List Lane) : Core :=
  let c := (blocksOf 1024 x vs.length).foldl Core.validateAcc c
  { c with acc := mapPut 0 c.acc x vs }

def Allot.bufOrg (al : Allot) : Nat := al.bufBase * 262144
def Allot.bufLen (al : Allot) : Nat := al.bufCount * 262144
def Allot.accOrg (al : Allot) : Nat := al.accBase * 16384
def Allot.accLen (al : Allot) : Nat := al.accCount * 16384

/-- The valid bits and contents of an allotment cleared (R48, R66). DEDUCED (log entry 9). -/
def Core.clearAllot (c : Core) (al : Allot) : Core :=
  { c with
    buf := mapClear c.buf al.bufOrg al.bufLen
    bufValid := mapClear c.bufValid (al.bufBase * 64) (al.bufCount * 64)
    acc := mapClear c.acc al.accOrg al.accLen
    accValid := mapClear c.accValid (al.accBase * 16) (al.accCount * 16) }

/-- A byte of a slot's allotment; what lies beyond the allotment reads 0 (R144, where it is reached). -/
def State.bufAt (s : State) (a : At) (off : Nat) : Byte :=
  let al := (s.at_ a).allot
  if off < al.bufLen then (s.core a.core).bufByte (al.bufOrg + off) else 0

/-- Bytes of a slot's allotment from an offset within it. -/
def State.bufBytes (s : State) (a : At) (off n : Nat) : List Byte := (List.range n).map (fun i => s.bufAt a (off + i))

/-- Bytes written into a slot's allotment; those beyond it are dropped (R144, where it is reached). -/
def State.bufWrite (s : State) (a : At) (off : Nat) (bs : List Byte) : State :=
  let al := (s.at_ a).allot
  s.setCore a.core ((s.core a.core).bufPut (al.bufOrg + off) (bs.take (al.bufLen - off)))

/-- An entry of a slot's accumulator allotment. -/
def State.accAt (s : State) (a : At) (off : Nat) : Lane :=
  let al := (s.at_ a).allot
  if off < al.accLen then (s.core a.core).accEntry (al.accOrg + off) else 0

def State.accEntries (s : State) (a : At) (off n : Nat) : List Lane := (List.range n).map (fun i => s.accAt a (off + i))

def State.accWrite (s : State) (a : At) (off : Nat) (vs : List Lane) : State :=
  let al := (s.at_ a).allot
  s.setCore a.core ((s.core a.core).accPut (al.accOrg + off) (vs.take (al.accLen - off)))

/-! ### Events (R451, R453) and job faults -/

/-- The journal with one record more; it holds the last 8,192 (R453). While the pair restarts the record waits (R442). -/
def Events.journalAdd (v : Events) (e : Ev) : Events :=
  if v.halted then { v with journalWait := v.journalWait ++ [e] }
  else if v.journal.length < 8192 then { v with journal := v.journal ++ [e] }
  else
    { v with
      journal := v.journal.drop 1 ++ [e]
      journalLost := match v.journal.head? with
        | some o => v.journalLost ++ [(o.boot, o.seq)]
        | none => v.journalLost }

/-- Records of the warden buffer that hold an event of lower severity (R453). -/
def earlyHeld (l : List EarlyEv) : Nat :=
  (l.filter (fun x => match x with | .held _ => true | _ => false)).length

/-- An event is detected (R451, R453): taken to the hub while it runs, else held by the warden. -/
def State.post (s : State) (e : Ev) : State :=
  let e := { e with time := s.time, boot := s.ev.bootCount % 65536, fn := (s.job e.ctx).fn }
  if s.hub.running then { s with ev := { s.ev with detected := s.ev.detected ++ [e] } }
  else if e.sev ≥ 2 then
    let j := { e with seq := 0xFFFFFFFF }
    let v := s.ev.journalAdd j
    { s with ev := { v with early := v.early ++ [.journaled j] } }
  else if earlyHeld s.ev.early < 256 then
    { s with ev := { s.ev with early := s.ev.early ++ [.held e] } }
  else { s with ev := { s.ev with early := s.ev.early ++ [.dropped], dropped := s.ev.dropped + 1 } }

/-- Ticks of the package timestamp in one second (R136). -/
def second : Nat := 1100000000

/-- An event whose rule limits it to one per second for the key; the others are not posted. -/
def State.postEachSecond (s : State) (key : Nat) (e : Ev) : State :=
  let last := mapGet 0 s.ev.lastPost key
  if last ≠ 0 && s.time + 1 < last + second then s
  else
    let s := s.post e
    { s with ev := { s.ev with lastPost := mapSet 0 s.ev.lastPost key (s.time + 1) } }

/-- The core and stage of the first slot of a context that its own command stopped. DEDUCED (log entry 85). -/
def State.faultPlace (s : State) (ctx : Nat) : Option (Nat × Nat) :=
  s.cores.findSome? (fun c => (c.2.slots.find? (fun k => k.2.faulted && decide (k.2.id.ctx = ctx))).map
    (fun k => (c.1, k.2.stage)))

/-- A job fault of a context (R393, step 1 waits for the teardown): the first fault's code and place stand. -/
def State.faultJob (s : State) (ctx code : Nat) : State :=
  let j := s.job ctx
  if ctx = 0 || !j.live || j.faulted || j.state ≥ 3 then s
  else
    let p := (s.faultPlace ctx).getD (0xFF, 0)
    s.setJob ctx { j with faulted := true, faultCode := code, faultCore := p.1, faultStage := p.2 }

/-- A slot stops issuing after a fault of its own command (R47, R138). -/
def State.stopSlot (s : State) (a : At) : State := s.setAt a { s.at_ a with faulted := true }

/-- An event of a core for the context in a slot. -/
def State.coreEvent (s : State) (a : At) (code sev detail : Nat) : State :=
  s.post { code := code, sev := sev, die := a.core / 24, cls := 0, index := a.core,
           ctx := (s.at_ a).id.ctx, detail := detail }

/-- An instruction fault (R138, R139): the event in the layout of R139, the slot stopped, the job faulted. -/
def State.instrFault (s : State) (a : At) (code major info : Nat) : State :=
  let sl := s.at_ a
  let detail := a.core * 2 ^ 56 + a.slot * 2 ^ 54 + major * 2 ^ 48 + info % 65536 * 2 ^ 32 + sl.pc % 2 ^ 32
  ((s.coreEvent a code 2 detail).stopSlot a).faultJob sl.id.ctx code

/-- A fault in the layout of R161 (R578). -/
def State.tileFault (s : State) (a : At) (code check limit excess : Nat) : State :=
  let detail := a.core * 2 ^ 56 + a.slot * 2 ^ 54 + check % 64 * 2 ^ 48 + min limit 0xFFFFFF * 2 ^ 24
    + min excess 0xFFFFFF
  ((s.coreEvent a code 2 detail).stopSlot a).faultJob (s.at_ a).id.ctx code

/-! ### Who accesses memory -/

/-- The agent of an access: its context, its polder, its die, and the class and index of its event records. -/
structure Who where
  ctx : Nat
  polder : Nat
  die : Nat
  cls : Nat
  index : Nat
  profile : Bool := false
  deriving DecidableEq, Repr

def State.whoAt (s : State) (a : At) : Who :=
  let id := (s.at_ a).id
  { ctx := id.ctx, polder := id.polder, die := a.core / 24, cls := 0, index := a.core, profile := id.profile }

/-- Why an access is not carried out. DEDUCED (log entry 124). -/
inductive AccFail where
  | unmapped (a : Nat)
  | regDenied (a : Nat)
  | notExported (g : Nat)
  | unreachable (g : Nat)
  | absent (die : Nat)
  | quarantined (a : Nat)
  | poisoned (a : Nat)
  | codeWrite (a : Nat)
  | poolEmpty (a : Nat)
  | later (why : HeldWhy)
  deriving DecidableEq, Repr

/-! ### Variants and dies (R1, R4, R5, R507) -/

def Variant.code : Variant → Nat
  | .tbx20 => 0
  | .tbx20c => 1
  | .tbx20l => 2
  | .tbx20d => 3

/-- A die is fitted on the variant (R1, R11, R12). -/
def Variant.fits (v : Variant) (d : Nat) : Bool :=
  if 0x08 ≤ d && d ≤ 0x0B then v != .tbx20c
  else if d = 0x0E || d = 0x0F then v != .tbx20l
  else if d = 0x10 || d = 0x11 then v != .tbx20d
  else d < 0x14

/-- A die is fitted and in service (R507). -/
def State.dieUp (s : State) (d : Nat) : Bool :=
  s.variant.fits d && !(s.die d).out && !(s.die d).resetting

/-! ### The address map (R18 to R21, R23) -/

/-- DEDUCED (log entry 67). -/
def stackEnd : Nat := 0x10000000000
def ddrBase : Nat := 0x20000000000
def ddrEnd : Nat := 0x40000000000
def hostBase : Nat := 0x100000000000
def hostEnd : Nat := 0x200000000000
def regBase : Nat := 0xF00000000000
def regEnd : Nat := 0x1000000000000
def extentBytes : Nat := 0x200000

/-- Base of the die-local part of the stack range (R23). -/
def State.stackSplit (s : State) : Nat := (1024 - 8 * s.hub.dielocal) * 2 ^ 30

/-- A name of the register space that a die holds (R20). -/
def regMapped (a : Nat) : Bool := (a - regBase) / 2 ^ 32 < 0x14

/-- The package that a global address names: none for a local address, else the remote package (R21). -/
def State.remoteOf (s : State) (g : Nat) : Option Nat :=
  let p := g / 2 ^ 52 % 4096
  if p = 0 then none
  else if s.hub.pkgAssigned && p = s.hub.pkgId then some 0
  else some p

/-! ### Homes (R292 to R295) -/

/-- XOR of `n` groups of `w` bits of a number. -/
def xorGroups (w : Nat) : Nat → Nat → Nat
  | 0, _ => 0
  | n + 1, x => (x % 2 ^ w) ^^^ xorGroups w n (x / 2 ^ w)

/-- The home address of a name: the slice and the offset within the extent (R294). -/
def State.homeAddr (s : State) (a : Nat) : Nat := (s.home (a / extentBytes)).slice * 65536 + a % extentBytes

/-- The stack that a stack home address selects (R26, R27, R294). -/
def State.stackOf (s : State) (home salt : Nat) : Nat :=
  if home < s.stackSplit then xorGroups 4 9 ((home / 4096) ^^^ salt)
  else
    let d := s.hub.dielocal * 2 ^ 30
    let off := home - s.stackSplit
    let n := off / d
    let a := off % d
    2 * n + (if (a.testBit 12) != ((a.testBit 21) != (a.testBit 30)) then 1 else 0)

/-- The DDR channel of a home address (R294). -/
def ddrChannel (home salt : Nat) : Nat := xorGroups 3 12 ((home / 4096 % 2 ^ 36) ^^^ salt)

/-- The die that serves a name, and the dike of its memory (R387): stacks, DDR or host. -/
def State.serveAt (s : State) (a : Nat) : Nat × Nat :=
  if hostBase ≤ a && a < hostEnd then (0x12, 0x34)
  else
    let h := s.home (a / extentBytes)
    if h.tier = 0 then let d := s.stackOf (s.homeAddr a) h.salt / 2; (d, d)
    else if h.tier = 1 then (0x10 + ddrChannel (s.homeAddr a) h.salt / 4, 0x08)
    else (0x12, 0x34)

/-! ### The causeway (R28, R29) -/

/-- Hops eastward from one compute die to another. -/
def eastHops (a b : Nat) : Nat := (b + 8 - a) % 8

def ringDist (a b : Nat) : Nat := min (eastHops a b) (eastHops b a)

/-- The compute dies to which a die is joined, with the port (2 L, 3 B) it is joined by (R28). -/
def joined (v : Variant) (d : Nat) : List (Nat × Nat) :=
  if d = 0x08 then [(2, 3)] else if d = 0x09 then [(3, 3)] else if d = 0x0A then [(5, 3)]
  else if d = 0x0B then [(6, 3)] else if d = 0x10 then [(1, 3)] else if d = 0x11 then [(4, 3)]
  else if d = 0x12 then [(0, 3), (7, 3)]
  else if 0x0C ≤ d && d ≤ 0x0F && v.fits d then [(2 * (d - 0x0C), 2), (2 * (d - 0x0C) + 1, 2)]
  else []

/-- Where traffic of a die enters the ring toward compute die `c`, and the ports it passes there (R29). -/
def entryOf (v : Variant) (d c : Nat) : Nat × List Nat :=
  match joined v d with
  | [] => (d % 8, [])
  | (n, p) :: rest =>
    let best := rest.foldl (fun b e => if ringDist e.1 c < ringDist b.1 c then e else b) (n, p)
    (best.1, [0x10 + 4 * best.1 + best.2])

/-- Ports that ring traffic leaves by, eastward (port 1) or westward (port 0). -/
def ringPorts (east : Bool) : Nat → Nat → List Nat
  | _, 0 => []
  | a, n + 1 =>
    if east then (0x10 + 4 * a + 1) :: ringPorts east ((a + 1) % 8) n
    else (0x10 + 4 * a) :: ringPorts east ((a + 7) % 8) n

/-- A ring hop is broken when the port at either end is retired (R30). -/
def State.hopDown (s : State) (i : Nat) : Bool :=
  let n := (i - 0x10) / 4
  let other := if i % 4 = 1 then 4 * ((n + 1) % 8) else 4 * ((n + 7) % 8) + 1
  mapGet false s.portsDown (i - 0x10) || mapGet false s.portsDown other

/-- The causeway ports that data passes from one die to another (R29, R30); `bit12` is bit [12] of its
address. -/
def State.route (s : State) (src dst : Nat) (bit12 : Bool) : List Nat :=
  if src = dst then []
  else
    let c := if dst < 8 then dst else (entryOf s.variant dst 0).1
    let (a, pa) := if src < 8 then (src, []) else entryOf s.variant src c
    let (b, pb) := if dst < 8 then (dst, []) else entryOf s.variant dst a
    let e := eastHops a b
    let east := if e = 4 then !bit12 else e < 4
    let way (d : Bool) := ringPorts d a (if d then e else 8 - e)
    let ring := if e = 0 then [] else if (way east).any s.hopDown then way (!east) else way east
    pa ++ ring ++ pb

/-! ### Dikes (R386 to R388) -/

/-- Counts added up by dike. -/
def addUse (l : List (Nat × Nat)) (i n : Nat) : List (Nat × Nat) := mapSet 0 l i (mapGet 0 l i + n)

/-- Bytes of an access that each dike counts, granule by granule (R387). -/
def State.usesOf (s : State) (who : Who) (write : Bool) (a len : Nat) : List (Nat × Nat) :=
  (blocksOf 4096 a len).foldl (fun l g =>
    let lo := max a (g * 4096)
    let hi := min (a + len) (g * 4096 + 4096)
    let (die, d) := s.serveAt lo
    let ports := if write then s.route who.die die (lo.testBit 12) else s.route die who.die (lo.testBit 12)
    ports.foldl (fun l p => addUse l p (hi - lo)) (addUse l d (hi - lo))) []

/-- A dike lets a request through: it does not regulate, or it holds tokens and its rate is not 0. -/
def Dike.open_ (d : Dike) : Bool := d.rate = 0xFFFFFF || (d.rate ≠ 0 && d.tokens > 0)

/-- The counts taken from the dikes. -/
def State.charge (s : State) (polder : Nat) (uses : List (Nat × Nat)) : State :=
  uses.foldl (fun s u =>
    let d := s.dike polder u.1
    if d.rate = 0xFFFFFF then s else s.setDike polder u.1 { d with tokens := d.tokens - u.2 }) s

/-- The first dike that holds a request back (R386); context 0 passes no dike. -/
def State.shut (s : State) (who : Who) (uses : List (Nat × Nat)) : Option Nat :=
  if who.ctx = 0 then none
  else ((uses.filter (fun u => !(s.dike who.polder u.1).open_)).head?).map (·.1)

/-- An admitted request's counts taken from the dikes; context 0 passes none. -/
def State.spend (s : State) (who : Who) (uses : List (Nat × Nat)) : State :=
  if who.ctx = 0 then s else s.charge who.polder uses

/-! ### Access to device memory (R19 to R21, R142, R293, R437) -/

/-- A code object is loaded and touches the extent (R142). -/
def CodeObj.touches (c : CodeObj) (x : Nat) : Bool :=
  let last := c.addr + 256 + ceilDiv c.codeBytes 256 * 256 + c.constBytes - 1
  c.addr / extentBytes ≤ x && x ≤ last / extentBytes

def State.readOnly (s : State) (x : Nat) : Bool := s.codes.any (fun c => c.2.touches x)

/-- Extents of an object. -/
def Obj.span (o : Obj) : List Nat := (List.range o.extents).map (· + o.nameBase / extentBytes)

/-- A loaded code object lies in it: the object is pinned while it does (R142). DEDUCED (log entry 59). -/
def State.objHoldsCode (s : State) (o : Obj) : Bool := o.span.any s.readOnly

/-- The object that an extent belongs to. -/
def State.objOf (s : State) (x : Nat) : Obj := s.obj (s.home x).object

/-- Slices held as homes or move targets in a tier, or not yet back in the free lists (R297). -/
def State.slicesTaken (s : State) (tier : Nat) : List (Nat × Nat) :=
  s.mem.home.flatMap (fun e =>
    let h := e.2
    (if (h.state = 2 || h.state = 3 || (h.state = 4 && h.slicesM1 < 32)) && h.tier = tier then
      [(h.slice, h.slicesM1 + 1)] else [])
    ++ (if h.state = 3 && h.destTier = tier then [(h.destSlice, h.destSlicesM1 + 1)] else []))
    ++ s.mem.orphans.filterMap (fun o => if o.1 = tier then some o.2 else none)

/-- An address of the tier window inside the region that the runtime reserved for the context, where the DDR tier
is emulated (R145, R485). -/
def State.emulatedTier (s : State) (who : Who) (a : Nat) : Bool :=
  s.variant = .tbx20d && who.profile && decide (a - ddrBase < (s.job who.ctx).emuLen)

/-- The check of one extent of an access, or of the part of another range that it touches. Extents that the loss of a
DIMM left in quarantine fail as such, though the tier has no capacity any more (R557). DEDUCED (log entry 124). -/
def State.checkAt (s : State) (who : Who) (write : Bool) (a : Nat) : Option AccFail :=
  if hostBase ≤ a && a < hostEnd then
    if !s.host.cxlMode then some (.unmapped a) else if s.host.speed = 0 then some (.later (.hostLink a)) else none
  else if regBase ≤ a && a < regEnd then
    if !regMapped a then some (.unmapped a) else if who.ctx = 0 then none else some (.regDenied a)
  else if ddrBase ≤ a && a < ddrEnd && s.variant = .tbx20d then
    if s.emulatedTier who a then none
    else if who.profile then some (.unmapped a) else some (.absent 0x10)
  else if a < stackEnd || (ddrBase ≤ a && a < ddrBase + s.ddrBytes)
      || (ddrBase ≤ a && a < ddrEnd && decide (s.power.fuses ≠ []) && decide ((s.home (a / extentBytes)).state = 4)) then
    let x := a / extentBytes
    let h := s.home x
    if h.state = 0 then some (.unmapped a)
    else if h.state = 4 then some (.quarantined a)
    else if write && s.readOnly x then some (.codeWrite a)
    else if h.tier = 2 && s.host.speed = 0 then some (.later (.hostLink a))
    else none
  else some (.unmapped a)

/-- The dies that serve a range: one that is out of service is absent, and one in reset makes the access wait (R507,
R549). DEDUCED (log entry 125). -/
def State.dieFail (s : State) (a len : Nat) : Option AccFail :=
  let dies := if a ≥ hostBase then [] else ((blocksOf 4096 a len).map (fun g => (s.serveAt (max a (g * 4096))).1)).eraseDups
  match dies.find? (fun d => (s.die d).out) with
  | some d => some (.absent d)
  | none => (dies.find? (fun d => (s.die d).resetting)).map (fun d => .later (.dieResetting d 0))

/-- A read touches poisoned data: the first poisoned granule (R437). -/
def State.poisonIn (s : State) (a len : Nat) : Option Nat :=
  (blocksOf 64 a len).find? (fun g => mapGet false s.mem.poison g)

/-- The check of a whole access: each extent in address order, then poison for a read. DEDUCED (log entry 124). -/
def State.checkRange (s : State) (who : Who) (write : Bool) (a len : Nat) : Option AccFail :=
  match (blocksOf extentBytes a len).filterMap (fun x => s.checkAt who write (max a (x * extentBytes))) with
  | f :: _ => some f
  | [] =>
    match s.dieFail a len with
    | some f => some f
    | none =>
      if write then none
      else match s.poisonIn a len with
        | some g => some (.poisoned (max a (g * 64)))
        | none => none

/-- The host physical address of an offset in the host pool, whose ranges follow one another (R479).
DESIGN CHOICE (log entry 68). -/
def poolAddr : List (Nat × Nat) → Nat → Nat
  | [], x => x
  | r :: rs, x => if x < r.2 then r.1 + x else poolAddr rs (x - r.2)

/-- Where the model keeps a byte of host memory: below 16 TiB it is the byte that the host range shows (R18, R478).
DESIGN CHOICE (log entry 54). -/
def hostKey (a : Nat) : Nat := if a < 2 ^ 44 then hostBase + a else 2 ^ 52 + a

/-- The host physical address at which the host-tier home of an extent begins (R479). -/
def State.hostFrame (s : State) (x : Nat) : Nat := poolAddr s.host.pool ((s.home x).slice * 65536)

/-- The key under which a byte of device memory is kept: its name, or for an extent with a host-tier home the place in
host memory where it lies (R287, R478). -/
def State.keyOf (s : State) (a : Nat) : Nat :=
  let h := s.home (a / extentBytes)
  if a < hostBase && decide (h.tier = 2) && decide (h.state ≠ 0)
  then hostKey (s.hostFrame (a / extentBytes)) + a % extentBytes else a

/-- A byte of device memory. -/
def State.memByte (s : State) (a : Nat) : Byte := mapGet 0 s.mem.bytes (s.keyOf a)

/-- Bytes of device memory. DESIGN CHOICE (log entry 8). -/
def State.memBytes (s : State) (a len : Nat) : List Byte := (List.range len).map (fun i => s.memByte (a + i))

/-- Granules of 64 bytes that a write of `len` bytes at `a` covers whole (R437). -/
def wholeGranules (a len : Nat) : Nat × Nat :=
  let lo := (a + 63) / 64
  (lo, (a + len) / 64 - lo)

/-- Bytes of one extent stored, the poison of whole granules cleared, and afterglow extents marked as written (R312, R437). -/
def State.store (s : State) (ctx a : Nat) (bs : List Byte) : State :=
  let g := wholeGranules a bs.length
  let m := s.mem
  let glow := (blocksOf extentBytes a bs.length).filter (fun x => (s.objOf x).glowMode ≠ 0 && (s.home x).state ≠ 0)
  let old := glow.foldl (fun l x =>
    (List.range bs.length).foldl (fun l i =>
      if (a + i) / extentBytes = x && mapGet 0 l (a + i) = 0 then
        mapSet 0 l (a + i) (1 + (mapGet 0 m.bytes (a + i)).toNat) else l) l) m.undo
  { s with mem := { m with
      undo := old
      bytes := mapPut 0 m.bytes (s.keyOf a) bs
      poison := mapClear m.poison g.1 g.2
      glow := glow.foldl (fun l x => mapSet 0 l x (ctx + 1)) m.glow } }

/-- A write in pieces by extent: a piece to a moving extent is held until the flip (R300), the others are
stored. -/
def State.write (s : State) (ctx a : Nat) (bs : List Byte) : State :=
  (blocksOf extentBytes a bs.length).foldl (fun s x =>
    let lo := max a (x * extentBytes)
    let piece := (bs.drop (lo - a)).take ((x + 1) * extentBytes - lo)
    if lo < hostBase && (s.home x).state = 3 then
      { s with mem := { s.mem with held := s.mem.held ++ [{ extent := x, ctx := ctx, addr := lo, bytes := piece }] } }
    else s.store ctx lo piece) s

/-- Data that waits at a moving extent and that a read would pass (R127, R300). -/
def State.heldOver (s : State) (a len : Nat) : Bool :=
  s.mem.held.any (fun h => decide (h.addr < a + len) && decide (a < h.addr + h.bytes.length))

/-- The event and job fault of a failed access (R578, R322, R437, R404): the code, the severity and the
detail. -/
def AccFail.event (ctx : Nat) : AccFail → Nat × Nat
  | .unmapped a => (0x0301, a % 2 ^ 52)
  | .regDenied a => (0x0302, a % 2 ^ 52)
  | .notExported g => (0x0303, g % 2 ^ 64)
  | .unreachable g => (0x070B, ctx % 4096 * 2 ^ 52 + g / 2 ^ 52 % 4096)
  | .absent d => (0x0104, d)
  | .quarantined a => (0x0322, ctx % 4096 * 2 ^ 52 + a / extentBytes * extentBytes)
  | .poisoned a => (0x080B, a % 2 ^ 52)
  | .codeWrite _ => (0x010C, 0)
  | .poolEmpty a => (0x0323, ctx % 4096 * 2 ^ 52 + a / extentBytes * extentBytes)
  | .later _ => (0, 0)

/-- A counter that a read clears goes up (R511, R512). -/
def State.bump (s : State) (off bits n : Nat) : State :=
  { s with rc := mapSet 0 s.rc off (satAdd bits (mapGet 0 s.rc off) n) }

/-- Offsets in BAR0 of a register of media die `k`, and of tier die `k`. -/
def mediaReg (k off : Nat) : Nat := 0x300000 + k * 0x10000 + off
def tierReg (k off : Nat) : Nat := 0x400000 + k * 0x10000 + off

/-! ### Issue of an instruction (R50, R60, R115, R138) -/

/-- What the issue stage decides before an instruction acts. -/
inductive Gate where
  | go
  | idle
  | held (why : HeldWhy)
  | outOfCode
  deriving DecidableEq, Repr

/-- The engine sub-queues of a slot (R53). -/
def Slot.queueOf (sl : Slot) : Engine → List Queued
  | .vector => sl.qVec
  | .sfu => sl.qSfu
  | .tensor => sl.qTa
  | .conv => sl.qCe
  | .dma => sl.qDma

def Slot.setQueue (sl : Slot) (e : Engine) (q : List Queued) : Slot :=
  match e with
  | .vector => { sl with qVec := q }
  | .sfu => { sl with qSfu := q }
  | .tensor => { sl with qTa := q }
  | .conv => { sl with qCe := q }
  | .dma => { sl with qDma := q }

def Slot.inFlight (sl : Slot) : List Queued := sl.qVec ++ sl.qSfu ++ sl.qTa ++ sl.qCe ++ sl.qDma

/-- Commands of the slot are still in flight, or a completion post of one is due. -/
def Slot.busy (sl : Slot) : Bool := !sl.inFlight.isEmpty || !sl.posts.isEmpty

/-- Depth of a sub-queue (R53). -/
def engineDepth : Engine → Nat
  | .vector => 16
  | .sfu => 8
  | .tensor => 4
  | .conv => 4
  | .dma => 16

/-- The issue stage looks at an instruction of `len` bytes: the slot is resident and runs on a die that is not halted
over JTAG (R532), waits for nothing, its words lie in the code section (R115), and their lines are in the instruction
cache (R60). DESIGN CHOICE (log entry 23). -/
def State.gate (s : State) (a : At) (len : Nat) : Gate :=
  let sl := s.at_ a
  if a.core ≥ 192 || a.slot ≥ 4 || !sl.id.resident || sl.faulted || mapGet false s.sec.halted (a.core / 24) then .idle
  else if sl.id.state ≠ 1 then .held .stateNotRunning
  else if sl.wait ≠ none then .held .waiting
  else if sl.code = 0 then .go
  else if sl.pc + len > (s.code sl.code).codeBytes then .outOfCode
  else if (s.core a.core).icache.contains (sl.code, sl.pc / 256)
      && (s.core a.core).icache.contains (sl.code, (sl.pc + len - 8) / 256) then .go
  else .held .icacheMiss

/-- An instruction that is turned away keeps its place: only the reason is noted. DESIGN CHOICE (log entry 23). -/
def State.hold (s : State) (a : At) (why : HeldWhy) : State :=
  s.setAt a { s.at_ a with held := some why }

/-- An instruction has issued: it is counted and the pc moves past its words (R137). -/
def State.advance (s : State) (a : At) (len : Nat) : State :=
  let sl := s.at_ a
  s.setAt a { sl with pc := sl.pc + len, held := none,
                      act := { sl.act with issued := satAdd 64 sl.act.issued 1 } }

/-- The issue of an instruction: `body` acts where the issue stage lets it through. -/
def State.issue (s : State) (a : At) (major len : Nat) (body : State → State) : State :=
  match s.gate a len with
  | .idle => s
  | .held w => s.hold a w
  | .outOfCode => s.instrFault a 0x010B major 0
  | .go => body s

/-- Why an instruction did not complete at issue: a fault of R139 with its info, one of R161 with check, limit and
excess, one of R286 or of R423, a failed access, or a hold. DEDUCED (log entry 124). -/
inductive Stop where
  | instr (code info : Nat)
  | tile (code check limit excess : Nat)
  | coll (code group seq : Nat)
  | page (code set page value : Nat)
  | access (f : AccFail)
  | wait (why : HeldWhy)
  | dike (polder i : Nat)
  deriving DecidableEq, Repr

/-- What a failed access of a core does: the event, the slot stopped and the job faulted; a hold keeps the
instruction in its place. -/
def State.accessFault (s : State) (a : At) (major : Nat) (f : AccFail) : State :=
  match f with
  | .later (.dieResetting d _) => s.hold a (.dieResetting d major)
  | .later w => s.hold a w
  | .absent d => s.instrFault a 0x0104 major d
  | .codeWrite _ => s.instrFault a 0x010C major 0
  | f =>
    let (code, detail) := f.event (s.at_ a).id.ctx
    ((s.coreEvent a code 2 detail).stopSlot a).faultJob (s.at_ a).id.ctx code

/-- The detail of the attention and page events (R286). -/
def pageDetail (core set page value : Nat) : Nat :=
  core % 256 * 2 ^ 56 + set % 256 * 2 ^ 48 + page % 2 ^ 24 * 2 ^ 24 + value % 2 ^ 24

/-- A fault of an attention or page command (R286). -/
def State.pageFault (s : State) (a : At) (code set page value : Nat) : State :=
  ((s.coreEvent a code 2 (pageDetail a.core set page value)).stopSlot a).faultJob (s.at_ a).id.ctx code

/-- The detail of the collective and remote events (R423). -/
def collDetail (ctx group low : Nat) : Nat := ctx % 4096 * 2 ^ 52 + group % 1024 * 2 ^ 42 + low % 2 ^ 32

/-- A fault of a collective command (R423). -/
def State.collFault (s : State) (a : At) (code group seq : Nat) : State :=
  let ctx := (s.at_ a).id.ctx
  ((s.coreEvent a code 2 (collDetail ctx group seq)).stopSlot a).faultJob ctx code

/-- The consequence of a stop at issue. -/
def State.stopAt (s : State) (a : At) (major : Nat) : Stop → State
  | .instr code info => s.instrFault a code major info
  | .tile code check limit excess => s.tileFault a code check limit excess
  | .page code set page value => s.pageFault a code set page value
  | .coll code group seq => s.collFault a code group seq
  | .access f => s.accessFault a major f
  | .wait w => s.hold a w
  | .dike p i => (s.setDike p i { s.dike p i with holding := true }).hold a .dike

/-- An instruction that either stops or takes its effect and advances. -/
def State.run (s : State) (a : At) (major len : Nat) (chk : State → Option Stop) (eff : State → State) : State :=
  s.issue a major len (fun s =>
    match chk s with
    | some x => s.stopAt a major x
    | none => (eff s).advance a len)

/-! ### Device-memory accesses of a core (R19 to R21, R113, R124, R127) -/

def State.link (s : State) (j : Nat) : Link := mapGet {} s.levee.links j
def State.setLink (s : State) (j : Nat) (v : Link) : State :=
  { s with levee := { s.levee with links := mapSet {} s.levee.links j v } }
def State.routeTo (s : State) (p : Nat) : Route := mapGet {} s.levee.routes p

/-- Up links of a link mask (R404). -/
def State.upLinks (s : State) (mask : Nat) : List Nat :=
  (List.range 64).filter (fun j => mask.testBit j && decide ((s.link j).state = 4))

/-- The links of a route for a context's traffic: in the compatibility profile on TBX-20L, traffic of Ln above L31 is
carried on L(n − 32) (R145). DEDUCED (log entry 50). -/
def State.routeMask (s : State) (p ctx : Nat) : Nat :=
  let m := (s.routeTo p).mask
  if s.variant = .tbx20l && (s.job ctx).profile then m % 2 ^ 32 ||| m / 2 ^ 32 else m

/-- A packet of a context can leave for a package: its entry is valid and names an up link (R404). -/
def State.reaches (s : State) (p ctx : Nat) : Bool :=
  (s.routeTo p).valid && !(s.upLinks (s.routeMask p ctx)).isEmpty

/-- The link that a flow takes (R404); it is asked for a destination that is reached. DESIGN CHOICE (log entry 12). -/
def State.flowLink (s : State) (src dest ctx : Nat) : Nat :=
  let l := s.upLinks (s.routeMask dest ctx)
  l.getD (Config.flowHash src dest ctx % l.length) 0

/-- Bytes of an access to another package that each dike counts: the causeway between the requester and the link
die, and what a write sends on the die's links (R387). -/
def State.remoteUses (s : State) (who : Who) (write : Bool) (g len : Nat) : List (Nat × Nat) :=
  let l := s.flowLink s.hub.pkgId (g / 2 ^ 52 % 4096) who.ctx
  let die := 0x0C + l / 16
  let ports := if write then s.route who.die die (g.testBit 12) else s.route die who.die (g.testBit 12)
  ports.foldl (fun u p => addUse u p len) (if write then [(0x30 + l / 16, len)] else [])

/-- A route that names only links above L31, on TBX-20L, for traffic of the native profile (R5). -/
def State.routeAbsent (s : State) (p ctx : Nat) : Bool :=
  let r := s.routeTo p
  s.variant = .tbx20l && !(s.job ctx).profile && r.valid && decide (r.mask % 2 ^ 32 = 0) && decide (r.mask ≠ 0)

/-- The check of an access to another package before it is sent (R5, R21, R402, R404): the package takes part in
levee traffic once it holds an ID, and its destination must be reachable. -/
def State.remoteStop (s : State) (ctx g : Nat) : Option Stop :=
  match s.remoteOf g with
  | none => none
  | some p =>
    if s.hub.pkgAssigned && s.routeAbsent p ctx then some (.access (.absent 0x0E))
    else if s.hub.pkgAssigned && s.reaches p ctx then none
    else some (.access (.unreachable g))

/-- The stop of a device-memory access at a global address, if any: the remote check, the local checks in
address order, data held at a moving extent, and the dikes it passes. -/
def State.devStop (s : State) (who : Who) (write : Bool) (g len : Nat) : Option Stop :=
  match s.remoteOf g with
  | some _ =>
    match s.remoteStop who.ctx g with
    | some x => some x
    | none => (s.shut who (s.remoteUses who write g len)).map (fun i => .dike who.polder i)
  | none =>
    let a := g % 2 ^ 52
    match s.checkRange who write a len with
    | some f => some (.access f)
    | none =>
      if !write && s.heldOver a len then some (.wait .movingExtent)
      else (s.shut who (s.usesOf who write a len)).map (fun i => .dike who.polder i)

/-! ### The coherent cache of host memory (R477, R478) -/

/-- A line enters the cache, or takes ownership there; a full cache gives up one line, which one is free. States: 1
shared, 2 exclusive, 3 modified. DESIGN CHOICE (log entry 68). -/
def State.fillLine (s : State) (write : Bool) (line : Nat) : State :=
  let l := s.host.lines
  let old := mapGet 0 l line
  let l := if old = 0 && l.length ≥ 65536 then l.eraseIdx (Config.freeNat s.freeCtr % 65536) else l
  let s := if old = 0 && s.host.lines.length ≥ 65536 then { s with freeCtr := s.freeCtr + 1 } else s
  { s with host := { s.host with lines := mapSet 0 l line (if write then 3 else max old 1) } }

/-- The lines of a host physical range enter the cache. -/
def State.fillHost (s : State) (write : Bool) (a len : Nat) : State :=
  (blocksOf 64 a len).foldl (fun s n => s.fillLine write n) s

/-- An access fills the cache where it reaches a host-tier home, or the host range for a context of PF0 (R477).
DESIGN CHOICE (log entry 68). -/
def State.cacheFill (s : State) (ctx : Nat) (write : Bool) (a len : Nat) : State :=
  if hostBase ≤ a && a < hostEnd then
    if (s.job ctx).fn = 0 then s.fillHost write (a - hostBase) len else s
  else if a < hostBase then
    (blocksOf extentBytes a len).foldl (fun s x =>
      let lo := max a (x * extentBytes)
      let hi := min (a + len) ((x + 1) * extentBytes)
      if (s.home x).tier = 2 && (s.home x).state ≠ 0 then
        s.fillHost write (s.hostFrame x + lo % extentBytes) (hi - lo)
      else s) s
  else s

/-- The tokens of an access taken (R386); a request to another package is noted until it is overtaken (R404). -/
def State.devSpend (s : State) (who : Who) (write : Bool) (g len : Nat) : State :=
  match s.remoteOf g with
  | some p =>
    let s := s.spend who (s.remoteUses who write g len)
    let r : RemoteReq := { live := true, dest := p, die := who.die, cls := who.cls, index := who.index }
    { s with levee := { s.levee with requests := mapSet {} s.levee.requests who.ctx r } }
  | none => (s.spend who (s.usesOf who write (g % 2 ^ 52) len)).cacheFill who.ctx write (g % 2 ^ 52) len

/-! ### Slots placed and freed (R40 to R44, R48) -/

/-- A slot is freed (R40, R136): its counters go to the job's record (R97), its allotment out of force, its queues and
claims released; the control words stay as written. DEDUCED (log entry 85). -/
def State.freeSlot (s : State) (c k : Nat) : State :=
  let sl := s.slot c k
  let j := s.job sl.id.ctx
  let s := if j.live then s.setJob sl.id.ctx { j with stats := j.stats.add sl.cnt } else s
  let co := (s.core c).clearAllot sl.allot
  s.setCore c { co.setSlot k
    { id := { profile := sl.id.profile, polder := sl.id.polder, ctx := sl.id.ctx, allotRefused := sl.id.allotRefused },
      allot := { sl.allot with valid := false }, num := sl.num, sfu := sl.sfu, attn := sl.attn }
    with claims := co.claims.filter (fun x => decide (x / 8 ≠ k)) }

/-- The device address of a code object's constant section (R140). -/
def CodeObj.constAt (c : CodeObj) : Nat := c.addr + 256 + ceilDiv c.codeBytes 256 * 256

/-- The registers of a task that starts at an entry (R42, R140). DEDUCED (log entry 85). -/
def State.fresh (s : State) (sl : Slot) (st : TaskStart) : Slot :=
  let c := s.code st.code
  { id := sl.id, allot := sl.allot, num := sl.num, sfu := sl.sfu, attn := sl.attn,
    s := if st.code = 0 then [] else mapSet 0 [] 1 (BitVec.ofNat 64 c.constAt),
    pc := (c.entries.getD st.entry (0, 0, 0)).1, code := st.code, stage := st.stage, task := st.task }

/-- Two runs of granules meet. -/
def runsMeet (a n b m : Nat) : Bool := decide (a < b + m) && decide (b < a + n)

/-- A write of CORE_CTX_ALLOT is refused (R44). -/
def State.allotRefused (s : State) (core slot : Nat) (al : Allot) : Bool :=
  (s.slot core slot).id.resident
    || (al.valid && (decide (al.bufCount = 0) || decide (al.bufBase + al.bufCount > 48)
      || decide (al.accBase + al.accCount > 32)
      || (List.range 4).any (fun k =>
        let o := (s.slot core k).allot
        decide (k ≠ slot) && o.valid && (runsMeet al.bufBase al.bufCount o.bufBase o.bufCount
          || runsMeet al.accBase al.accCount o.accBase o.accCount))))

/-- An allotment made: its valid bits are clear (R48). -/
def State.setAllot (s : State) (core slot : Nat) (al : Allot) : State :=
  let sl := s.slot core slot
  let c := if al.valid then (s.core core).clearAllot al else s.core core
  s.setCore core (c.setSlot slot { sl with allot := al })

/-- A write of CORE_CTX_ID: a context is placed or freed; the values fixed while it is resident do not change (R40 to
R42). -/
def State.writeCtxId (s : State) (core slot w : Nat) (start : TaskStart) : State :=
  let sl := s.slot core slot
  let id := { sl.id with allotRefused := sl.id.allotRefused && !w.testBit 27 }
  if sl.id.resident then
    let s := s.setSlot core slot { sl with id := id }
    if w.testBit 31 then s else s.freeSlot core slot
  else
    let id := { id with resident := w.testBit 31, state := if w.testBit 31 then 1 else 0, profile := w.testBit 26,
                        polder := fieldOf w 16 4, ctx := fieldOf w 0 12 }
    let sl := { sl with id := id }
    s.setSlot core slot (if w.testBit 31 then s.fresh sl start else sl)

/-- A write of CORE_CTX_ALLOT (R43, R44). -/
def State.writeAllot (s : State) (core slot w : Nat) : State :=
  let al := Allot.ofWord w
  if s.allotRefused core slot al then
    let sl := s.slot core slot
    s.setSlot core slot { sl with id := { sl.id with allotRefused := true } }
  else s.setAllot core slot al

/-! ### The on-package register space (R20, R40, R517) -/

/-- Generation of the active bank. -/
def SfuTables.gen (t : SfuTables) : Nat := if t.activeBank then t.gen1 else t.gen0

/-- Issued commands of a core that hold the inactive bank (R190, R193): row and attention commands outside reference mode. -/
def Core.heldInactive (c : Core) : Nat :=
  (c.slots.map (fun e => (e.2.inFlight.filter (fun q => match q.flight with
    | .row r => !r.ref && r.bank != c.tables.activeBank
    | .attn r => !r.ref && r.bank != c.tables.activeBank
    | _ => false)).length)).sum

/-- CORE_SFU_TBL (R193). -/
def Core.tblWord (c : Core) : Nat :=
  bit c.tables.reloadBusy 31 + bit c.tables.activeBank 30 + min c.heldInactive 255 * 65536 + c.tables.gen % 65536

/-- A lantern is restarting (R440). -/
def State.lanternDown (s : State) (n : Nat) : Bool := mapGet false s.dep.down n

/-- The lanterns of a die, lowest first (R12). -/
def lanternsOf (d : Nat) : List Nat :=
  if d < 8 then [2 * d, 2 * d + 1]
  else if d < 0x0C then [16 + 2 * (d - 8), 17 + 2 * (d - 8)]
  else if d < 0x10 then [24 + (d - 0x0C)]
  else if d < 0x12 then [28 + (d - 0x10)]
  else if d = 0x12 then [30, 31, 32, 33, 34, 35, 36, 37]
  else if d = 0x13 then [38, 39]
  else []

/-- A unit of a die passed its last test; the numbers are those of the state (R448). -/
def State.unitOk (s : State) (u : Nat) : Bool := !mapGet false s.dep.unitsOut u

/-- Units of a die out of use (R507). -/
def State.unitsOutOf (s : State) (d : Nat) : Nat :=
  if d < 8 then ((List.range 24).filter (fun i => (s.core (24 * d + i)).health.fenced)).length
  else if d < 0x0C then ((List.range 2).filter (fun e => !s.unitOk (64 + 2 * (d - 8) + e))).length
  else if d < 0x10 then ((List.range 16).filter (fun j =>
    decide ((mapGet {} s.levee.links (16 * (d - 0x0C) + j) : Link).state = 6))).length
  else if d < 0x12 then ((List.range 4).filter (fun i => !s.unitOk (80 + 4 * (d - 0x10) + i))).length
  else 0

/-- HUB_DIE_STATUS_n and DIE_STATUS (R507, R517). -/
def State.dieStatus (s : State) (d : Nat) : Nat :=
  if !s.variant.fits d then 0
  else
    let v := s.die d
    let state := if v.resetting then 3 else if v.out then 2 else 1
    let ls := lanternsOf d
    let up (i : Nat) : Bool := decide (state = 1) && !s.lanternDown (ls.getD i 0) && !(decide (d = 0x13) && s.ev.halted)
    let lanterns := ((List.range ls.length).map (fun i => bit (up i) i)).sum
    state * 2 ^ 30 + lanterns * 65536 + min (s.unitsOutOf d) 255 * 256 + min v.resets 255

/-- The kind of a die in DIE_IDENT (R517). -/
def dieKind (d : Nat) : Nat :=
  if d < 8 then 0 else if d < 0x0C then 1 else if d < 0x10 then 2 else if d < 0x12 then 3 else if d = 0x12 then 4 else 5

/-- The core, and the slot and register, that an offset in a compute die's space names (R40): register 0 CORE_CTX_ID, 1
CORE_CTX_ALLOT, 2 CORE_CTX_NUM, 3 CORE_CTX_SFU, 4 CORE_CTX_ATTN, 5 CORE_SFU_TBL. -/
def coreReg (d off : Nat) : Option (Nat × Nat × Nat) :=
  let i := (off - 0x100000) / 65536
  let o := off % 65536
  if d ≥ 8 || off < 0x100000 || i ≥ 24 then none
  else if o = 0x200 then some (24 * d + i, 0, 5)
  else if 0x100 ≤ o && o < 0x180 && o % 0x20 ≤ 0x10 then some (24 * d + i, (o - 0x100) / 0x20, o % 0x20 / 4)
  else none

/-- A register of the on-package space at a word offset of a die (R517); any other offset reads 0.
DEDUCED (log entry 98). -/
def State.spaceWord (s : State) (d off : Nat) : Nat :=
  if !s.variant.fits d then 0
  else if off = 0 then dieKind d * 2 ^ 29 + Config.stepping % 256 * 256 + d
  else if off = 4 then s.dieStatus d
  else match coreReg d off with
    | some (c, k, 0) => (s.slot c k).id.word
    | some (c, k, 1) => (s.slot c k).allot.word
    | some (c, k, 2) => (s.slot c k).num.word
    | some (c, k, 3) => (s.slot c k).sfu.word
    | some (c, k, 4) => (s.slot c k).attn.word
    | some (c, _, _) => (s.core c).tblWord
    | none => 0

/-- A register of the on-package space written (R41, R517): CORE_CTX_NUM, CORE_CTX_SFU and CORE_CTX_ATTN only while
the slot is not resident. DEDUCED (log entry 98). -/
def State.spaceWrite (s : State) (d off w : Nat) : State :=
  match coreReg d off with
  | none => s
  | some (c, k, r) =>
    let sl := s.slot c k
    if r = 0 then s.writeCtxId c k w { code := 0, entry := 0, stage := 0, task := 0 }
    else if r = 1 then s.writeAllot c k w
    else if sl.id.resident then s
    else if r = 2 then s.setSlot c k { sl with num := NumCtl.ofWord w }
    else if r = 3 then s.setSlot c k { sl with sfu := { sl.sfu with refMode := w.testBit 31 } }
    else if r = 4 then s.setSlot c k { sl with attn := AttnCtl.ofWord w }
    else s

/-- Bytes of the register space. -/
def State.spaceBytes (s : State) (a len : Nat) : List Byte :=
  (List.range len).map (fun i =>
    let x := a + i - regBase
    BitVec.ofNat 8 (s.spaceWord (x / 2 ^ 32) (x % 2 ^ 32 / 4 * 4) / 2 ^ (8 * (x % 4))))

/-- Bytes written to the register space: each register that they cover whole. -/
def State.spacePut (s : State) (a : Nat) (bs : List Byte) : State :=
  (List.range (bs.length / 4 + 1)).foldl (fun s i =>
    let x := (a + 3) / 4 * 4 + 4 * i
    if x + 4 ≤ a + bs.length then
      s.spaceWrite ((x - regBase) / 2 ^ 32) ((x - regBase) % 2 ^ 32) (recField bs (x - a) 4)
    else s) s

/-- Bytes read at a global address: local memory, or what another package answers, a free value. -/
def State.devRead (s : State) (g len : Nat) : List Byte :=
  match s.remoteOf g with
  | some _ => (List.range len).map (fun i => Config.freeByte (s.freeCtr + i))
  | none =>
    let a := g % 2 ^ 52
    if regBase ≤ a && a < regEnd then s.spaceBytes a len else s.memBytes a len

/-- Bytes written at a global address; those sent to another package leave this one. -/
def State.devWrite (s : State) (ctx g : Nat) (bs : List Byte) : State :=
  match s.remoteOf g with
  | some _ => s
  | none =>
    let a := g % 2 ^ 52
    if regBase ≤ a && a < regEnd then s.spacePut a bs else s.write ctx a bs

/-- The free values that a read of `len` bytes took are passed. -/
def State.passFree (s : State) (g len : Nat) : State :=
  match s.remoteOf g with
  | some _ => { s with freeCtr := s.freeCtr + len }
  | none => s

/-! ### Semaphores (R130 to R133) -/

def semKey (ctx i : Nat) : Nat := ctx * 65536 + i % 65536
/-- A semaphore; a torn-down job's are all poisoned (R133). -/
def State.sem (s : State) (ctx i : Nat) : Sem :=
  let m := mapGet {} s.sems (semKey ctx i)
  { m with poison := m.poison || (s.job ctx).poisoned }
def State.setSem (s : State) (ctx i : Nat) (v : Sem) : State := { s with sems := mapSet {} s.sems (semKey ctx i) v }

/-- A waiting slot goes on past its wait with a result (R131). -/
def State.wake (s : State) (place result : Nat) : State :=
  let a : At := { core := place / 4, slot := place % 4 }
  let sl := s.at_ a
  match sl.wait with
  | some (.sem _ _ dst _ _) =>
    s.setAt a { sl.ws (BitVec.ofNat 5 dst) (BitVec.ofNat 64 result) with wait := none, pc := sl.pc + 8 }
  | some (.bar _ _) => s.setAt a { sl with wait := none, pc := sl.pc + 8 }
  | _ => s

/-- Waiters satisfied in order of arrival by a value: those woken, the value left and those that still wait
(R132). -/
def semServe (value : Nat) : List Waiter → List Nat × Nat × List Waiter
  | [] => ([], value, [])
  | w :: ws =>
    if w.count ≤ value then
      let r := semServe (if w.keep then value else value - w.count) ws
      (w.place :: r.1, r.2)
    else ([], value, w :: ws)

/-- A semaphore takes a value and wakes whom it satisfies (R132). -/
def State.semValue (s : State) (ctx i value : Nat) : State :=
  let m := s.sem ctx i
  let r := semServe value m.waiters
  r.1.foldl (fun s p => s.wake p 1) (s.setSem ctx i { m with value := r.2.1, waiters := r.2.2 })

/-- The profile of a context. -/
def State.compat (s : State) (ctx : Nat) : Bool := (s.job ctx).profile

/-- A completion post of +1 (R131, R133): discarded where the semaphore is poisoned; past the largest value it
faults the context, or in the compatibility profile leaves the value there. `place` is the core and slot the
event names, where a core posts. -/
def State.semPost1 (s : State) (ctx i : Nat) (place : Option At) : State :=
  let m := s.sem ctx i
  if m.poison then s
  else if m.value < 0xFFFFFFFF then s.semValue ctx i (m.value + 1)
  else if s.compat ctx then s
  else match place with
    | some a => s.instrFault a 0x010A 0 i
    | none => (s.post { code := 0x010A, sev := 2, cls := 7, ctx := ctx, detail := i % 65536 * 2 ^ 32 }).faultJob ctx 0x010A

end Sys2Proof.Machine
end

