-- ==== Sys2Proof/Machine/Operands.lean ====
section
/-!
DEFINITION. Operand forms: the fields of an instruction word and their checks (R105 to R108, R579, R580), the
lane format and predication of vector instructions (R116), descriptors and accumulator handles with their
checks (R45 to R47), and the hazard check of R55.
-/
namespace Sys2Proof
open Sys2Proof.Machine

def Fields.fmt (f : Fields) : Nat := fieldOf f.imm.toNat 28 4
/-- DEDUCED (log entry 16). -/
def Fields.predEn (f : Fields) : Bool := f.imm.toNat.testBit 27
def Fields.pred (f : Fields) : Nat := fieldOf f.imm.toNat 24 3
def Fields.zeroing (f : Fields) : Bool := f.imm.toNat.testBit 23
def Fields.vimm (f : Fields) : Nat := fieldOf f.imm.toNat 0 23
def Fields.simm (f : Fields) : Word := f.imm.signExtend 64

end Sys2Proof

namespace Sys2Proof.Machine

/-- The register file that a field names (R107); `none_` for a reserved field. -/
inductive Kind where
  | none_
  | s
  | v
  | p
  | d
  | a
  deriving DecidableEq, Repr

/-- The fields that an instruction's definition names, and the reserved bit fields of [31:0] as (lowest bit,
width), the highest first (R579). -/
structure Use where
  dst : Kind
  src1 : Kind
  src2 : Kind
  src3 : Kind
  imm : List (Nat × Nat)
  deriving DecidableEq, Repr

/-- A field breaks R108: a reserved one is not 0, or it names a register outside its file. -/
def fieldBad (k : Kind) (x : BitVec 5) : Bool :=
  match k with
  | .none_ => x ≠ 0
  | .s => false
  | .v => false
  | .p => x.toNat ≥ 8
  | .d => x.toNat ≥ 16
  | .a => x.toNat ≥ 16

/-- The lowest bit of the first offending field of the first word (R580). -/
def firstBad (u : Use) (f : Fields) : Option Nat :=
  firstOf ([(fieldBad u.dst f.dst, 47), (fieldBad u.src1 f.src1, 42), (fieldBad u.src2 f.src2, 37),
    (fieldBad u.src3 f.src3, 32)] ++ u.imm.map (fun r => (decide (fieldOf f.imm.toNat r.1 r.2 ≠ 0), r.1)))

/-- ILLEGAL_OPERAND for a field of the first word (R108, R580), in the native profile. -/
def badField (compat : Bool) (u : Use) (f : Fields) : Option Stop :=
  if compat then none else (firstBad u f).map (fun b => .instr 0x0102 b)

/-- ILLEGAL_OPERAND for a field of the second word (R580). -/
def badWord2 (compat : Bool) (w : Word) (res : List (Nat × Nat)) : Option Stop :=
  if fieldOf w.toNat 58 6 ≠ 0x3F then some (.instr 0x0102 (0x4000 + 58))
  else if compat then none
  else (firstOf (res.map (fun r => (decide (fieldOf w.toNat r.1 r.2 ≠ 0), r.1)))).map
    (fun b => .instr 0x0102 (0x4000 + b))

/-- The info of ILLEGAL_OPERAND for the value of a register (R580): the field that names it and the bit. -/
def regInfo (word naming bit : Nat) : Nat := 0x8000 + word * 0x1000 + naming * 64 + bit

/-- The first stop of a list of checks. -/
def firstStop : List (Option Stop) → Option Stop
  | [] => none
  | some x :: _ => some x
  | none :: l => firstStop l

/-- A check that stops when its condition holds. -/
def stopIf (c : Bool) (x : Stop) : Option Stop := if c then some x else none

/-! ### Format V (R107, R116) -/

/-- Lane `i` is written (R116). -/
def laneOn (f : Fields) (sl : Slot) (i : Nat) : Bool :=
  if f.predEn then (sl.rp f.pred).getLsbD i else true

/-- A vector destination under predication (R116). -/
def Slot.wvPred (sl : Slot) (f : Fields) (g : Nat → Lane) : Slot :=
  sl.wv f.dst (fun i => if laneOn f sl i then g i else if f.zeroing then 0 else sl.lane f.dst i)

/-- A predicate from its bits. -/
def predOf (g : Nat → Bool) : PredBits :=
  BitVec.ofNat 1024 ((List.range 1024).foldr (fun i n => 2 * n + (if g i then 1 else 0)) 0)

/-- A predicate destination under predication (R116): an unwritten bit keeps its value or becomes 0. -/
def Slot.wpPred (sl : Slot) (f : Fields) (g : Nat → Bool) : Slot :=
  let r := f.dst.toNat
  sl.wp r (predOf (fun i => if laneOn f sl i then g i else if f.zeroing then false else (sl.rp r).getLsbD i))

/-- The lane format that an instruction works in, given those it accepts (R116, R144). DEDUCED (log entry 16). -/
def laneFmt (accepted : List Nat) (f : Fields) : Nat :=
  if accepted.contains f.fmt then f.fmt else if accepted.contains 0 then 0 else accepted.headD 0

/-- FORMAT_RESERVED or FORMAT_NOT_ACCEPTED for an operand (R69, R116, R139, R580), in the native profile.
DEDUCED (log entry 16). -/
def badFormat (compat : Bool) (operand code : Nat) (accepted : List Nat) : Option Stop :=
  if compat || accepted.contains code then none
  else if code = 15 then some (.instr 0x0223 (operand * 4096 + 15))
  else some (.instr 0x0103 (operand * 4096 + code))

/-- SCALE_INVALID for an operand (R81). -/
def badScale (operand c code : Nat) : Option Stop :=
  if scaleValid c code then none else some (.instr 0x0224 (operand * 4096))

/-! ### Descriptors (R45, R47) -/

def descBase (w : Word) : Nat := fieldOf w.toNat 0 24
def descLen (w : Word) : Nat := fieldOf w.toNat 24 24
def descFmt (w : Word) : Nat := fieldOf w.toNat 48 4

/-- The checks of a used descriptor at issue (R47): reserved bits, the allotment, the base. `naming` is the
lowest bit of the field that names it. -/
def badDesc (sl : Slot) (word naming : Nat) (r : Nat) : Option Stop :=
  let w := sl.rd r
  let compat := sl.id.profile
  let top := descBase w + descLen w
  firstStop [
    stopIf (!compat && fieldOf w.toNat 52 12 ≠ 0) (.instr 0x0102 (regInfo word naming 52)),
    stopIf (!compat && top > sl.allot.bufLen) (.tile 0x0220 (r % 16) sl.allot.bufLen (top - sl.allot.bufLen)),
    stopIf (descBase w % 16 ≠ 0) (.tile 0x0222 (r % 16) 16 (descBase w))]

/-- Excess of a descriptor beyond the allotment, clipped in the compatibility profile (R144). -/
def clipped (sl : Slot) (w : Word) : Bool := decide (descBase w + descLen w > sl.allot.bufLen)

/-! ### Accumulator handles (R46, R47) -/

def accBaseOf (w : Word) : Nat := fieldOf w.toNat 0 19
def handleRows (w : Word) : Nat := let r := fieldOf w.toNat 19 9; if r = 0 then 256 else r
def handleCols (w : Word) : Nat := let c := fieldOf w.toNat 28 9; if c = 0 then 256 else c
def zeroFirst (w : Word) : Bool := w.toNat.testBit 37
def handleSize (w : Word) : Nat := handleRows w * handleCols w

/-- The checks of a used handle at issue (R46, R47). -/
def badHandle (sl : Slot) (word naming : Nat) (r : Nat) : Option Stop :=
  let w := sl.ra r
  let top := accBaseOf w + handleSize w
  firstStop [
    stopIf (!sl.id.profile && fieldOf w.toNat 38 26 ≠ 0) (.instr 0x0102 (regInfo word naming 38)),
    stopIf (handleCols w > 256) (.instr 0x0102 (regInfo word naming 28)),
    stopIf (handleRows w > 256) (.instr 0x0102 (regInfo word naming 19)),
    stopIf (top > sl.allot.accLen) (.tile 0x0221 (r % 16) sl.allot.accLen (top - sl.allot.accLen))]

/-! ### Hazards (R55) -/

/-- Two spans meet where one of them writes, or in any case as accumulator tiles (R55). -/
def Span.clashes (x y : Span) : Bool :=
  x.acc == y.acc && decide (x.base < y.base + y.len) && decide (y.base < x.base + x.len)
    && (x.acc || x.write || y.write)

/-- A command waits at issue for an earlier uncompleted one (R55). -/
def hazard (sl : Slot) (spans : List Span) : Bool :=
  spans.any (fun x => sl.inFlight.any (fun q => q.spans.any x.clashes))

/-- The operand-buffer span of a descriptor. -/
def descSpan (w : Word) (write : Bool) : Span := { acc := false, write := write, base := descBase w, len := descLen w }
/-- The span of a handle's tile. -/
def handleSpan (w : Word) : Span := { acc := true, write := true, base := accBaseOf w, len := handleSize w }

/-- A wait at issue for hazards, or for an engine that serves an earlier command of the slot (R54, R55). -/
def mustWait (sl : Slot) (e : Option Engine) (spans : List Span) : Option Stop :=
  let queued := match e with | some e => !(sl.queueOf e).isEmpty | none => false
  if queued || hazard sl spans then some (.wait .hazard) else none

end Sys2Proof.Machine
end

