-- ==== Sys2Proof/Machine/Flags.lean ====
section
/-!
DEFINITION. The flags and counters that instructions leave: the numeric counters of a slot (R97) and the clips of the
compatibility profile (R144).
-/
namespace Sys2Proof.Machine

/-- Counts added to a slot's numeric counters (R97). DEDUCED (log entry 28). -/
def State.count (s : State) (a : At) (k : NumCount) : State :=
  let sl := s.at_ a
  s.setAt a { sl with cnt := sl.cnt.add k }

/-- One clip of the compatibility profile counted where it happens (R144). -/
def State.countClip (s : State) (a : At) (clip : Bool) : State :=
  if clip then s.count a { satOnStore := 1 } else s

end Sys2Proof.Machine
end

