-- ==== Sys2Proof/Machine/Health.lean ====
section
/-!
DEFINITION. Mismatches of guarded arithmetic and the fencing of a core (R428 to R433).
-/
namespace Sys2Proof.Machine

/-- The detail of CORE_FENCED and its like (R454, layout F). -/
def detailF (core reason : Nat) : Nat := core % 256 * 2 ^ 56 + reason % 16 * 2 ^ 52

/-- A core is fenced with a reason (R430, R431): recorded, out of placement, reported, and put under test at once
where auto_test is 1. -/
def State.fenceCore (s : State) (c reason : Nat) : State :=
  let k := s.core c
  if k.health.fenced then s
  else
    let s := s.setCore c { k with health := { k.health with
      fenced := true, fenceReason := reason, lastTest := 0, testedSinceFence := false,
      underTest := s.hub.autoTest && decide (reason ≠ 3) } }
    s.post { code := 0x0806, sev := 1, die := c / 24, cls := 0, index := c, detail := detailF c reason }

/-- The self-test whose unit is under test now: the oldest that is not suspended, an offline one once its jobs are
suspended (R447, R449). -/
def State.testNow (s : State) : Option (Nat × Nat × Nat) :=
  match s.dep.tests.find? (fun e => e.2.live && decide (e.2.state ≤ 1) && !e.2.units.isEmpty) with
  | some (h, v) =>
    let landed := v.jobs.all (fun i => !(s.job i).live || (s.job i).faulted || decide ((s.job i).state ≥ 2))
    if landed then v.units.head?.map (fun u => (h, u)) else none
  | none => none

/-- A core is under test and out of placement (R431, R447). -/
def State.underTest (s : State) (c : Nat) : Bool :=
  (s.core c).health.underTest || (match s.testNow with | some (_, u) => decide (u = (0, c)) | none => false)

/-- A mismatch or an uncorrectable SRAM error counted toward the threshold (R430, R432).
DESIGN CHOICE (log entry 103). -/
def State.countTowardFence (s : State) (c : Nat) : State :=
  let k := s.core c
  let n := k.health.windowCount + 1
  let s := s.setCore c { k with health := { k.health with windowCount := n } }
  if s.hub.fenceThreshold ≠ 0 && n ≥ s.hub.fenceThreshold then s.fenceCore c 1 else s

/-- The detail of a mismatch (R454, layout A). -/
def detailA (a : At) (pc major run : Nat) : Nat :=
  a.core % 256 * 2 ^ 56 + a.slot % 4 * 2 ^ 54 + major % 64 * 2 ^ 48 + run % 65536 * 2 ^ 32 + pc % 2 ^ 32

/-- A mismatch of guarded arithmetic is reported and counted in CORE_ERR (R428, R429, R510).
DESIGN CHOICE (log entry 103). -/
def State.mismatch (s : State) (a : At) (pc code major run : Nat) : State :=
  let s := s.coreEvent a code 1 (detailA a pc major run)
  let k := s.core a.core
  s.setCore a.core { k with health := { k.health with mismatches := satAdd 16 k.health.mismatches 1 } }

/-- An instruction whose multiply-adds are guarded (R429): one mismatch is repaired by running again, and counts;
a second one fences the core and the instruction does not complete. -/
def State.guarded (s : State) (a : At) (code major : Nat) (done : State → State) : State :=
  match a.upset with
  | .ok => done s
  | .once => ((done (s.mismatch a (s.at_ a).pc code major 0)).countTowardFence a.core)
  | .twice => ((s.mismatch a (s.at_ a).pc code major 0).mismatch a (s.at_ a).pc code major 0).fenceCore a.core 2

end Sys2Proof.Machine
end

