-- ==== Sys2Proof/Machine/Scalar.lean ====
section
/-!
DEFINITION. Scalar and branch instructions (R110 to R115), moves between register files and context
information (R112), and issue of an unassigned opcode (R109).
-/
namespace Sys2Proof.Machine
open Host

/-! ### Scalar ALU (R110, R111) -/

/-- Fields of the scalar ALU: format SR or SI (R107, R110). -/
def aluUse : AluForm → Use
  | .reg => { dst := .s, src1 := .s, src2 := .s, src3 := .none_, imm := [(0, 32)] }
  | .imm => { dst := .s, src1 := .s, src2 := .none_, src3 := .none_, imm := [] }

/-- The second operand: a register or the sign-extended immediate (R110). -/
def aluOperand (sl : Slot) (form : AluForm) (f : Fields) : Word :=
  match form with
  | .reg => sl.rs f.src2
  | .imm => f.simm

def aluMajor : AluForm → Nat
  | .reg => 0x00
  | .imm => 0x01

/-- A scalar ALU instruction: `op` takes the profile and the two operands. -/
def State.alu (s : State) (a : At) (form : AluForm) (f : Fields) (op : Bool → Word → Word → Word) : State :=
  s.run a (aluMajor form) 8
    (fun s => badField (s.at_ a).id.profile (aluUse form) f)
    (fun s =>
      let sl := s.at_ a
      s.setAt a (sl.ws f.dst (op sl.id.profile (sl.rs f.src1) (aluOperand sl form f))))

def boolWord (b : Bool) : Word := if b then 1 else 0

/-- R111: the quotient of a zero divisor is all ones, or 0 in the compatibility profile (R144). -/
def divSigned (compat : Bool) (x y : Word) : Word :=
  if y = 0 then (if compat then 0 else BitVec.allOnes 64) else x.sdiv y
def divUnsigned (compat : Bool) (x y : Word) : Word :=
  if y = 0 then (if compat then 0 else BitVec.allOnes 64) else x.udiv y
/-- R111: the remainder of a zero divisor is the dividend, or 0 in the compatibility profile (R144). -/
def remSigned (compat : Bool) (x y : Word) : Word := if y = 0 then (if compat then 0 else x) else x.srem y
def remUnsigned (compat : Bool) (x y : Word) : Word := if y = 0 then (if compat then 0 else x) else x.umod y
/-- High 64 bits of the signed product. -/
def mulHigh (x y : Word) : Word := BitVec.ofInt 64 ((x.toInt * y.toInt) / 2 ^ 64)
/-- High 64 bits of the unsigned product. -/
def mulHighU (x y : Word) : Word := BitVec.ofNat 64 (x.toNat * y.toNat / 2 ^ 64)

def execAdd (a : At) (form : AluForm) (f : Fields) (s : State) : Outcome State Fault Refusal :=
  .next (s.alu a form f (fun _ x y => x + y))
def execSub (a : At) (form : AluForm) (f : Fields) (s : State) : Outcome State Fault Refusal :=
  .next (s.alu a form f (fun _ x y => x - y))
def execAnd (a : At) (form : AluForm) (f : Fields) (s : State) : Outcome State Fault Refusal :=
  .next (s.alu a form f (fun _ x y => x &&& y))
def execOr (a : At) (form : AluForm) (f : Fields) (s : State) : Outcome State Fault Refusal :=
  .next (s.alu a form f (fun _ x y => x ||| y))
def execXor (a : At) (form : AluForm) (f : Fields) (s : State) : Outcome State Fault Refusal :=
  .next (s.alu a form f (fun _ x y => x ^^^ y))
def execSll (a : At) (form : AluForm) (f : Fields) (s : State) : Outcome State Fault Refusal :=
  .next (s.alu a form f (fun _ x y => x <<< (y.toNat % 64)))
def execSrl (a : At) (form : AluForm) (f : Fields) (s : State) : Outcome State Fault Refusal :=
  .next (s.alu a form f (fun _ x y => x >>> (y.toNat % 64)))
def execSra (a : At) (form : AluForm) (f : Fields) (s : State) : Outcome State Fault Refusal :=
  .next (s.alu a form f (fun _ x y => x.sshiftRight (y.toNat % 64)))
def execSlt (a : At) (form : AluForm) (f : Fields) (s : State) : Outcome State Fault Refusal :=
  .next (s.alu a form f (fun _ x y => boolWord (x.slt y)))
def execSltu (a : At) (form : AluForm) (f : Fields) (s : State) : Outcome State Fault Refusal :=
  .next (s.alu a form f (fun _ x y => boolWord (x.ult y)))
def execMin (a : At) (form : AluForm) (f : Fields) (s : State) : Outcome State Fault Refusal :=
  .next (s.alu a form f (fun _ x y => if x.slt y then x else y))
def execMax (a : At) (form : AluForm) (f : Fields) (s : State) : Outcome State Fault Refusal :=
  .next (s.alu a form f (fun _ x y => if x.slt y then y else x))
def execMul (a : At) (form : AluForm) (f : Fields) (s : State) : Outcome State Fault Refusal :=
  .next (s.alu a form f (fun _ x y => x * y))
def execMulh (a : At) (form : AluForm) (f : Fields) (s : State) : Outcome State Fault Refusal :=
  .next (s.alu a form f (fun _ x y => mulHigh x y))
def execMulhu (a : At) (form : AluForm) (f : Fields) (s : State) : Outcome State Fault Refusal :=
  .next (s.alu a form f (fun _ x y => mulHighU x y))
def execDiv (a : At) (form : AluForm) (f : Fields) (s : State) : Outcome State Fault Refusal :=
  .next (s.alu a form f divSigned)
def execDivu (a : At) (form : AluForm) (f : Fields) (s : State) : Outcome State Fault Refusal :=
  .next (s.alu a form f divUnsigned)
def execRem (a : At) (form : AluForm) (f : Fields) (s : State) : Outcome State Fault Refusal :=
  .next (s.alu a form f remSigned)
def execRemu (a : At) (form : AluForm) (f : Fields) (s : State) : Outcome State Fault Refusal :=
  .next (s.alu a form f remUnsigned)

/-! ### Moves (R112) -/

/-- An instruction of the scalar pipe that changes only its slot. -/
def State.slotOp (s : State) (a : At) (major : Nat) (u : Use) (f : Fields) (g : Slot → Slot) : State :=
  s.run a major 8 (fun s => badField (s.at_ a).id.profile u f) (fun s => s.setAt a (g (s.at_ a)))

/-- The same on the vector unit, behind earlier commands of the slot there (R54, R112). -/
def State.vecSlotOp (s : State) (a : At) (major : Nat) (u : Use) (f : Fields) (g : Slot → Slot) : State :=
  s.run a major 8
    (fun s => firstStop [badField (s.at_ a).id.profile u f, mustWait (s.at_ a) (some .vector) []])
    (fun s => s.setAt a (g (s.at_ a)))

/-- MOVI, MOVHI: format SI with src1 reserved (R112). -/
def moviUse : Use := { dst := .s, src1 := .none_, src2 := .none_, src3 := .none_, imm := [] }

def execMovi (a : At) (f : Fields) (s : State) : Outcome State Fault Refusal :=
  .next (s.slotOp a 0x02 moviUse f (fun sl => sl.ws f.dst f.simm))

def execMovhi (a : At) (f : Fields) (s : State) : Outcome State Fault Refusal :=
  .next (s.slotOp a 0x02 moviUse f (fun sl =>
    sl.ws f.dst (f.imm ++ (sl.rs f.dst).extractLsb' 0 32 : BitVec 64)))

def execMovSd (a : At) (f : Fields) (s : State) : Outcome State Fault Refusal :=
  .next (s.slotOp a 0x06 { dst := .d, src1 := .s, src2 := .none_, src3 := .none_, imm := [(0, 32)] } f
    (fun sl => sl.wd f.dst.toNat (sl.rs f.src1)))

def execMovDs (a : At) (f : Fields) (s : State) : Outcome State Fault Refusal :=
  .next (s.slotOp a 0x06 { dst := .s, src1 := .d, src2 := .none_, src3 := .none_, imm := [(0, 32)] } f
    (fun sl => sl.ws f.dst (sl.rd f.src1.toNat)))

def execMovSa (a : At) (f : Fields) (s : State) : Outcome State Fault Refusal :=
  .next (s.slotOp a 0x06 { dst := .a, src1 := .s, src2 := .none_, src3 := .none_, imm := [(0, 32)] } f
    (fun sl => sl.wa f.dst.toNat (sl.rs f.src1)))

def execMovAs (a : At) (f : Fields) (s : State) : Outcome State Fault Refusal :=
  .next (s.slotOp a 0x06 { dst := .s, src1 := .a, src2 := .none_, src3 := .none_, imm := [(0, 32)] } f
    (fun sl => sl.ws f.dst (sl.ra f.src1.toNat)))

/-- The lane or group index of format R (R107). -/
def moveLane (f : Fields) : Nat := fieldOf f.imm.toNat 0 10
def moveGroup (f : Fields) : Nat := fieldOf f.imm.toNat 0 4

def execMovVs (a : At) (f : Fields) (s : State) : Outcome State Fault Refusal :=
  .next (s.vecSlotOp a 0x06 { dst := .v, src1 := .s, src2 := .none_, src3 := .none_, imm := [(10, 22)] } f
    (fun sl => sl.wv f.dst (fun i => if i = moveLane f then (sl.rs f.src1).setWidth 32 else sl.lane f.dst i)))

def execMovSv (a : At) (f : Fields) (s : State) : Outcome State Fault Refusal :=
  .next (s.vecSlotOp a 0x06 { dst := .s, src1 := .v, src2 := .none_, src3 := .none_, imm := [(10, 22)] } f
    (fun sl => sl.ws f.dst ((sl.lane f.src1 (moveLane f)).setWidth 64)))

/-- A predicate with one 64-bit group replaced (R112). -/
def putGroup (p : PredBits) (g : Nat) (w : Word) : PredBits :=
  (p &&& ~~~((BitVec.allOnes 64).setWidth 1024 <<< (64 * g))) ||| (w.setWidth 1024 <<< (64 * g))

def execMovPs (a : At) (f : Fields) (s : State) : Outcome State Fault Refusal :=
  .next (s.vecSlotOp a 0x06 { dst := .p, src1 := .s, src2 := .none_, src3 := .none_, imm := [(4, 28)] } f
    (fun sl => sl.wp f.dst.toNat (putGroup (sl.rp f.dst.toNat) (moveGroup f) (sl.rs f.src1))))

def execMovSp (a : At) (f : Fields) (s : State) : Outcome State Fault Refusal :=
  .next (s.vecSlotOp a 0x06 { dst := .s, src1 := .p, src2 := .none_, src3 := .none_, imm := [(4, 28)] } f
    (fun sl => sl.ws f.dst ((sl.rp f.src1.toNat).extractLsb' (64 * moveGroup f) 64)))

/-- ILLEGAL_OPCODE for an unassigned minor of an assigned major (R108), a NOP in the compatibility profile
(R144); `ok` says that the minor is assigned. -/
def State.runMinor (s : State) (a : At) (major minor : Nat) (ok : Bool) (chk : State → Option Stop)
    (eff : State → State) : State :=
  s.issue a major 8 (fun s =>
    if !ok then
      if (s.at_ a).id.profile && major ≤ 0x1E then s.advance a 8 else s.instrFault a 0x0101 major minor
    else match chk s with
      | some x => s.stopAt a major x
      | none => (eff s).advance a 8)

/-- INFO in minor order (R112). -/
def infoValue (a : At) (sl : Slot) (minor : Nat) : Nat :=
  match minor with
  | 0 => a.core
  | 1 => sl.id.ctx
  | 2 => a.slot
  | 3 => sl.id.polder
  | 4 => if sl.id.profile then 1 else 0
  | 5 => sl.stage
  | _ => sl.task

def execInfo (a : At) (minor : BitVec 6) (f : Fields) (s : State) : Outcome State Fault Refusal :=
  .next (s.runMinor a 0x08 minor.toNat (decide (minor.toNat ≤ 6))
    (fun s => badField (s.at_ a).id.profile
      { dst := .s, src1 := .none_, src2 := .none_, src3 := .none_, imm := [(0, 32)] } f)
    (fun s =>
      let sl := s.at_ a
      s.setAt a (sl.ws f.dst (BitVec.ofNat 64 (infoValue a sl minor.toNat)))))

/-! ### Scalar loads and stores (R113) -/

/-- Format SI (R107). -/
def siUse : Use := { dst := .s, src1 := .s, src2 := .none_, src3 := .none_, imm := [] }

/-- Bytes of a scalar load or store (R113). -/
def scalarSize (minor : BitVec 6) : Nat := 2 ^ (minor.toNat % 4)
/-- The operand buffer is accessed, not device memory (R113). -/
def scalarBuf (minor : BitVec 6) : Bool := minor.toNat.testBit 4
/-- Address or byte offset of a scalar load or store (R113). -/
def scalarAddr (sl : Slot) (f : Fields) : Nat := (sl.rs f.src1 + f.simm).toNat

/-- The checks of a scalar load or store at issue (R113). -/
def scalarStop (a : At) (minor : BitVec 6) (store : Bool) (f : Fields) (s : State) : Option Stop :=
  let sl := s.at_ a
  let x := scalarAddr sl f
  let n := scalarSize minor
  let compat := sl.id.profile
  firstStop [
    stopIf (!compat && store && minor.toNat.testBit 2) (.instr 0x0102 54),
    badField compat siUse f,
    stopIf (!compat && x % n ≠ 0) (.instr 0x0105 (x % 65536)),
    if scalarBuf minor then firstStop [
      stopIf (!compat && x + n > sl.allot.bufLen)
        (.tile 0x0220 0x20 sl.allot.bufLen (x + n - sl.allot.bufLen)),
      mustWait sl none [{ acc := false, write := store, base := x, len := n }]]
    else s.devStop (s.whoAt a) store x n]

/-- Bytes extended to a register: zero or sign extension (R113). -/
def extendBytes (zero : Bool) (bs : List Byte) : Word :=
  let n := ofBytes bs
  if zero then BitVec.ofNat 64 n else BitVec.ofInt 64 (sext (8 * bs.length) n)

def execScalarLoad (a : At) (minor : BitVec 6) (f : Fields) (s : State) : Outcome State Fault Refusal :=
  .next (s.runMinor a 0x03 minor.toNat (!minor.toNat.testBit 5) (scalarStop a minor false f) (fun s =>
    let sl := s.at_ a
    let x := scalarAddr sl f
    let n := scalarSize minor
    let bs := if scalarBuf minor then s.bufBytes a x n else s.devRead x n
    let s := if scalarBuf minor then s.countClip a (decide (x + n > sl.allot.bufLen))
      else (s.devSpend (s.whoAt a) false x n).passFree x n
    s.setAt a ((s.at_ a).ws f.dst (extendBytes (minor.toNat.testBit 2) bs))))

def execScalarStore (a : At) (minor : BitVec 6) (f : Fields) (s : State) : Outcome State Fault Refusal :=
  .next (s.runMinor a 0x03 minor.toNat (!minor.toNat.testBit 5) (scalarStop a minor true f) (fun s =>
    let sl := s.at_ a
    let x := scalarAddr sl f
    let n := scalarSize minor
    let bs := toBytes n (sl.rs f.dst).toNat
    if scalarBuf minor then (s.bufWrite a x bs).countClip a (decide (x + n > sl.allot.bufLen))
    else (s.devSpend (s.whoAt a) true x n).devWrite sl.id.ctx x bs))

/-! ### Scalar atomics (R114) -/

/-- An atomic waits while its word's extent moves: it is a write (R300). -/
def atomicStop (a : At) (u : Use) (f : Fields) (s : State) : Option Stop :=
  let sl := s.at_ a
  let x := (sl.rs f.src1).toNat
  firstStop [
    badField sl.id.profile u f,
    stopIf (!sl.id.profile && x % 8 ≠ 0) (.instr 0x0105 (x % 65536)),
    s.devStop (s.whoAt a) true x 8,
    s.devStop (s.whoAt a) false x 8,
    stopIf (s.remoteOf x = none && x % 2 ^ 52 < hostBase
        && (blocksOf extentBytes (x % 2 ^ 52) 8).any (fun e => (s.home e).state = 3)) (.wait .movingExtent)]

/-- An atomic: the old word goes to dst, `op old` to memory, indivisibly (R114). -/
def State.atomic (s : State) (a : At) (u : Use) (f : Fields) (op : Slot → Word → Word) : State :=
  s.run a 0x07 8 (atomicStop a u f) (fun s =>
    let sl := s.at_ a
    let x := (sl.rs f.src1).toNat
    let old := BitVec.ofNat 64 (ofBytes (s.devRead x 8))
    let s := ((s.devSpend (s.whoAt a) true x 8).passFree x 8).devWrite sl.id.ctx x (toBytes 8 (op sl old).toNat)
    s.setAt a ((s.at_ a).ws f.dst old))

def amoUse : Use := { dst := .s, src1 := .s, src2 := .s, src3 := .none_, imm := [(0, 32)] }

def execAmoadd (a : At) (f : Fields) (s : State) : Outcome State Fault Refusal :=
  .next (s.atomic a amoUse f (fun sl old => old + sl.rs f.src2))
def execAmoswap (a : At) (f : Fields) (s : State) : Outcome State Fault Refusal :=
  .next (s.atomic a amoUse f (fun sl _ => sl.rs f.src2))
def execAmocas (a : At) (f : Fields) (s : State) : Outcome State Fault Refusal :=
  .next (s.atomic a { amoUse with src3 := .s } f
    (fun sl old => if old = sl.rs f.src2 then sl.rs f.src3 else old))
def execAmomax (a : At) (f : Fields) (s : State) : Outcome State Fault Refusal :=
  .next (s.atomic a amoUse f (fun sl old => if old.slt (sl.rs f.src2) then sl.rs f.src2 else old))
def execAmomin (a : At) (f : Fields) (s : State) : Outcome State Fault Refusal :=
  .next (s.atomic a amoUse f (fun sl old => if old.slt (sl.rs f.src2) then old else sl.rs f.src2))

/-! ### Branches and jumps (R115) -/

/-- A transfer target that the code section does not hold, or that is no multiple of 8 (R115). -/
def State.badTarget (s : State) (a : At) (t : Nat) : Bool :=
  let sl := s.at_ a
  decide (t % 8 ≠ 0) || (decide (sl.code ≠ 0) && decide (t ≥ (s.code sl.code).codeBytes))

/-- An instruction that has issued and goes on at a target. -/
def State.jumpTo (s : State) (a : At) (t : Nat) : State :=
  let s := s.advance a 0
  s.setAt a { s.at_ a with pc := t }

/-- A control transfer: `take` says whether it is taken and where to; `link` is the register that takes the
offset of the next instruction. -/
def State.transfer (s : State) (a : At) (major : Nat) (u : Use) (f : Fields) (take : Slot → Option Word)
    (link : Bool) : State :=
  s.issue a major 8 (fun s =>
    let sl := s.at_ a
    match badField sl.id.profile u f with
    | some x => s.stopAt a major x
    | none =>
      match take sl with
      | none => s.advance a 8
      | some t =>
        if s.badTarget a t.toNat then s.instrFault a 0x010B major 0
        else
          let s := if link then s.setAt a (sl.ws f.dst (BitVec.ofNat 64 (sl.pc + 8))) else s
          s.jumpTo a t.toNat)

/-- pc + 8 × imm (R115). -/
def branchTarget (sl : Slot) (f : Fields) : Word := BitVec.ofNat 64 sl.pc + 8 * f.simm

def branchUse : Use := { dst := .none_, src1 := .s, src2 := .s, src3 := .none_, imm := [] }

def State.branch (s : State) (a : At) (f : Fields) (c : Word → Word → Bool) : State :=
  s.transfer a 0x04 branchUse f
    (fun sl => if c (sl.rs f.src1) (sl.rs f.src2) then some (branchTarget sl f) else none) false

def execBeq (a : At) (f : Fields) (s : State) : Outcome State Fault Refusal :=
  .next (s.branch a f (fun x y => decide (x = y)))
def execBne (a : At) (f : Fields) (s : State) : Outcome State Fault Refusal :=
  .next (s.branch a f (fun x y => decide (x ≠ y)))
def execBlt (a : At) (f : Fields) (s : State) : Outcome State Fault Refusal :=
  .next (s.branch a f (fun x y => x.slt y))
def execBge (a : At) (f : Fields) (s : State) : Outcome State Fault Refusal :=
  .next (s.branch a f (fun x y => !x.slt y))
def execBltu (a : At) (f : Fields) (s : State) : Outcome State Fault Refusal :=
  .next (s.branch a f (fun x y => x.ult y))
def execBgeu (a : At) (f : Fields) (s : State) : Outcome State Fault Refusal :=
  .next (s.branch a f (fun x y => !x.ult y))

def execJal (a : At) (f : Fields) (s : State) : Outcome State Fault Refusal :=
  .next (s.transfer a 0x05 { dst := .s, src1 := .none_, src2 := .none_, src3 := .none_, imm := [] } f
    (fun sl => some (branchTarget sl f)) true)
def execJalr (a : At) (f : Fields) (s : State) : Outcome State Fault Refusal :=
  .next (s.transfer a 0x05 { dst := .s, src1 := .s, src2 := .none_, src3 := .none_, imm := [] } f
    (fun sl => some (sl.rs f.src1 + 8 * f.simm)) true)

/-! ### Unassigned opcodes (R108, R109) -/

/-- Major and minor opcodes that name an instruction (R109 and the chapters it names). -/
def opcodeAssigned (major minor : Nat) : Bool :=
  match major with
  | 0x00 => minor ≤ 0x0E || (0x10 ≤ minor && minor ≤ 0x13)
  | 0x01 => minor ≤ 0x0E || (0x10 ≤ minor && minor ≤ 0x13)
  | 0x02 => minor ≤ 1
  | 0x03 => minor < 32
  | 0x04 => minor ≤ 5
  | 0x05 => minor ≤ 1
  | 0x06 => minor ≤ 7
  | 0x07 => minor ≤ 4
  | 0x08 => minor ≤ 6
  | 0x10 => minor ≤ 0x0E
  | 0x11 => minor ≤ 5
  | 0x12 => minor ≤ 0x0C
  | 0x13 => minor ≤ 3
  | 0x18 => minor ≤ 1
  | 0x19 => minor ≤ 1
  | 0x1A => minor ≤ 4
  | 0x1B => minor ≤ 1
  | 0x1C => minor ≤ 9
  | 0x1D => minor ≤ 4
  | 0x1E => minor ≤ 1
  | 0x20 => minor = 0
  | 0x21 => minor ≤ 4
  | 0x28 => minor ≤ 0x13
  | 0x29 => minor = 0
  | 0x2C => minor ≤ 1
  | 0x2D => minor = 0
  | 0x2E => minor = 0
  | 0x30 => minor = 0
  | 0x31 => minor ≤ 2
  | 0x34 => minor ≤ 3
  | 0x35 => minor ≤ 3
  | 0x38 => minor ≤ 2
  | 0x39 => minor ≤ 2
  | 0x3A => minor = 0
  | 0x3B => minor ≤ 1
  | 0x3C => minor ≤ 4 || minor = 8 || minor = 0x10
  | 0x3D => minor ≤ 4
  | 0x3E => minor ≤ 6
  | _ => false

/-- The major opcode names instructions (R109). -/
def majorAssigned (major : Nat) : Bool := (List.range 64).any (opcodeAssigned major)

/-- A word whose opcode names no instruction: ILLEGAL_OPCODE, or a NOP where R144 says so. A word that names
one is not this event and changes nothing. -/
def execIllegalOpcode (a : At) (w : Word) (s : State) : Outcome State Fault Refusal :=
  let major := fieldOf w.toNat 58 6
  let minor := fieldOf w.toNat 52 6
  .next (if opcodeAssigned major minor then s
    else s.issue a major 8 (fun s =>
      if (s.at_ a).id.profile && major ≤ 0x1E && majorAssigned major then s.advance a 8
      else s.instrFault a 0x0101 major minor))

end Sys2Proof.Machine
end

