-- ==== Sys2Proof/Machine/Vector.lean ====
section
/-!
DEFINITION. Vector arithmetic, compares, integer operations, broadcast and select (R116 to R118), permutes
(R120) and predicate logic (R122).
-/
namespace Sys2Proof.Machine
open Host

/-- Fields of a vector instruction whose vimm is reserved (R579). -/
def vUse (dst src1 src2 src3 : Kind) : Use :=
  { dst := dst, src1 := src1, src2 := src2, src3 := src3, imm := [(0, 23)] }

/-- A command of the vector unit over registers: checks at issue (R108, R116, R54), then its effect on the slot;
`g` takes the lane format in force. -/
def State.vec (s : State) (a : At) (major : Nat) (u : Use) (fmts : List Nat) (f : Fields)
    (g : Nat → Slot → Slot) : State :=
  s.run a major 8
    (fun s =>
      let sl := s.at_ a
      firstStop [badField sl.id.profile u f, badFormat sl.id.profile 0 f.fmt fmts,
        mustWait sl (some .vector) []])
    (fun s => s.setAt a (g (laneFmt fmts f) (s.at_ a)))

/-- The same for a command of the guarded FMA lanes (R429). -/
def State.vecGuarded (s : State) (a : At) (major : Nat) (u : Use) (fmts : List Nat) (f : Fields)
    (g : Nat → Slot → Slot) : State :=
  s.issue a major 8 (fun s =>
    let sl := s.at_ a
    match firstStop [badField sl.id.profile u f, badFormat sl.id.profile 0 f.fmt fmts,
        mustWait sl (some .vector) []] with
    | some x => s.stopAt a major x
    | none => s.guarded a 0x0805 major (fun s => (s.setAt a (g (laneFmt fmts f) (s.at_ a))).advance a 8))

/-- A lane of two BF16 halves, low and high (R116). -/
def halves (lo hi : Nat) : Lane := BitVec.ofNat 32 (lo % 65536 + hi % 65536 * 65536)

/-- A lane-wise operation on exact values in FP32, or in both BF16 halves of a lane (R116, R118). -/
def fpLane (fmt : Nat) (op : Fv → Fv → Fv → Fv) (x y z : Lane) : Lane :=
  if fmt = 1 then
    let h (k : Nat) := bf16.round (op (bf16.decode (fieldOf x.toNat k 16)) (bf16.decode (fieldOf y.toNat k 16))
      (bf16.decode (fieldOf z.toNat k 16)))
    halves (h 0) (h 16)
  else (op (.ofLane x) (.ofLane y) (.ofLane z)).toLane

/-- A vector instruction with up to three vector sources. -/
def State.vec3 (s : State) (a : At) (src2 src3 : Kind) (f : Fields) (op : Fv → Fv → Fv → Fv) : State :=
  s.vecGuarded a 0x10 (vUse .v .v src2 src3) [0, 1] f (fun fmt sl =>
    sl.wvPred f (fun i => fpLane fmt op (sl.lane f.src1 i) (sl.lane f.src2 i) (sl.lane f.src3 i)))

def execFadd (a : At) (f : Fields) (s : State) : Outcome State Fault Refusal :=
  .next (s.vec3 a .v .none_ f (fun x y _ => x.add y))
def execFsub (a : At) (f : Fields) (s : State) : Outcome State Fault Refusal :=
  .next (s.vec3 a .v .none_ f (fun x y _ => x.sub y))
def execFmul (a : At) (f : Fields) (s : State) : Outcome State Fault Refusal :=
  .next (s.vec3 a .v .none_ f (fun x y _ => x.mul y))
def execFma (a : At) (f : Fields) (s : State) : Outcome State Fault Refusal :=
  .next (s.vec3 a .v .v f (fun x y z => (x.mul y).add z))
def execFms (a : At) (f : Fields) (s : State) : Outcome State Fault Refusal :=
  .next (s.vec3 a .v .v f (fun x y z => (x.mul y).sub z))
def execFnma (a : At) (f : Fields) (s : State) : Outcome State Fault Refusal :=
  .next (s.vec3 a .v .v f (fun x y z => (x.mul y).neg.add z))

/-- IEEE 754 minimum: NaN where either is NaN, and −0 below +0 (R117). DEDUCED (log entry 19). -/
def fvMin (x y : Fv) : Fv :=
  if x.isNan || y.isNan then .nan
  else if x.isZero && y.isZero then (if x.sign then x else y)
  else if x.lt y then x else y

/-- IEEE 754 maximum: NaN where either is NaN, and +0 above −0 (R117). DEDUCED (log entry 19). -/
def fvMax (x y : Fv) : Fv :=
  if x.isNan || y.isNan then .nan
  else if x.isZero && y.isZero then (if x.sign then y else x)
  else if x.lt y then y else x

/-- A vector instruction in FP32 or BF16 that uses no multiply-add. -/
def State.vecFp (s : State) (a : At) (src2 : Kind) (fmts : List Nat) (f : Fields) (op : Nat → Lane → Lane → Lane) :
    State :=
  s.vec a 0x10 (vUse .v .v src2 .none_) fmts f (fun fmt sl =>
    sl.wvPred f (fun i => op fmt (sl.lane f.src1 i) (sl.lane f.src2 i)))

/-- DEDUCED (log entry 19). -/
def execFmin (a : At) (f : Fields) (s : State) : Outcome State Fault Refusal :=
  .next (s.vecFp a .v [0, 1] f (fun fmt x y => fpLane fmt (fun p q _ => fvMin p q) x y 0))
/-- DEDUCED (log entry 19). -/
def execFmax (a : At) (f : Fields) (s : State) : Outcome State Fault Refusal :=
  .next (s.vecFp a .v [0, 1] f (fun fmt x y => fpLane fmt (fun p q _ => fvMax p q) x y 0))

/-- The sign bits of a lane (R116). -/
def signMask (fmt : Nat) : Lane := if fmt = 1 then 0x80008000 else 0x80000000

def execFabs (a : At) (f : Fields) (s : State) : Outcome State Fault Refusal :=
  .next (s.vecFp a .none_ [0, 1] f (fun fmt x _ => x &&& ~~~(signMask fmt)))
def execFneg (a : At) (f : Fields) (s : State) : Outcome State Fault Refusal :=
  .next (s.vecFp a .none_ [0, 1] f (fun fmt x _ => x ^^^ signMask fmt))

/-- FP32 to INT32, rounded to nearest-even, clamped, NaN to 0 (R117). -/
def toInt32 (v : Fv) : Lane :=
  match v with
  | .nan => 0
  | .inf s => if s then 0x80000000 else 0x7FFFFFFF
  | v =>
    let i := v.toIntRne
    if i < -2147483648 then 0x80000000 else if i > 2147483647 then 0x7FFFFFFF else BitVec.ofInt 32 i

def execFcvtW (a : At) (f : Fields) (s : State) : Outcome State Fault Refusal :=
  .next (s.vecFp a .none_ [0] f (fun _ x _ => toInt32 (.ofLane x)))
def execFcvtS (a : At) (f : Fields) (s : State) : Outcome State Fault Refusal :=
  .next (s.vecFp a .none_ [0] f (fun _ x _ => (Fv.ofInt x.toInt).toLane))
def execBpack (a : At) (f : Fields) (s : State) : Outcome State Fault Refusal :=
  .next (s.vecFp a .v [0] f (fun _ x y => halves (bf16.round (.ofLane x)) (bf16.round (.ofLane y))))
def execBunpkL (a : At) (f : Fields) (s : State) : Outcome State Fault Refusal :=
  .next (s.vecFp a .none_ [0] f (fun _ x _ => (bf16.decode (fieldOf x.toNat 0 16)).toLane))
def execBunpkH (a : At) (f : Fields) (s : State) : Outcome State Fault Refusal :=
  .next (s.vecFp a .none_ [0] f (fun _ x _ => (bf16.decode (fieldOf x.toNat 16 16)).toLane))

/-! ### Compares to a predicate (R117) -/

def State.vecCmp (s : State) (a : At) (fmts : List Nat) (f : Fields) (op : Nat → Lane → Lane → Bool) : State :=
  s.vec a 0x11 (vUse .p .v .v .none_) fmts f (fun fmt sl =>
    sl.wpPred f (fun i => op fmt (sl.lane f.src1 i) (sl.lane f.src2 i)))

/-- A comparison in FP32, or in INT32, signed. -/
def cmpLane (fp : Fv → Fv → Bool) (int : Int → Int → Bool) (fmt : Nat) (x y : Lane) : Bool :=
  if fmt = 0xD then int x.toInt y.toInt else fp (.ofLane x) (.ofLane y)

def execCmpEq (a : At) (f : Fields) (s : State) : Outcome State Fault Refusal :=
  .next (s.vecCmp a [0, 0xD] f (cmpLane Fv.eq (fun x y => decide (x = y))))
def execCmpNe (a : At) (f : Fields) (s : State) : Outcome State Fault Refusal :=
  .next (s.vecCmp a [0, 0xD] f (cmpLane (fun x y => !x.eq y) (fun x y => decide (x ≠ y))))
def execCmpLt (a : At) (f : Fields) (s : State) : Outcome State Fault Refusal :=
  .next (s.vecCmp a [0, 0xD] f (cmpLane Fv.lt (fun x y => decide (x < y))))
def execCmpLe (a : At) (f : Fields) (s : State) : Outcome State Fault Refusal :=
  .next (s.vecCmp a [0, 0xD] f (cmpLane Fv.le (fun x y => decide (x ≤ y))))
def execCmpUnord (a : At) (f : Fields) (s : State) : Outcome State Fault Refusal :=
  .next (s.vecCmp a [0, 0xD] f (cmpLane (fun x y => x.isNan || y.isNan) (fun _ _ => false)))
def execCmpLtu (a : At) (f : Fields) (s : State) : Outcome State Fault Refusal :=
  .next (s.vecCmp a [0xD] f (fun _ x y => x.ult y))

/-! ### Vector integer (R117) -/

def State.vecInt (s : State) (a : At) (f : Fields) (op : Lane → Lane → Lane) : State :=
  s.vec a 0x12 (vUse .v .v .v .none_) [0xD] f (fun _ sl =>
    sl.wvPred f (fun i => op (sl.lane f.src1 i) (sl.lane f.src2 i)))

def execIadd (a : At) (f : Fields) (s : State) : Outcome State Fault Refusal :=
  .next (s.vecInt a f (fun x y => x + y))
def execIsub (a : At) (f : Fields) (s : State) : Outcome State Fault Refusal :=
  .next (s.vecInt a f (fun x y => x - y))
def execImul (a : At) (f : Fields) (s : State) : Outcome State Fault Refusal :=
  .next (s.vecInt a f (fun x y => x * y))
def execIand (a : At) (f : Fields) (s : State) : Outcome State Fault Refusal :=
  .next (s.vecInt a f (fun x y => x &&& y))
def execIor (a : At) (f : Fields) (s : State) : Outcome State Fault Refusal :=
  .next (s.vecInt a f (fun x y => x ||| y))
def execIxor (a : At) (f : Fields) (s : State) : Outcome State Fault Refusal :=
  .next (s.vecInt a f (fun x y => x ^^^ y))
def execIshl (a : At) (f : Fields) (s : State) : Outcome State Fault Refusal :=
  .next (s.vecInt a f (fun x y => x <<< (y.toNat % 32)))
def execIshr (a : At) (f : Fields) (s : State) : Outcome State Fault Refusal :=
  .next (s.vecInt a f (fun x y => x >>> (y.toNat % 32)))
def execIsar (a : At) (f : Fields) (s : State) : Outcome State Fault Refusal :=
  .next (s.vecInt a f (fun x y => x.sshiftRight (y.toNat % 32)))
def execImin (a : At) (f : Fields) (s : State) : Outcome State Fault Refusal :=
  .next (s.vecInt a f (fun x y => if x.slt y then x else y))
def execImax (a : At) (f : Fields) (s : State) : Outcome State Fault Refusal :=
  .next (s.vecInt a f (fun x y => if x.slt y then y else x))
def execIminu (a : At) (f : Fields) (s : State) : Outcome State Fault Refusal :=
  .next (s.vecInt a f (fun x y => if x.ult y then x else y))
def execImaxu (a : At) (f : Fields) (s : State) : Outcome State Fault Refusal :=
  .next (s.vecInt a f (fun x y => if x.ult y then y else x))

/-! ### Broadcast, select, iota, move (R117) -/

def execVbcast (a : At) (f : Fields) (s : State) : Outcome State Fault Refusal :=
  .next (s.vec a 0x13 (vUse .v .s .none_ .none_) [0, 0xD] f (fun _ sl =>
    sl.wvPred f (fun _ => (sl.rs f.src1).setWidth 32)))
def execVsel (a : At) (f : Fields) (s : State) : Outcome State Fault Refusal :=
  .next (s.vec a 0x13 (vUse .v .v .v .p) [0, 0xD] f (fun _ sl =>
    sl.wvPred f (fun i => if (sl.rp f.src3.toNat).getLsbD i then sl.lane f.src1 i else sl.lane f.src2 i)))
def execViota (a : At) (f : Fields) (s : State) : Outcome State Fault Refusal :=
  .next (s.vec a 0x13 (vUse .v .none_ .none_ .none_) [0xD] f (fun _ sl =>
    sl.wvPred f (fun i => BitVec.ofNat 32 i)))
def execVmov (a : At) (f : Fields) (s : State) : Outcome State Fault Refusal :=
  .next (s.vec a 0x13 (vUse .v .v .none_ .none_) [0, 0xD] f (fun _ sl =>
    sl.wvPred f (fun i => sl.lane f.src1 i)))

/-! ### Permutes (R120) -/

def State.permute (s : State) (a : At) (src2 src3 : Kind) (f : Fields) (pick : Slot → Nat → Lane) : State :=
  s.vec a 0x1A (vUse .v .v src2 src3) [0, 1, 0xD] f (fun _ sl => sl.wvPred f (pick sl))

def execVperm (a : At) (f : Fields) (s : State) : Outcome State Fault Refusal :=
  .next (s.permute a .v .none_ f (fun sl i => sl.lane f.src1 ((sl.lane f.src2 i).toNat % 1024)))
def execVrot (a : At) (f : Fields) (s : State) : Outcome State Fault Refusal :=
  .next (s.permute a .none_ .s f (fun sl i => sl.lane f.src1 ((i + (sl.rs f.src3).toNat) % 1024)))
def execVzip (a : At) (f : Fields) (s : State) : Outcome State Fault Refusal :=
  .next (s.permute a .v .none_ f (fun sl i => if i % 2 = 0 then sl.lane f.src1 (i / 2) else sl.lane f.src2 (i / 2)))
def execVunzip (a : At) (f : Fields) (s : State) : Outcome State Fault Refusal :=
  .next (s.permute a .v .none_ f (fun sl i =>
    if i < 512 then sl.lane f.src1 (2 * i) else sl.lane f.src2 (2 * (i - 512))))
def execVtrans32 (a : At) (f : Fields) (s : State) : Outcome State Fault Refusal :=
  .next (s.permute a .none_ .none_ f (fun sl i => sl.lane f.src1 (32 * (i % 32) + i / 32)))

/-! ### Predicate logic (R122) -/

def pUse (dst src1 src2 : Kind) : Use := { dst := dst, src1 := src1, src2 := src2, src3 := .none_, imm := [(0, 32)] }

def execPand (a : At) (f : Fields) (s : State) : Outcome State Fault Refusal :=
  .next (s.vecSlotOp a 0x1C (pUse .p .p .p) f
    (fun sl => sl.wp f.dst.toNat (sl.rp f.src1.toNat &&& sl.rp f.src2.toNat)))
def execPor (a : At) (f : Fields) (s : State) : Outcome State Fault Refusal :=
  .next (s.vecSlotOp a 0x1C (pUse .p .p .p) f
    (fun sl => sl.wp f.dst.toNat (sl.rp f.src1.toNat ||| sl.rp f.src2.toNat)))
def execPxor (a : At) (f : Fields) (s : State) : Outcome State Fault Refusal :=
  .next (s.vecSlotOp a 0x1C (pUse .p .p .p) f
    (fun sl => sl.wp f.dst.toNat (sl.rp f.src1.toNat ^^^ sl.rp f.src2.toNat)))
def execPandn (a : At) (f : Fields) (s : State) : Outcome State Fault Refusal :=
  .next (s.vecSlotOp a 0x1C (pUse .p .p .p) f
    (fun sl => sl.wp f.dst.toNat (sl.rp f.src1.toNat &&& ~~~(sl.rp f.src2.toNat))))
def execPnot (a : At) (f : Fields) (s : State) : Outcome State Fault Refusal :=
  .next (s.vecSlotOp a 0x1C (pUse .p .p .none_) f (fun sl => sl.wp f.dst.toNat (~~~(sl.rp f.src1.toNat))))
def execPset (a : At) (f : Fields) (s : State) : Outcome State Fault Refusal :=
  .next (s.vecSlotOp a 0x1C (pUse .p .none_ .none_) f (fun sl => sl.wp f.dst.toNat (BitVec.allOnes 1024)))
def execPclr (a : At) (f : Fields) (s : State) : Outcome State Fault Refusal :=
  .next (s.vecSlotOp a 0x1C (pUse .p .none_ .none_) f (fun sl => sl.wp f.dst.toNat 0))
def execPfirst (a : At) (f : Fields) (s : State) : Outcome State Fault Refusal :=
  .next (s.vecSlotOp a 0x1C (pUse .p .s .none_) f
    (fun sl => sl.wp f.dst.toNat (BitVec.ofNat 1024 (2 ^ (min (sl.rs f.src1).toNat 1024) - 1))))

/-- The number of set bits of a predicate. -/
def popCount (p : PredBits) : Nat := ((List.range 1024).filter (fun i => p.getLsbD i)).length

def execPcount (a : At) (f : Fields) (s : State) : Outcome State Fault Refusal :=
  .next (s.vecSlotOp a 0x1C (pUse .s .p .none_) f
    (fun sl => sl.ws f.dst (BitVec.ofNat 64 (popCount (sl.rp f.src1.toNat)))))
def execPany (a : At) (f : Fields) (s : State) : Outcome State Fault Refusal :=
  .next (s.vecSlotOp a 0x1C (pUse .s .p .none_) f (fun sl => sl.ws f.dst (boolWord (sl.rp f.src1.toNat != 0))))

end Sys2Proof.Machine
end

