-- ==== Sys2Proof/Machine/VectorMem.lean ====
section
/-!
DEFINITION. Vector loads and stores (R119), gather and scatter (R121), and reductions (R123).
-/
namespace Sys2Proof.Machine
open Host

/-! ### Loads and stores (R119) -/

/-- Fields of a vector load or store; vimm is used. -/
def vldUse (src3 : Kind) : Use := { dst := .v, src1 := .d, src2 := .s, src3 := src3, imm := [] }

/-- Byte offset within the descriptor (R119). -/
def vldOffset (sl : Slot) (f : Fields) : Nat := (sl.rs f.src2 + BitVec.ofNat 64 (16 * f.vimm)).toNat

/-- Descriptor formats that a lane format takes in VLD.W and VST.N (R119). -/
def narrowFmts (fmt : Nat) : List Nat := if fmt = 0xD then [0xC, 0xE] else [1, 2, 3, 4]

/-- The format in which the bytes of the range are read or written: the descriptor's, or the lane format where
the descriptor carries 0xF in the compatibility profile (R144). -/
def memFmt (sl : Slot) (fmt : Nat) (f : Fields) : Nat :=
  let d := descFmt (sl.rd f.src1.toNat)
  if d = 15 then fmt else d

/-- The lane format in which the values are taken: FP32 where the compatibility profile decodes a format that the
operand does not accept (R144). -/
def valueFmt (wide : Bool) (fmt c : Nat) : Nat :=
  if (if wide then narrowFmts fmt else [fmt]).contains c then fmt else 0

/-- Bytes that 1,024 elements of a format take in the range. -/
def laneBytes (c : Nat) : Nat := rowBytes c 1024

/-- σ of VLD.W and VST.N: 1.0 where src3 is s0 (R119). -/
def sigmaBits (sl : Slot) (f : Fields) : Nat :=
  if f.src3 = 0 then 0x3F800000 else (sl.rs f.src3).toNat % 2 ^ 32

/-- Checks of a vector load or store at issue. `accepted` are the descriptor formats taken. -/
def vldStop (wide store : Bool) (f : Fields) (s : State) (a : At) : Option Stop :=
  let sl := s.at_ a
  let compat := sl.id.profile
  let fmts := if wide then [0, 0xD] else [0, 1, 0xD]
  let fmt := laneFmt fmts f
  let r := f.src1.toNat
  let w := sl.rd r
  let accepted := if wide then narrowFmts fmt else [fmt]
  let n := laneBytes (memFmt sl fmt f)
  let off := vldOffset sl f
  firstStop [
    badField compat (vldUse (if wide then .s else .none_)) f,
    badFormat compat 0 f.fmt fmts,
    badDesc sl 0 42 r,
    badFormat compat 1 (descFmt w) accepted,
    if wide then badScale 1 1 (sigmaBits sl f) else none,
    stopIf (!compat && off + n > descLen w) (.instr 0x0106 (r % 16)),
    mustWait sl (some .vector) [{ acc := false, write := store, base := descBase w + off, len := n }]]

/-- The part of an access that lies within the descriptor, in bytes (R144 clips the rest). -/
def insideDesc (w : Word) (off n : Nat) : Nat := min n (descLen w - off)

/-- The access was clipped, by the descriptor or by the allotment (R144). -/
def clipsAccess (sl : Slot) (w : Word) (off n : Nat) : Bool :=
  decide (off + n > descLen w) || decide (descBase w + off + n > sl.allot.bufLen)

/-- Bytes of a range from an offset; what lies beyond the descriptor reads 0 (R144). -/
def State.descByte (s : State) (a : At) (w : Word) (off i : Nat) : Nat :=
  if off + i < descLen w then (s.bufAt a (descBase w + off + i)).toNat else 0

/-- The lane that a decoded element gives in a lane format, σ applied exactly and rounded once (R119). -/
def elemLane (fmt : Nat) (sigma : Fv) (e : Elem) : Lane :=
  if fmt = 0xD then toInt32 (e.val.mul sigma)
  else if fmt = 1 then
    let h := bf16.round (e.val.mul sigma)
    halves h 0
  else (e.val.mul sigma).toLane

/-- A vector load: whole lanes where the formats agree, else decoded elements (R119, R144). -/
def State.vectorLoad (s : State) (a : At) (wide : Bool) (f : Fields) : State :=
  s.run a 0x18 8 (fun s => vldStop wide false f s a) (fun s =>
    let sl := s.at_ a
    let fmt := laneFmt (if wide then [0, 0xD] else [0, 1, 0xD]) f
    let w := sl.rd f.src1.toNat
    let c := memFmt sl fmt f
    let off := vldOffset sl f
    let rd := s.descByte a w off
    let sigma := fp32.decode (sigmaBits sl f)
    let lane (i : Nat) : Lane :=
      if !wide && c = fmt then BitVec.ofNat 32 (ofBytes ((List.range 4).map (fun j => BitVec.ofNat 8 (rd (4 * i + j)))))
      else elemLane (valueFmt wide fmt c) (if wide then sigma else .fin false 1 0) (decodeAt c rd i)
    (s.setAt a (sl.wvPred f lane)).countClip a (clipsAccess sl w off (laneBytes c)))

def execVld (a : At) (f : Fields) (s : State) : Outcome State Fault Refusal :=
  .next (s.vectorLoad a false f)
def execVldW (a : At) (f : Fields) (s : State) : Outcome State Fault Refusal :=
  .next (s.vectorLoad a true f)

/-- The exact value of a lane in a lane format. -/
def laneVal (fmt : Nat) (x : Lane) : Fv := if fmt = 0xD then Fv.ofInt x.toInt else .ofLane x

/-- Bytes of a range with the elements of written lanes replaced; masked lanes keep their bytes (R119). -/
def mergeLanes (on : Nat → Bool) (n : Nat) (old new : Nat → List Byte) : List Byte :=
  (List.range n).flatMap (fun i => if on i then new i else old i)

/-- A vector store (R119): whole lanes where the formats agree, else each lane quantised, v / σ, with its
saturations counted. -/
def State.vectorStore (s : State) (a : At) (wide : Bool) (f : Fields) : State :=
  s.run a 0x19 8 (fun s => vldStop wide true f s a) (fun s =>
    let sl := s.at_ a
    let fmt := laneFmt (if wide then [0, 0xD] else [0, 1, 0xD]) f
    let w := sl.rd f.src1.toNat
    let c := memFmt sl fmt f
    let off := vldOffset sl f
    let n := laneBytes c
    let clip := clipsAccess sl w off n
    let old (i k : Nat) : List Byte := (List.range k).map (fun j => BitVec.ofNat 8 (s.descByte a w off (k * i + j)))
    let on := laneOn f sl
    if !(List.range 1024).any on then s.countClip a clip
    else if !wide && c = fmt then
      let bs := mergeLanes on 1024 (fun i => old i 4) (fun i => toBytes 4 (sl.lane f.dst i).toNat)
      (s.bufWrite a (descBase w + off) (bs.take (insideDesc w off n))).countClip a clip
    else if isBlockFmt c then
      let q := quantRow c none ((List.range 1024).map (fun i => laneVal (valueFmt wide fmt c) (sl.lane f.dst i)))
      ((s.bufWrite a (descBase w + off) (q.bytes.take (insideDesc w off n))).count a
        { satOnStore := q.sat, zeroBlocks := q.zeros }).countClip a clip
    else
      let k := elemBits c / 8
      let sigma := if wide then fp32.decode (sigmaBits sl f) else .fin false 1 0
      let q (i : Nat) := quantElem c sigma (laneVal (valueFmt wide fmt c) (sl.lane f.dst i))
      let sat := ((List.range 1024).filter (fun i => on i && (q i).2)).length
      let bs := mergeLanes on 1024 (fun i => old i k) (fun i => toBytes k (q i).1)
      ((s.bufWrite a (descBase w + off) (bs.take (insideDesc w off n))).count a { satOnStore := sat }).countClip a clip)

def execVst (a : At) (f : Fields) (s : State) : Outcome State Fault Refusal :=
  .next (s.vectorStore a false f)
def execVstN (a : At) (f : Fields) (s : State) : Outcome State Fault Refusal :=
  .next (s.vectorStore a true f)

/-! ### Gather and scatter (R121) -/

def gatherUse : Use := { dst := .v, src1 := .d, src2 := .v, src3 := .none_, imm := [(0, 23)] }

/-- Byte offset that a lane's index names (R121). -/
def gatherOff (sl : Slot) (f : Fields) (i : Nat) : Nat := 4 * (sl.lane f.src2 i).toNat

/-- Lanes whose index lies beyond the descriptor. -/
def beyondLanes (sl : Slot) (f : Fields) : List Nat :=
  (List.range 1024).filter (fun i => laneOn f sl i && gatherOff sl f i + 4 > descLen (sl.rd f.src1.toNat))

def gatherStop (store : Bool) (f : Fields) (s : State) (a : At) : Option Stop :=
  let sl := s.at_ a
  let compat := sl.id.profile
  let r := f.src1.toNat
  firstStop [
    badField compat gatherUse f,
    badFormat compat 0 f.fmt [0, 1, 0xD],
    badDesc sl 0 42 r,
    stopIf (!compat && !(beyondLanes sl f).isEmpty) (.instr 0x0106 (r % 16)),
    mustWait sl (some .vector) [descSpan (sl.rd r) store]]

def execVgather (a : At) (f : Fields) (s : State) : Outcome State Fault Refusal :=
  .next (s.run a 0x1B 8 (fun s => gatherStop false f s a) (fun s =>
    let sl := s.at_ a
    let w := sl.rd f.src1.toNat
    let lane (i : Nat) : Lane :=
      BitVec.ofNat 32 (ofBytes ((List.range 4).map (fun j => BitVec.ofNat 8 (s.descByte a w (gatherOff sl f i) j))))
    (s.setAt a (sl.wvPred f lane)).count a { satOnStore := (beyondLanes sl f).length }))

/-- Lanes scattered one after another, the highest last (R121). -/
def State.scatter (s : State) (a : At) (f : Fields) (lanes : List Nat) : State :=
  let sl := s.at_ a
  let w := sl.rd f.src1.toNat
  lanes.foldl (fun s i =>
    if laneOn f sl i && gatherOff sl f i + 4 ≤ descLen w then
      s.bufWrite a (descBase w + gatherOff sl f i) (toBytes 4 (sl.lane f.dst i).toNat)
    else s) s

def execVscatter (a : At) (f : Fields) (s : State) : Outcome State Fault Refusal :=
  .next (s.run a 0x1B 8 (fun s => gatherStop true f s a) (fun s =>
    (s.scatter a f (List.range 1024)).count a { satOnStore := (beyondLanes (s.at_ a) f).length }))

/-! ### Reductions (R123) -/

/-- vimm[3:0] is g; the rest of vimm is reserved. -/
def reduceUse : Use := { dst := .v, src1 := .v, src2 := .none_, src3 := .none_, imm := [(4, 19)] }

/-- DEDUCED (log entry 18). -/
def reduceG (f : Fields) : Nat := fieldOf f.imm.toNat 0 4

/-- The fixed pairwise tree: at each level a lane of an aligned group adds the lane half a group above it
(R123). -/
def pairTree {α : Type} (add : α → α → α) (d : α) : Nat → List α → α
  | 0, l => l.headD d
  | g + 1, l => add (pairTree add d g (l.take (2 ^ g))) (pairTree add d g (l.drop (2 ^ g)))

/-- The lanes of segment `j`, those masked by the predicate as none. -/
def segment (sl : Slot) (f : Fields) (g j : Nat) : List (Option Lane) :=
  (List.range (2 ^ g)).map (fun t =>
    let i := 2 ^ g * j + t
    if laneOn f sl i then some (sl.lane f.src1 i) else none)

/-- A reduction: `red` gives the result of a segment, written to the segment's lanes under R116.
DEDUCED (log entry 18). -/
def State.reduce (s : State) (a : At) (major : Nat) (fmts : List Nat) (f : Fields)
    (red : Nat → Nat → List (Option Lane) → Lane) : State :=
  s.issue a major 8 (fun s =>
    let sl := s.at_ a
    match firstStop [badField sl.id.profile reduceUse f, stopIf (decide (reduceG f > 10)) (.instr 0x0102 0),
        badFormat sl.id.profile 0 f.fmt fmts, mustWait sl (some .vector) []] with
    | some x => s.stopAt a major x
    | none => s.guarded a 0x0805 major (fun s =>
      let g := reduceG f
      let res := (List.range (1024 / 2 ^ g)).map (fun j => red (laneFmt fmts f) g (segment (s.at_ a) f g j))
      ((s.setAt a ((s.at_ a).wvPred f (fun i => res.getD (i / 2 ^ g) 0))).advance a 8).tick))

def sumSeg (g : Nat) (l : List (Option Lane)) : Lane := pairTree addLane 0 g (l.map (fun x => x.getD 0))

/-- Canonical NaN of a lane. -/
def nanLane : Lane := 0x7FC00000

/-- The extreme of a segment, from its identity; the canonical NaN if a lane is NaN (R123). -/
def extremeSeg (pick : Fv → Fv → Fv) (start : Fv) (l : List (Option Lane)) : Lane :=
  (l.foldl (fun acc x => match x with | some y => pick acc (.ofLane y) | none => acc) start).toLane

def execRsum (a : At) (f : Fields) (s : State) : Outcome State Fault Refusal :=
  .next (s.reduce a 0x1D [0] f (fun _ g l => sumSeg g l))
def execRmax (a : At) (f : Fields) (s : State) : Outcome State Fault Refusal :=
  .next (s.reduce a 0x1D [0] f (fun _ _ l => extremeSeg fvMax (.inf true) l))
def execRmin (a : At) (f : Fields) (s : State) : Outcome State Fault Refusal :=
  .next (s.reduce a 0x1D [0] f (fun _ _ l => extremeSeg fvMin (.inf false) l))
def execRsumsq (a : At) (f : Fields) (s : State) : Outcome State Fault Refusal :=
  .next (s.reduce a 0x1D [0] f (fun _ g l => sumSeg g (l.map (fun x => x.map (fun y => mulLane y y)))))
def execIrsum (a : At) (f : Fields) (s : State) : Outcome State Fault Refusal :=
  .next (s.reduce a 0x1D [0xD] f (fun _ _ l => (l.map (fun x => x.getD 0)).foldl (· + ·) 0))

/-- The lowest index within the segment that holds the extreme value, or of the first NaN (R123). `before` says that
the first value is the more extreme one. DEDUCED (log entry 17). -/
def argSeg (before : Fv → Fv → Bool) (fmt : Nat) (l : List (Option Lane)) : Option Nat :=
  let vals := (List.range l.length).filterMap (fun i =>
    match l.getD i none with | some x => some (i, laneVal fmt x) | none => none)
  match vals.find? (fun e => e.2.isNan) with
  | some e => some e.1
  | none => (vals.foldl (fun best e =>
      match best with
      | none => some e
      | some b => if before e.2 b.2 then some e else some b) none).map (·.1)

/-- A segment with every lane masked has no extreme: its result is a free value. DEDUCED (log entry 17). -/
def State.argReduce (s : State) (a : At) (f : Fields) (before : Fv → Fv → Bool) : State :=
  s.reduce a 0x1E [0, 0xD] f (fun fmt _ l =>
    match argSeg before fmt l with
    | some i => BitVec.ofNat 32 i
    | none => Config.freeLane s.freeCtr)

def execArgmax (a : At) (f : Fields) (s : State) : Outcome State Fault Refusal :=
  .next (s.argReduce a f (fun x y => y.lt x))
def execArgmin (a : At) (f : Fields) (s : State) : Outcome State Fault Refusal :=
  .next (s.argReduce a f (fun x y => x.lt y))

end Sys2Proof.Machine
end

