-- ==== Sys2Proof/Machine/Move.lean ====
section
/-!
DEFINITION. DMA (R124), convert and quantise (R125), memory copy and fill (R126) and tier hints (R307, R308).
-/
namespace Sys2Proof.Machine
open Host

/-! ### Format M (R107) -/

def mUse (dst src1 src2 src3 : Kind) : Use := { dst := dst, src1 := src1, src2 := src2, src3 := src3, imm := [(16, 15)] }
def Queued.duePost (q : Queued) : List Nat := match q.post with | some i => [i] | none => []
def postOf (f : Fields) : Option Nat := if f.imm.toNat.testBit 31 then some (fieldOf f.imm.toNat 0 16) else none

/-- A completed command leaves its post due (R124, R131). -/
def State.duePost (s : State) (a : At) (p : Option Nat) : State :=
  match p with
  | none => s
  | some i => let sl := s.at_ a; s.setAt a { sl with posts := sl.posts ++ [i] }

/-- Bytes that the DMA engine moved are counted (R137). -/
def State.countDma (s : State) (a : At) (n : Nat) : State :=
  let sl := s.at_ a
  s.setAt a { sl with act := { sl.act with dmaBytes := satAdd 64 sl.act.dmaBytes n } }

/-- The first emulated use of a unit class in a context is reported (R146): 0 media, 1 DDR tier, 2 links. -/
def State.emulate (s : State) (a : At) (cls : Nat) : State :=
  let sl := s.at_ a
  let j := s.job sl.id.ctx
  if !sl.id.profile || j.emulated.contains cls then s
  else
    let detail := a.core * 2 ^ 56 + a.slot * 2 ^ 54 + cls * 2 ^ 32 + sl.pc % 2 ^ 32
    (s.coreEvent a 0x0110 0 detail).setJob sl.id.ctx { j with emulated := j.emulated ++ [cls] }

/-- An access to the tier window of a part without the tier, or over links that the part lacks, is emulated
(R145). -/
def State.emulateTier (s : State) (a : At) (g : Nat) : State :=
  let x := g % 2 ^ 52
  if s.variant = .tbx20l then
    match s.remoteOf g with
    | some p => if (s.routeTo p).mask / 2 ^ 32 ≠ 0 then s.emulate a 2 else s
    | none => s
  else if s.variant = .tbx20d && ddrBase ≤ x && x < ddrEnd then s.emulate a 1 else s

/-! ### DMA (R124) -/

/-- Rows of a shape: 0 or 1 names one run (R124). -/
def shapeRows (w : Word) : Nat := let n := w.toNat / 2 ^ 32; if n ≤ 1 then 1 else n
def shapeStride (w : Word) : Nat := w.toNat % 2 ^ 32

/-- A length that the rows do not divide into multiples of 16 (R124). -/
def badShape (len rows : Nat) : Bool := decide (len % rows ≠ 0) || decide (len / rows % 16 ≠ 0)

/-- Rows to move; an empty range has none. -/
def rowCount (len rows : Nat) : Nat := if len = 0 then 0 else rows

/-- What would hold a DMA command back at any of its rows: the dikes or a moving extent (R300, R386).
DEDUCED (log entry 22). -/
def State.rowsWait (s : State) (who : Who) (write : Bool) (base stride rowLen n : Nat) : Option Stop :=
  ((List.range n).filterMap (fun i =>
    match s.devStop who write ((base + i * stride) % 2 ^ 64) rowLen with
    | some (.access _) => none
    | x => x)).head?

/-- The checks of DMA.LD and DMA.ST at issue. -/
def dmaStop (store : Bool) (f : Fields) (s : State) (a : At) : Option Stop :=
  let sl := s.at_ a
  let compat := sl.id.profile
  let w := sl.rd f.dst.toNat
  let addr := (sl.rs f.src1).toNat
  let shape := sl.rs f.src2
  let rows := shapeRows shape
  let len := descLen w
  firstStop [
    badField compat (mUse .d .s .s .none_) f,
    badDesc sl 0 47 f.dst.toNat,
    stopIf (!compat && addr % 16 ≠ 0) (.instr 0x0105 (addr % 65536)),
    stopIf (badShape len rows) (.instr 0x0102 (regInfo 0 47 24)),
    mustWait sl (some .dma) [descSpan w (!store)],
    s.rowsWait (s.whoAt a) store addr (shapeStride shape) (len / rows) (rowCount len rows)]

/-- Rows moved one after another from row `i`; the first that fails stops the command (R138). DEDUCED (log entry 22). -/
def State.dmaRows (s : State) (a : At) (store : Bool) (base addr stride rowLen i : Nat) : Nat → State × Option Stop
  | 0 => (s, none)
  | n + 1 =>
    let g := (addr + i * stride) % 2 ^ 64
    match s.devStop (s.whoAt a) store g rowLen with
    | some x => (s, some x)
    | none =>
      let s1 := (s.devSpend (s.whoAt a) store g rowLen).emulateTier a g
      let s2 :=
        if store then s1.devWrite (s.at_ a).id.ctx g (s.bufBytes a (base + i * rowLen) rowLen)
        else (s1.passFree g rowLen).bufWrite a (base + i * rowLen) (s.devRead g rowLen)
      s2.dmaRows a store base addr stride rowLen (i + 1) n

/-- A DMA between device memory and the buffer. -/
def State.dma (s : State) (a : At) (store : Bool) (f : Fields) : State :=
  s.issue a 0x38 8 (fun s =>
    match dmaStop store f s a with
    | some x => s.stopAt a 0x38 x
    | none =>
      let sl := s.at_ a
      let w := sl.rd f.dst.toNat
      let shape := sl.rs f.src2
      let rows := shapeRows shape
      let len := descLen w
      let r := s.dmaRows a store (descBase w) (sl.rs f.src1).toNat (shapeStride shape) (len / rows) 0
        (rowCount len rows)
      match r.2 with
      | some x => r.1.stopAt a 0x38 x
      | none => ((((r.1.countClip a (clipped sl w)).countDma a len).duePost a (postOf f)).advance a 8))

def execDmaLd (a : At) (f : Fields) (s : State) : Outcome State Fault Refusal :=
  .next (s.dma a false f)
def execDmaSt (a : At) (f : Fields) (s : State) : Outcome State Fault Refusal :=
  .next (s.dma a true f)

/-- How far into its source a DMA.BB reads (R124). -/
def bbReach (len : Nat) (shape : Word) : Nat :=
  if len = 0 then 0 else (shapeRows shape - 1) * shapeStride shape + len / shapeRows shape

/-- The checks of DMA.BB at issue. -/
def dmaBbStop (f : Fields) (s : State) (a : At) : Option Stop :=
  let sl := s.at_ a
  let compat := sl.id.profile
  let w := sl.rd f.dst.toNat
  let src := sl.rd f.src1.toNat
  let shape := sl.rs f.src2
  let rows := shapeRows shape
  let len := descLen w
  firstStop [
    badField compat (mUse .d .d .s .none_) f,
    badDesc sl 0 47 f.dst.toNat,
    badDesc sl 0 42 f.src1.toNat,
    stopIf (badShape len rows) (.instr 0x0102 (regInfo 0 47 24)),
    stopIf (decide (shapeStride shape % 16 ≠ 0)) (.instr 0x0102 (regInfo 0 37 0)),
    stopIf (!compat && bbReach len shape > descLen src) (.instr 0x0106 (f.src1.toNat % 16)),
    mustWait sl (some .dma) [descSpan w true, descSpan src false]]

def execDmaBb (a : At) (f : Fields) (s : State) : Outcome State Fault Refusal :=
  .next (s.run a 0x38 8 (fun s => dmaBbStop f s a) (fun s =>
    let sl := s.at_ a
    let w := sl.rd f.dst.toNat
    let src := sl.rd f.src1.toNat
    let shape := sl.rs f.src2
    let rows := shapeRows shape
    let len := descLen w
    let rowLen := len / rows
    let bs := (List.range len).map (fun i =>
      BitVec.ofNat 8 (s.descByte a src (i / rowLen * shapeStride shape) (i % rowLen)))
    ((((s.bufWrite a (descBase w) bs).countClip a
      (clipped sl w || clipped sl src || bbReach len shape > descLen src)).countDma a len).duePost a (postOf f))))

/-! ### CVT (R125) -/

/-- src2 is reserved in current-block mode (R579). -/
def cvtUse (given : Bool) : Use :=
  { dst := .d, src1 := .d, src2 := if given then .s else .none_, src3 := .s, imm := [(1, 31)] }

/-- Elements of one row, and rows, of a source range (R125); none where the row length does not divide it. -/
def cvtShape (c len n : Nat) : Option (Nat × Nat) :=
  if n = 0 then
    if len % groupBytes c = 0 then some (len / groupBytes c * groupElems c, 1) else none
  else if rowBytes c n ≠ 0 && len % rowBytes c n = 0 then some (n, len / rowBytes c n) else none

/-- Formats of the source and the destination; 0xF in the compatibility profile takes FP32, or the source's
(R144). -/
def cvtFmts (src dst : Word) : Nat × Nat :=
  let a := if descFmt src = 15 then 0 else descFmt src
  (a, if descFmt dst = 15 then a else descFmt dst)

def allFmts : List Nat := List.range 15

/-- DEDUCED (log entry 20). -/
def cvtStop (f : Fields) (s : State) (a : At) : Option Stop :=
  let sl := s.at_ a
  let compat := sl.id.profile
  let given := f.imm.toNat.testBit 0
  let src := sl.rd f.src1.toNat
  let dst := sl.rd f.dst.toNat
  let c := cvtFmts src dst
  let fits := match cvtShape c.1 (descLen src) (sl.rs f.src3).toNat with
    | some (n, rows) => decide (descLen dst = rows * rowBytes c.2 n)
    | none => false
  firstStop [
    badField compat (cvtUse given) f,
    badDesc sl 0 47 f.dst.toNat,
    badDesc sl 0 42 f.src1.toNat,
    badFormat compat 1 (descFmt src) allFmts,
    badFormat compat 3 (descFmt dst) allFmts,
    if given && takesScale c.2 then badScale 3 c.2 ((sl.rs f.src2).toNat % 2 ^ 32) else none,
    stopIf (!fits) (.instr 0x0102 (regInfo 0 47 24)),
    mustWait sl (some .dma) [descSpan src false, descSpan dst true]]

/-- Rows read in one format and quantised into another (R79, R82, R84, R85): the bytes, the saturations, the zero
blocks and the markers read. DEDUCED (log entry 20). -/
def convertRows (ca cb : Nat) (given : Option Nat) (rd : Nat → Nat) (n : Nat) :
    Nat → Nat → List Byte × NumCount
  | _, 0 => ([], {})
  | r, k + 1 =>
    let es := decodeRow ca (fun i => rd (r * rowBytes ca n + i)) n
    let q := quantRow cb given (es.map (·.val))
    let rest := convertRows ca cb given rd n (r + 1) k
    (q.bytes ++ rest.1,
      NumCount.add { satOnStore := q.sat, zeroBlocks := q.zeros, markersRead := markersIn es } rest.2)

def execCvt (a : At) (f : Fields) (s : State) : Outcome State Fault Refusal :=
  .next (s.run a 0x3A 8 (fun s => cvtStop f s a) (fun s =>
    let sl := s.at_ a
    let src := sl.rd f.src1.toNat
    let dst := sl.rd f.dst.toNat
    let c := cvtFmts src dst
    let given := if f.imm.toNat.testBit 0 && takesScale c.2 then some (scaleField c.2 (sl.rs f.src2).toNat) else none
    match cvtShape c.1 (descLen src) (sl.rs f.src3).toNat with
    | none => s
    | some (n, rows) =>
      let r := convertRows c.1 c.2 given (s.descByte a src 0) n 0 rows
      ((s.bufWrite a (descBase dst) r.1).count a r.2).countClip a (clipped sl src || clipped sl dst)))

/-! ### MCOPY and MFILL (R126) -/

/-- The first misaligned one of an instruction's addresses and lengths (R126). DEDUCED (log entry 21). -/
def badAlign (compat : Bool) (xs : List Nat) : Option Stop :=
  if compat then none
  else (xs.find? (fun x => x % 16 ≠ 0)).map (fun x => .instr 0x0105 (x % 65536))

/-- DEDUCED (log entry 21). -/
def execMcopy (a : At) (f : Fields) (s : State) : Outcome State Fault Refusal :=
  .next (s.run a 0x3B 8
    (fun s =>
      let sl := s.at_ a
      let dst := (sl.rs f.dst).toNat
      let src := (sl.rs f.src1).toNat
      let n := (sl.rs f.src2).toNat
      firstStop [
        badField sl.id.profile (mUse .s .s .s .none_) f,
        badAlign sl.id.profile [dst, src, n],
        mustWait sl (some .dma) [],
        s.devStop (s.whoAt a) false src n,
        s.devStop (s.whoAt a) true dst n])
    (fun s =>
      let sl := s.at_ a
      let dst := (sl.rs f.dst).toNat
      let src := (sl.rs f.src1).toNat
      let n := (sl.rs f.src2).toNat
      let bs := s.devRead src n
      let s := ((s.devSpend (s.whoAt a) false src n).devSpend (s.whoAt a) true dst n).passFree src n
      ((((s.devWrite sl.id.ctx dst bs).emulateTier a src).emulateTier a dst).countDma a n).duePost a (postOf f)))

/-- A 64-bit pattern over `n` bytes. -/
def patternBytes (w : Word) (n : Nat) : List Byte := (List.range n).map (fun i => (w >>> (8 * (i % 8))).setWidth 8)

/-- DEDUCED (log entry 21). -/
def execMfill (a : At) (f : Fields) (s : State) : Outcome State Fault Refusal :=
  .next (s.run a 0x3B 8
    (fun s =>
      let sl := s.at_ a
      let dst := (sl.rs f.dst).toNat
      let n := (sl.rs f.src2).toNat
      firstStop [
        badField sl.id.profile (mUse .s .none_ .s .s) f,
        badAlign sl.id.profile [dst, n],
        mustWait sl (some .dma) [],
        s.devStop (s.whoAt a) true dst n])
    (fun s =>
      let sl := s.at_ a
      let dst := (sl.rs f.dst).toNat
      let n := (sl.rs f.src2).toNat
      let bs := patternBytes (sl.rs f.src3) n
      ((((s.devSpend (s.whoAt a) true dst n).devWrite sl.id.ctx dst bs).emulateTier a dst).countDma a n).duePost a
        (postOf f)))

/-! ### Tier hints (R307, R308) -/

/-- The tier dies take moves (R305, R306). -/
def State.tierUp (s : State) : Bool := s.dieUp 0x10 || s.dieUp 0x11

/-- Extents of the context's hints that are still in flight (R308). -/
def State.hintsOf (s : State) (ctx : Nat) : Nat :=
  (s.sluices.filter (fun e => e.2.hintSlot ≠ none && recField e.2.cmd 30 2 % 4096 = ctx)).length

/-- A hinted extent that the lantern declines (R308). DEDUCED (log entry 126). -/
def State.declines (s : State) (who : Who) (tier x : Nat) : Bool :=
  let h := s.home x
  let o := s.objOf x
  h.state = 0 || o.polder ≠ who.polder || o.pin || s.objHoldsCode o || h.state = 4 || h.state = 1 || h.tier = tier
    || s.hintsOf who.ctx ≥ 64

/-- A sluice command (R298). -/
def sluiceCmd (src count op tier flags polder dest deadline sem ctx : Nat) : List Byte :=
  toBytes 8 src ++ toBytes 4 count ++ toBytes 1 op ++ toBytes 1 tier ++ toBytes 1 flags ++ toBytes 1 polder
    ++ toBytes 8 dest ++ toBytes 4 deadline ++ toBytes 2 sem ++ toBytes 2 ctx

/-- A sluice command takes a handle and its place. -/
def State.addSluice (s : State) (v : Sluice) : State :=
  { s with sluices := mapSet {} s.sluices s.nextHandle v, nextHandle := s.nextHandle + 1 }

/-- One hinted extent: turned into a move of the object's polder, or declined and counted (R308).
DEDUCED (log entry 126). -/
def State.hint (s : State) (a : At) (tier x : Nat) : State :=
  let who := s.whoAt a
  if s.declines who tier x then
    let sl := s.at_ a
    s.setAt a { sl with act := { sl.act with declined := satAdd 64 sl.act.declined 1 } }
  else
    s.addSluice { cmd := sluiceCmd (x * extentBytes) 1 0 tier 0 (s.objOf x).polder 0 0 0 who.ctx,
                  hintSlot := some (4 * a.core + a.slot) }

/-- [36:0] is one reserved field (R307). DEDUCED (log entry 126). -/
def tierStop (where_ : Bool) (f : Fields) (s : State) (a : At) : Option Stop :=
  let sl := s.at_ a
  let compat := sl.id.profile
  firstStop [
    badField compat { dst := .s, src1 := .s, src2 := if where_ then .none_ else .s, src3 := .s, imm := [] } f,
    stopIf (!compat && (f.src3 ≠ 0 || f.imm ≠ 0)) (.instr 0x0102 0),
    stopIf (!compat && !where_ && !s.tierUp) (.instr 0x0104 0x10),
    stopIf (!compat && where_ && s.variant = .tbx20d && ddrBase ≤ (sl.rs f.src1).toNat
      && (sl.rs f.src1).toNat < ddrEnd) (.instr 0x0104 0x10),
    mustWait sl (some .dma) []]

def State.tierHint (s : State) (a : At) (f : Fields) (tier : Nat) : State :=
  s.run a 0x39 8 (fun s => tierStop false f s a) (fun s =>
    let sl := s.at_ a
    let xs := blocksOf extentBytes (sl.rs f.src1).toNat (sl.rs f.src2).toNat
    let s := xs.foldl (fun s x => s.hint a tier x) s
    let s := if s.variant = .tbx20d then s.emulate a 1 else s
    s.setAt a ((s.at_ a).ws f.dst (BitVec.ofNat 64 xs.length)))

def execTierUp (a : At) (f : Fields) (s : State) : Outcome State Fault Refusal :=
  .next (s.tierHint a f 0)
def execTierDown (a : At) (f : Fields) (s : State) : Outcome State Fault Refusal :=
  .next (s.tierHint a f 1)

/-- The word that TIER.WHERE gives (R307). -/
def Home.whereWord (h : Home) : Nat := h.state + h.tier * 16 + h.slicesM1 * 64

def execTierWhere (a : At) (f : Fields) (s : State) : Outcome State Fault Refusal :=
  .next (s.run a 0x39 8 (fun s => tierStop true f s a) (fun s =>
    let sl := s.at_ a
    s.setAt a (sl.ws f.dst (BitVec.ofNat 64 (s.home ((sl.rs f.src1).toNat / extentBytes)).whereWord))))

end Sys2Proof.Machine
end

