-- ==== Sys2Proof/Machine/Sync.lean ====
section
/-!
DEFINITION. Semaphores, barriers, engine waits (R127 to R134) and the system instructions (R136, R137).
-/
namespace Sys2Proof.Machine
open Host

/-- Writes of the context wait at a moving extent (R300). DEDUCED (log entry 24). -/
def State.writesHeld (s : State) (ctx : Nat) : Bool := s.mem.held.any (fun h => h.ctx = ctx)

/-- A collective that the slot issued is not complete (R416). -/
def State.collBusy (s : State) (a : At) : Bool :=
  let sl := s.at_ a
  s.levee.colls.any (fun r => decide (r.ctx = sl.id.ctx) && decide (r.stage = sl.stage) && decide (r.task = sl.task))

/-- Earlier commands or writes of the slot's context are not complete (R128, R129). DEDUCED (log entry 24). -/
def State.outstanding (s : State) (a : At) : Bool :=
  (s.at_ a).busy || s.collBusy a || s.writesHeld (s.at_ a).id.ctx

/-- The wait of a fence, and of the fence that a post implies. DEDUCED (log entry 24). -/
def fenceStop (s : State) (a : At) : Option Stop := stopIf (s.outstanding a) (.wait .outstanding)

/-! ### Semaphores (R131 to R133) -/

def semUse (dst src2 src3 : Kind) : Use := { dst := dst, src1 := .s, src2 := src2, src3 := src3, imm := [(16, 16)] }

/-- The index: (s[src1] + index) mod 65,536 (R131). -/
def semIndex (sl : Slot) (f : Fields) : Nat := ((sl.rs f.src1).toNat + fieldOf f.imm.toNat 0 16) % 65536
def semCount (sl : Slot) (f : Fields) : Nat := (sl.rs f.src2).toNat % 2 ^ 32

def execSemPost (a : At) (f : Fields) (s : State) : Outcome State Fault Refusal :=
  .next (s.run a 0x3C 8
    (fun s =>
      let sl := s.at_ a
      let m := s.sem sl.id.ctx (semIndex sl f)
      firstStop [
        badField sl.id.profile (semUse .none_ .s .none_) f,
        fenceStop s a,
        stopIf (!m.poison && !sl.id.profile && m.value + semCount sl f > 0xFFFFFFFF)
          (.instr 0x010A (semIndex sl f))])
    (fun s =>
      let sl := s.at_ a
      let i := semIndex sl f
      let m := s.sem sl.id.ctx i
      if m.poison then s else s.semValue sl.id.ctx i (min (m.value + semCount sl f) 0xFFFFFFFF)))

def execSemSet (a : At) (f : Fields) (s : State) : Outcome State Fault Refusal :=
  .next (s.run a 0x3C 8
    (fun s => firstStop [badField (s.at_ a).id.profile (semUse .none_ .s .none_) f, fenceStop s a])
    (fun s =>
      let sl := s.at_ a
      let i := semIndex sl f
      if (s.sem sl.id.ctx i).poison then s else s.semValue sl.id.ctx i (semCount sl f)))

def execSemRead (a : At) (f : Fields) (s : State) : Outcome State Fault Refusal :=
  .next (s.slotOp a 0x3C (semUse .s .none_ .none_) f (fun sl =>
    sl.ws f.dst (BitVec.ofNat 64 (s.sem sl.id.ctx (semIndex sl f)).value)))

/-- A wait that is met at issue: its count is 0, or no earlier waiter stands and the value suffices (R131,
R132). -/
def waitMet (m : Sem) (count : Nat) : Bool := count = 0 || (m.waiters.isEmpty && count ≤ m.value)

/-- SEM.WAIT and SEM.WAITGE (R131, R133): met at once, or the slot waits at the back of the order. -/
def State.semWait (s : State) (a : At) (f : Fields) (keep : Bool) : State :=
  s.issue a 0x3C 8 (fun s =>
    let sl := s.at_ a
    let i := semIndex sl f
    let n := semCount sl f
    let m := s.sem sl.id.ctx i
    match firstStop [badField sl.id.profile (semUse .s .s .s) f, stopIf m.poison (.instr 0x0109 i)] with
    | some x => s.stopAt a 0x3C x
    | none =>
      if waitMet m n then
        let s := if keep then s else s.setSem sl.id.ctx i { m with value := m.value - n }
        (s.setAt a ((s.at_ a).ws f.dst 1)).advance a 8
      else
        let us := (sl.rs f.src3).toNat % 2 ^ 32
        let s := s.setSem sl.id.ctx i
          { m with waiters := m.waiters ++ [{ place := 4 * a.core + a.slot, count := n, keep := keep }] }
        let s := s.advance a 0
        s.setAt a { s.at_ a with wait := some (.sem i n f.dst.toNat keep us) })

def execSemWait (a : At) (f : Fields) (s : State) : Outcome State Fault Refusal :=
  .next (s.semWait a f false)
def execSemWaitge (a : At) (f : Fields) (s : State) : Outcome State Fault Refusal :=
  .next (s.semWait a f true)

/-- A waiter leaves the order without being satisfied; those behind it may now be (R132). -/
def State.dropWaiter (s : State) (ctx i place : Nat) : State :=
  let m := s.sem ctx i
  let s := s.setSem ctx i { m with waiters := m.waiters.filter (fun w => decide (w.place ≠ place)) }
  s.semValue ctx i m.value

/-- The timeout of a pending wait expires: it returns 0 and the value is untouched (R132). A wait without a
limit has no timeout. -/
def execSemWaitTimeout (a : At) (s : State) : Outcome State Fault Refusal :=
  let sl := s.at_ a
  .next (match sl.wait with
    | some (.sem i _ _ _ us) =>
      if us = 0 then s
      else
        let place := 4 * a.core + a.slot
        (s.wake place 0).dropWaiter sl.id.ctx i place
    | _ => s)

/-! ### Barriers (R134) -/

def barKey (stage i : Nat) : Nat := stage * 256 + i % 256
def taskKey (stage t : Nat) : Nat := stage * 4096 + t
def Job.task (j : Job) (stage t : Nat) : Task := mapGet {} j.tasks (taskKey stage t)
def Job.setTask (j : Job) (stage t : Nat) (v : Task) : Job := { j with tasks := mapSet {} j.tasks (taskKey stage t) v }
def Job.stage (j : Job) (i : Nat) : Stage := j.stages.getD i {}
def Job.barrier (j : Job) (stage i : Nat) : Barrier := mapGet {} j.barriers (barKey stage i)
def Job.setBarrier (j : Job) (stage i : Nat) (v : Barrier) : Job :=
  { j with barriers := mapSet {} j.barriers (barKey stage i) v }

/-- A generation of a flip barrier is held while a refresh is requested or in flight (R221). -/
def State.flipHeld (s : State) (ctx stage i : Nat) : Bool :=
  let j := s.job ctx
  match j.weights with
  | none => false
  | some w =>
    (match w.entries[stage]? with | some e => decide (e.barrier = i) | none => false)
      && (j.refresh.isSome || decide ((s.sem ctx w.beginSem).value > 0))

/-- Every task of the group has arrived or ended (R134). -/
def allArrived (j : Job) (stage : Nat) (arrived : List Nat) : Bool :=
  (List.range (j.stage stage).tasks).all (fun t => arrived.contains t || (j.task stage t).state = 4)

/-- Slots that wait at a barrier of the stage group are woken (R134). -/
def State.wakeBarrier (s : State) (ctx stage i : Nat) : State :=
  (List.range ((s.job ctx).stage stage).tasks).foldl (fun s t =>
    let k := (s.job ctx).task stage t
    if k.state = 1 then
      match (s.slot k.core k.slot).wait with
      | some (.bar i' _) => if i' = i then s.wake (4 * k.core + k.slot) 0 else s
      | _ => s
    else s) s

/-- A barrier releases its generation where every task has arrived and nothing holds it (R134, R221). -/
def State.settleBarrier (s : State) (held : Bool) (ctx stage i : Nat) : State :=
  let j := s.job ctx
  let b := j.barrier stage i
  if !b.arrived.isEmpty && allArrived j stage b.arrived && !held then
    (s.setJob ctx (j.setBarrier stage i { gen := b.gen + 1, arrived := [] })).wakeBarrier ctx stage i
  else s

/-- Barriers of a stage group, settled after a task ended (R134). -/
def State.settleGroup (s : State) (ctx stage : Nat) : State :=
  (List.range 256).foldl (fun s i => s.settleBarrier (s.flipHeld ctx stage i) ctx stage i) s

def execBarSync (a : At) (f : Fields) (s : State) : Outcome State Fault Refusal :=
  .next (s.issue a 0x3C 8 (fun s =>
    let sl := s.at_ a
    let i := fieldOf f.imm.toNat 0 8
    match badField sl.id.profile { dst := .none_, src1 := .none_, src2 := .none_, src3 := .none_,
                                   imm := [(16, 16), (8, 8)] } f with
    | some x => s.stopAt a 0x3C x
    | none =>
      let j := s.job sl.id.ctx
      let b := j.barrier sl.stage i
      let s := s.setJob sl.id.ctx (j.setBarrier sl.stage i { b with arrived := b.arrived ++ [sl.task] })
      let s := s.advance a 0
      let s := s.setAt a { s.at_ a with wait := some (.bar i b.gen) }
      s.settleBarrier (s.flipHeld sl.id.ctx sl.stage i) sl.id.ctx sl.stage i))

/-! ### WAIT.ENG (R131) -/

/-- Commands of the slot remain on the engines that the index names (R131). -/
def State.engBusy (s : State) (a : At) (mask : Nat) : Bool :=
  let sl := s.at_ a
  (mask.testBit 0 && !sl.qVec.isEmpty) || (mask.testBit 1 && !sl.qSfu.isEmpty)
    || (mask.testBit 2 && !sl.qTa.isEmpty) || (mask.testBit 3 && !sl.qCe.isEmpty)
    || (mask.testBit 4 && !sl.qDma.isEmpty) || (mask.testBit 5 && s.collBusy a)

def execWaitEng (a : At) (f : Fields) (s : State) : Outcome State Fault Refusal :=
  .next (s.run a 0x3C 8
    (fun s =>
      let sl := s.at_ a
      firstStop [
        badField sl.id.profile { dst := .none_, src1 := .none_, src2 := .none_, src3 := .none_,
                                 imm := [(16, 16), (6, 10)] } f,
        stopIf (s.engBusy a (fieldOf f.imm.toNat 0 6)) (.wait .outstanding)])
    (fun s => s))

/-! ### System instructions (R136, R137) -/

/-- Format X with the immediate bits that the instruction does not use (R107, R579). -/
def xUse (dst : Kind) (imm : List (Nat × Nat)) : Use :=
  { dst := dst, src1 := .none_, src2 := .none_, src3 := .none_, imm := imm }

def execNop (a : At) (f : Fields) (s : State) : Outcome State Fault Refusal :=
  .next (s.run a 0x3E 8 (fun s => badField (s.at_ a).id.profile (xUse .none_ [(0, 32)]) f) (fun s => s))

/-- A fence completes once every earlier access of the context on the core is complete (R128). -/
def execFence (a : At) (f : Fields) (s : State) : Outcome State Fault Refusal :=
  .next (s.run a 0x3E 8
    (fun s => firstStop [
      badField (s.at_ a).id.profile (xUse .none_ [(2, 30)]) f,
      stopIf (decide (fieldOf f.imm.toNat 0 2 = 3)) (.instr 0x0102 0),
      fenceStop s a])
    (fun s => s))

/-- TRAP ends the job with fault TRAP and the code imm[15:0] (R136). -/
def execTrap (a : At) (f : Fields) (s : State) : Outcome State Fault Refusal :=
  .next (s.issue a 0x3E 8 (fun s =>
    match badField (s.at_ a).id.profile (xUse .none_ [(16, 16)]) f with
    | some x => s.stopAt a 0x3E x
    | none => s.instrFault a 0x0108 0x3E (fieldOf f.imm.toNat 0 16)))

/-- A counter of CNT.READ (R137); the cycle counts are free values. DESIGN CHOICE (log entry 30). -/
def counterValue (sl : Slot) (n i : Nat) : Option Word :=
  match i with
  | 0x00 => some (BitVec.ofNat 64 sl.cnt.fallbackTiles)
  | 0x01 => some (BitVec.ofNat 64 sl.cnt.splitTiles)
  | 0x02 => some (BitVec.ofNat 64 sl.cnt.satOnLoad)
  | 0x03 => some (BitVec.ofNat 64 sl.cnt.satOnStore)
  | 0x04 => some (BitVec.ofNat 64 sl.cnt.markersRead)
  | 0x05 => some (BitVec.ofNat 64 sl.cnt.zeroBlocks)
  | 0x06 => some (BitVec.ofNat 64 sl.cnt.widespreadPosts)
  | 0x07 => some (BitVec.ofNat 64 sl.cnt.wireEscapes)
  | 0x11 => some (BitVec.ofNat 64 sl.act.issued)
  | 0x15 => some (BitVec.ofNat 64 sl.act.dmaBytes)
  | 0x18 => some (BitVec.ofNat 64 sl.act.declined)
  | 0x10 => some (Config.freeWord n)
  | 0x12 => some (Config.freeWord n)
  | 0x13 => some (Config.freeWord n)
  | 0x14 => some (Config.freeWord n)
  | 0x16 => some (Config.freeWord n)
  | 0x17 => some (Config.freeWord n)
  | _ => none

def execCntRead (a : At) (f : Fields) (s : State) : Outcome State Fault Refusal :=
  .next (s.run a 0x3E 8
    (fun s => firstStop [
      badField (s.at_ a).id.profile (xUse .s [(8, 24)]) f,
      stopIf (counterValue (s.at_ a) s.freeCtr (fieldOf f.imm.toNat 0 8) = none) (.instr 0x0102 0)])
    (fun s =>
      let sl := s.at_ a
      match counterValue sl s.freeCtr (fieldOf f.imm.toNat 0 8) with
      | some v => (s.setAt a (sl.ws f.dst v)).tick
      | none => s))

def execTime (a : At) (f : Fields) (s : State) : Outcome State Fault Refusal :=
  .next (s.slotOp a 0x3E (xUse .s [(0, 32)]) f (fun sl => sl.ws f.dst (BitVec.ofNat 64 s.time)))

/-- END ends the task once its commands have completed and its writes are visible; it counts as arrived at every
later barrier generation of its group (R134, R136). -/
def execEndTask (a : At) (f : Fields) (s : State) : Outcome State Fault Refusal :=
  .next (s.issue a 0x3E 8 (fun s =>
    match firstStop [badField (s.at_ a).id.profile (xUse .none_ [(0, 32)]) f, fenceStop s a] with
    | some x => s.stopAt a 0x3E x
    | none =>
      let sl := s.at_ a
      let j := s.job sl.id.ctx
      let s := s.setJob sl.id.ctx
        (if j.live then j.setTask sl.stage sl.task { j.task sl.stage sl.task with state := 4 } else j)
      (s.freeSlot a.core a.slot).settleGroup sl.id.ctx sl.stage))

/-- STEST enters the self-test, for context 0 only (R136, R139, R447). -/
def execStest (a : At) (f : Fields) (s : State) : Outcome State Fault Refusal :=
  .next (s.run a 0x3E 8
    (fun s => firstStop [
      badField (s.at_ a).id.profile (xUse .none_ [(0, 32)]) f,
      stopIf (decide ((s.at_ a).id.ctx ≠ 0)) (.instr 0x0107 0)])
    (fun s =>
      let c := s.core a.core
      s.setCore a.core { c with health := { c.health with underTest := true } }))

end Sys2Proof.Machine
end

