-- ==== Sys2Proof/Machine/Engines.lean ====
section
/-!
DEFINITION. The engines of a core: the sub-queues of commands that stay on an engine over several steps (R53),
the round-robin (R54) and the claim arbiter (R56), with ENGINE_DISPATCH and CLAIM_GRANT.
-/
namespace Sys2Proof.Machine
open Host

/-- The number of an engine in the maps of a core. -/
def engNum : Engine → Nat
  | .vector => 0
  | .sfu => 1
  | .tensor => 2
  | .conv => 3
  | .dma => 4

def engOf (n : Nat) : Engine :=
  match n with | 0 => .vector | 1 => .sfu | 2 => .tensor | 3 => .conv | _ => .dma

/-! ### Commands that stay on an engine (R53, R55) -/

/-- A command joins its engine's sub-queue, or waits at issue: for a hazard, a full sub-queue, or the range table
of 16 ranges. -/
def queueStop (sl : Slot) (e : Engine) (spans : List Span) : Option Stop :=
  let ranges := (sl.inFlight.flatMap (·.spans)).filter (fun x => !x.acc)
  firstStop [
    stopIf (hazard sl spans) (.wait .hazard),
    stopIf (decide ((sl.queueOf e).length ≥ engineDepth e)) (.wait .queueFull),
    stopIf (decide (ranges.length + (spans.filter (fun x => !x.acc)).length > 16)) (.wait .queueFull)]

/-- A command that has reached the head position and claims further engines posts its claim, once (R56). -/
def State.postClaim (s : State) (a : At) (e : Engine) : State :=
  let key := 8 * a.slot + engNum e
  let c := s.core a.core
  match ((s.at_ a).queueOf e).head? with
  | some q =>
    if q.granted || q.claims.isEmpty || c.claims.contains key then s
    else s.setCore a.core { c with claims := c.claims ++ [key] }
  | none => s

def State.enqueue (s : State) (a : At) (e : Engine) (q : Queued) : State :=
  let sl := s.at_ a
  (s.setAt a (sl.setQueue e (sl.queueOf e ++ [q]))).postClaim a e

/-- The head command of a sub-queue replaced as it goes on, or removed where it is complete, its post due. -/
def State.updateHead (s : State) (a : At) (e : Engine) (r : Option Queued) : State :=
  let sl := s.at_ a
  match sl.queueOf e with
  | [] => s
  | q :: rest =>
    match r with
    | some q' => (s.setAt a (sl.setQueue e (q' :: rest))).postClaim a e
    | none => ((s.setAt a (sl.setQueue e rest)).duePost a q.post).postClaim a e

/-- The slot goes on: it is resident, runs and has no fault. DESIGN CHOICE (log entry 23). -/
def Slot.goes (sl : Slot) : Bool := sl.id.resident && sl.id.state = 1 && !sl.faulted

/-- A granted claim of a slot other than `k` holds an engine (R56). -/
def State.engineHeld (s : State) (c k : Nat) (e : Engine) : Bool :=
  (List.range 4).any (fun j => j ≠ k && (s.slot c j).inFlight.any (fun q => q.granted && q.claims.contains e))

/-- A slot's head command on an engine can be served in the round-robin: it claims nothing, and no granted claim
of another slot holds the engine (R54, R56). -/
def State.servable (s : State) (c k : Nat) (e : Engine) (ok : Queued → Bool) : Bool :=
  let sl := s.slot c k
  sl.goes && !s.engineHeld c k e
    && (match (sl.queueOf e).head? with | some q => q.claims.isEmpty && ok q | none => false)

/-- The slot that an engine takes next: the one after the slot it last served whose head is ready (R54). -/
def State.nextSlot (s : State) (c : Nat) (e : Engine) (ok : Queued → Bool) : Option Nat :=
  let last := mapGet 3 (s.core c).last (engNum e)
  ([1, 2, 3, 4].map (fun i => (last + i) % 4)).find? (fun k => s.servable c k e ok)

/-- The slot whose command the engine runs now: the one taken, else the next in order. -/
def State.turn (s : State) (c : Nat) (e : Engine) (ok : Queued → Bool) : Option Nat :=
  match mapGet 0 (s.core c).taken (engNum e) with
  | k + 1 => if s.servable c k e ok then some k else s.nextSlot c e ok
  | 0 => s.nextSlot c e ok

/-- The engine has served a slot. -/
def State.served (s : State) (c : Nat) (e : Engine) (k : Nat) : State :=
  let x := s.core c
  s.setCore c { x with last := mapSet 3 x.last (engNum e) k, taken := mapSet 0 x.taken (engNum e) 0 }

/-- ENGINE_DISPATCH: an engine that runs no command takes the head command of the next slot (R54). -/
def execEngineDispatch (core : Nat) (eng : Engine) (s : State) : Outcome State Fault Refusal :=
  .next (
    let any : Queued → Bool := fun _ => true
    match s.turn core eng any with
    | some k =>
      let x := s.core core
      s.setCore core { x with taken := mapSet 0 x.taken (engNum eng) (k + 1) }
    | none => s)

/-- The head command behind a claim. -/
def State.claimant (s : State) (c key : Nat) : Option Queued :=
  ((s.slot c (key / 8)).queueOf (engOf (key % 8))).head?

/-- A claim can be granted: no engine of its set is held by a granted claim or named by an older pending one
(R56). -/
def State.grantable (s : State) (c : Nat) (older : List Nat) (key : Nat) : Bool :=
  match s.claimant c key with
  | none => false
  | some q => q.claims.all (fun e => !s.engineHeld c 4 e
      && older.all (fun o => match s.claimant c o with | some p => !p.claims.contains e | none => true))

/-- The oldest grantable claim. -/
def State.firstClaim (s : State) (c : Nat) : List Nat → List Nat → Option Nat
  | _, [] => none
  | older, k :: rest => if s.grantable c older k then some k else s.firstClaim c (older ++ [k]) rest

/-- CLAIM_GRANT: the arbiter grants the oldest claim whose engines are free of older ones (R56). -/
def execClaimGrant (core : Nat) (s : State) : Outcome State Fault Refusal :=
  .next (
    let x := s.core core
    match s.firstClaim core [] x.claims with
    | none => s
    | some key =>
      let s := s.setCore core { x with claims := x.claims.filter (fun k => decide (k ≠ key)) }
      let sl := s.slot core (key / 8)
      match sl.queueOf (engOf (key % 8)) with
      | [] => s
      | q :: rest => s.setSlot core (key / 8) (sl.setQueue (engOf (key % 8)) ({ q with granted := true } :: rest)))

/-- The claimed command at the head of a slot's queue can run its next part: its claim is granted, and each
engine of its set has finished what it took (R56). -/
def State.claimRuns (s : State) (a : At) (e : Engine) : Option Queued :=
  let sl := s.at_ a
  match (sl.queueOf e).head? with
  | some q =>
    let free (x : Engine) := let t := mapGet 0 (s.core a.core).taken (engNum x); t = 0 || t = a.slot + 1
    if sl.goes && q.granted && q.claims.all free then some q else none
  | none => none

end Sys2Proof.Machine
end

