-- ==== Sys2Proof/Machine/Tensor.lean ====
section
/-!
DEFINITION. The tensor array (chapter 05): loop descriptor tables, TMM and its tiles with on-load quantisation,
fallback, runs and promotions (R86 to R99, R150 to R163), and the TACC instructions (R147, R149).
-/
namespace Sys2Proof.Machine
open Host

/-! ### Loop descriptor tables (R150 to R153) -/

/-- A level entry (R153). -/
structure Level where
  bound : Nat
  sa : Int
  sb : Int
  sc : Int
  order : Nat
  rest : Nat
  deriving DecidableEq, Repr

def levelAt (t : List Byte) (l : Nat) : Level :=
  let b := 64 + 32 * l
  { bound := recField t b 4, sa := sext 32 (recField t (b + 4) 4), sb := sext 32 (recField t (b + 8) 4),
    sc := sext 32 (recField t (b + 12) 4), order := recField t (b + 16) 4, rest := recField t (b + 20) 12 }

def Level.pos (l : Level) : Nat := l.order % 256
def Level.output (l : Level) : Bool := l.order.testBit 8

def tblFmtA (t : List Byte) : Nat := recField t 0 1
def tblFmtB (t : List Byte) : Nat := recField t 1 1
def tblFlags (t : List Byte) : Nat := recField t 3 1
def tblLevels (t : List Byte) : Nat := recField t 4 1
def tblSpace (t : List Byte) : Nat := recField t 5 1
def tblM (t : List Byte) : Nat := recField t 6 2
def tblN (t : List Byte) : Nat := recField t 8 2
def tblK (t : List Byte) : Nat := recField t 12 4
def tblStore (t : List Byte) : Bool := (tblFlags t).testBit 6
def tblToBuf (t : List Byte) : Bool := (tblFlags t).testBit 7
def tblRunLen (t : List Byte) : Nat :=
  match fieldOf (tblFlags t) 1 2 with | 1 => 16 | 2 => 64 | _ => 32

/-- The level entries in force. -/
def tblEntries (t : List Byte) : List Level := (List.range (min (tblLevels t) 6)).map (levelAt t)

/-- The entries by position, position 0 first. -/
def byPos (ls : List Level) : List Level :=
  (List.range ls.length).filterMap (fun p => ls.find? (fun l => l.pos = p))

/-- The number of tiles of the nest. -/
def tileCount (ls : List Level) : Nat := (ls.map (·.bound)).foldl (· * ·) 1

/-- The index vector of tile `t`, position 0 varying fastest (R155). -/
def indices : List Level → Nat → List Nat
  | [], _ => []
  | l :: ls, t => t % l.bound :: indices ls (t / l.bound)

/-- Output levels below the outermost reduction level, as (index, bound), lowest position first (R155). -/
def slotDigits (ls : List (Level × Nat)) : List (Nat × Nat) :=
  let below := match (ls.reverse.dropWhile (fun e => e.1.output)) with
    | [] => []
    | _ :: rest => rest.reverse
  (below.filter (fun e => e.1.output)).map (fun e => (e.2, e.1.bound))

/-- Slots of the nest (R155). -/
def slotCount (ls : List Level) : Nat := ((slotDigits (ls.map (·, 0))).map (·.2)).foldl (· * ·) 1

/-- The slot of a tile: the mixed-radix value of those indices (R155). -/
def slotOf : List (Nat × Nat) → Nat
  | [] => 0
  | (i, b) :: l => i + b * slotOf l

/-- An offset moved by the levels' strides (R155). -/
def tileOff (off : Int) (stride : Level → Int) (ls : List Level) (is : List Nat) : Int :=
  off + ((List.zip ls is).map (fun e => (e.2 : Int) * stride e.1)).sum

/-- The byte offset of element offset `x` in a format (R154); `x` is a multiple of the group where groups are. -/
def elemByteOff (c : Nat) (x : Int) : Int := x / (groupElems c : Int) * (groupBytes c : Int)

/-- Staged bytes of a row (R156). -/
def stagedRow (c k : Nat) : Nat := if isBlockFmt c then rowBytes c k else ceilDiv (rowBytes c k) 16 * 16

/-- The compute format as the array takes it: 0 where the compatibility profile runs an unaccepted one in FP32
(R144). -/
def computeFmt (compat : Bool) (b : Nat) : Nat :=
  let c := b % 16
  if compat && (c = 0 || c > 12) then 0 else c

/-- The stored format as it is read: 0xF takes FP32 in the compatibility profile (R144). -/
def storedFmt (compat : Bool) (b : Nat) : Nat :=
  let c := b / 16 % 16
  if compat && c = 15 then 0 else c

/-- The store format of C; 0xF takes the format of A in the compatibility profile (R144). -/
def storeFmt (compat : Bool) (t : List Byte) : Nat :=
  let c := recField t 2 1 % 16
  if compat && c = 15 then storedFmt compat (tblFmtA t) else c

/-- A word whose reduction elements quantise on load (R152). -/
def onLoad (stored compute : Nat) : Bool := stored ≠ compute

/-- The σ of an operand (R88, R152). -/
def sigmaOf (c code : Nat) : Fv := if (1 ≤ c && c ≤ 4) || c = 0xC then fp32.decode code else .fin false 1 0

/-! ### Issue checks (R160) -/

def tmmUse : Use := { dst := .a, src1 := .s, src2 := .d, src3 := .none_, imm := [(16, 15)] }

/-- LOOP_DESC_BAD with its check, the offset of the offending field and its value (R161). -/
def loopBad (check off value : Nat) : Stop := .tile 0x0201 check off (value % 2 ^ 24)

/-- The first of the checks that offends. -/
def firstLevel (ls : List Level) (bad : Level → Bool) (mk : Nat → Level → Stop) : Option Stop :=
  ((List.range ls.length).filterMap (fun i =>
    match ls[i]? with
    | some l => if bad l then some (mk (64 + 32 * i) l) else none
    | none => none)).head?

def wordOf (i : Int) : Nat := (i % (2 ^ 64 : Int)).toNat

/-- Reserved fields of the table (R150, R153): check 0x02. -/
def tblReserved (t : List Byte) : Option Stop :=
  firstStop [
    stopIf (decide (recField t 2 1 / 16 ≠ 0)) (loopBad 2 2 (recField t 2 1)),
    stopIf (decide (tblSpace t / 16 ≠ 0)) (loopBad 2 5 (tblSpace t)),
    stopIf (decide (recField t 10 2 ≠ 0)) (loopBad 2 10 (recField t 10 2)),
    firstLevel (tblEntries t) (fun l => decide (l.order / 512 ≠ 0)) (fun o l => loopBad 2 (o + 16) l.order),
    firstLevel (tblEntries t) (fun l => decide (l.rest ≠ 0)) (fun o l => loopBad 2 (o + 20) l.rest)]

/-- A stored and compute pair is accepted (R152). -/
def badPair (compat : Bool) (operand b : Nat) : Option Stop :=
  let st := b / 16 % 16
  let cp := b % 16
  if compat then none
  else if st = 15 || cp = 15 then some (.instr 0x0223 (operand * 4096 + 15))
  else if cp = 0 || cp > 12 then some (.instr 0x0103 (operand * 4096 + cp))
  else if st = cp || st ≤ 2 then none
  else some (.instr 0x0103 (operand * 4096 + st))

/-- Alignment of an operand's offsets in a block-scaled stored format (R154, check 8). -/
def badOperandAlign (t : List Byte) (c : Nat) (off : Int) (baseAt strideAt ldAt : Nat) (stride : Level → Int) :
    Option Stop :=
  if !isBlockFmt c then none
  else
    let g : Int := groupElems c
    firstStop [
      stopIf (decide (off % g ≠ 0)) (loopBad 0x0A baseAt (wordOf off)),
      firstLevel (tblEntries t) (fun l => decide (stride l % g ≠ 0))
        (fun o l => loopBad 0x0A (o + strideAt) (wordOf (stride l))),
      stopIf (decide (((recField t ldAt 4 : Nat) : Int) % g ≠ 0)) (loopBad 0x0A ldAt (recField t ldAt 4))]

/-- Alignment of a block-scaled store (R154, check 8). -/
def badStoreAlign (t : List Byte) (c : Nat) (off : Int) : Option Stop :=
  if !tblStore t || !isBlockFmt c then none
  else
    let b : Int := blockElems c
    let g := groupElems c
    let ldc := recField t 48 4
    let col := (off % ((max ldc 1 : Nat) : Int)).toNat
    let ends := (tblEntries t).all (fun l => decide (l.sc % ((max ldc 1 : Nat) : Int) = 0))
      && decide (ceilDiv (col + tblN t) g * g = ldc)
    firstStop [
      stopIf (decide (off % b ≠ 0)) (loopBad 0x0A 32 (wordOf off)),
      firstLevel (tblEntries t) (fun l => decide (l.sc % b ≠ 0)) (fun o l => loopBad 0x0A (o + 12) (wordOf l.sc)),
      stopIf (decide (ldc % g ≠ 0)) (loopBad 0x0A 48 ldc),
      stopIf (decide (tblN t % blockElems c ≠ 0) && !ends) (loopBad 0x0A 8 (tblN t))]

/-- Lowest and highest element offset that a nest reaches from an offset. -/
def reachOf (off : Int) (stride : Level → Int) (ls : List Level) : Int × Int :=
  ls.foldl (fun r l =>
    let d := stride l * ((l.bound : Int) - 1)
    if d < 0 then (r.1 + d, r.2) else (r.1, r.2 + d)) (off, off)

/-- Bytes that an operand or the store reaches over the whole nest: first byte and one past the last (R160). -/
def spanOf (c : Nat) (base : Nat) (off : Int) (stride : Level → Int) (ls : List Level) (rows ld width : Nat) :
    Int × Int :=
  let r := reachOf off stride ls
  ((base : Int) + elemByteOff c r.1,
    (base : Int) + elemByteOff c (r.2 + ((rows - 1) * ld : Nat)) + (rowBytes c width : Nat))

/-- Whether a span lies in the allotment, or its device memory is mapped, present and exported: check 10 and
check 11 of R160. -/
def State.spanStop (s : State) (a : At) (write inBuf : Bool) (baseAt base : Nat) (sp : Int × Int) : Option Stop :=
  if inBuf then
    stopIf (decide (sp.1 < 0) || decide (sp.2 > ((s.at_ a).allot.bufLen : Int))) (loopBad 0x0B baseAt base)
  else
    let g := wordOf sp.1
    let len := (sp.2 - sp.1).toNat
    match s.remoteOf g with
    | some _ => s.remoteStop (s.at_ a).id.ctx g
    | none =>
      ((blocksOf extentBytes (g % 2 ^ 52) len).filterMap (fun x =>
        match s.checkAt (s.whoAt a) write (max (g % 2 ^ 52) (x * extentBytes)) with
        | some (.quarantined _) => none
        | some (.codeWrite _) => none
        | r => r)).head?.map .access

/-- The scale of an operand in use is valid (R152, check 12). -/
def badTableScale (operand c code : Nat) (block : Bool) : Option Stop :=
  if (isBlockFmt c && block) || (1 ≤ c && c ≤ 4) || c = 0xC then badScale operand c code else none

/-- The accumulator footprint of a nest (R156). -/
def accFootprint (t : List Byte) : Nat :=
  tblM t * tblN t * slotCount (byPos (tblEntries t)) * (if tblStore t then 2 else 1)

/-- Staged bytes of both operands (R156). -/
def stagedBytes (compat : Bool) (t : List Byte) : Nat :=
  (if (tblSpace t).testBit 0 then 0 else tblM t * stagedRow (computeFmt compat (tblFmtA t)) (tblK t))
  + (if (tblSpace t).testBit 1 then 0 else tblN t * stagedRow (computeFmt compat (tblFmtB t)) (tblK t))

/-- A signed offset register (R148). -/
def offReg (sl : Slot) (w2 : Word) (lo : Nat) : Int := (sl.rs (w2.extractLsb' lo 5)).toInt

/-- The table that a TMM reads at issue, where it can be read. -/
def State.tableAt (s : State) (a : At) (f : Fields) : List Byte :=
  s.devRead ((s.at_ a).rs f.src1).toNat 256

/-- The checks of R160 in their order; none of check 13 and 14 in the compatibility profile. -/
def tmmStop (f : Fields) (w2 : Word) (s : State) (a : At) : Option Stop :=
  let sl := s.at_ a
  let compat := sl.id.profile
  let stab := (sl.rs f.src1).toNat
  let t := s.tableAt a f
  let h := sl.ra f.dst.toNat
  let d := sl.rd f.src2.toNat
  let ls := tblEntries t
  let n := tblLevels t
  let oa := offReg sl w2 53
  let ob := offReg sl w2 48
  let oc := offReg sl w2 43
  let sa := storedFmt compat (tblFmtA t)
  let sb := storedFmt compat (tblFmtB t)
  let ca := computeFmt compat (tblFmtA t)
  let cb := computeFmt compat (tblFmtB t)
  let fc := storeFmt compat t
  let flags := tblFlags t
  let inA := (tblSpace t).testBit 0
  let inB := (tblSpace t).testBit 1
  let spA := spanOf sa (recField t 16 8) oa (·.sa) ls (tblM t) (recField t 40 4) (tblK t)
  let spB := spanOf sb (recField t 24 8) ob (·.sb) ls (tblN t) (recField t 44 4) (tblK t)
  let spC := spanOf fc (recField t 32 8) oc (·.sc) ls (tblM t) (recField t 48 4) (tblN t)
  let avail := sl.allot.accLen - accBaseOf h
  let fp := accFootprint t
  let fb := 2 * stagedBytes compat t
  firstStop [
    stopIf (decide (stab % 256 ≠ 0)) (loopBad 1 0 stab),
    match s.devStop (s.whoAt a) false stab 256 with
    | some (.access (.quarantined x)) => some (.access (.quarantined x))
    | some (.access (.poisoned x)) => some (.access (.poisoned x))
    | some (.access _) => some (loopBad 1 0 stab)
    | x => x,
    badField compat tmmUse f,
    badWord2 compat w2 [(0, 43)],
    stopIf (!compat && fieldOf h.toNat 38 26 ≠ 0) (.instr 0x0102 (regInfo 0 47 38)),
    stopIf (handleCols h > 256) (.instr 0x0102 (regInfo 0 47 28)),
    stopIf (handleRows h > 256) (.instr 0x0102 (regInfo 0 47 19)),
    stopIf (!compat && fieldOf d.toNat 52 12 ≠ 0) (.instr 0x0102 (regInfo 0 37 52)),
    if compat then none else tblReserved t,
    badPair compat 1 (tblFmtA t),
    badPair compat 2 (tblFmtB t),
    badFormat compat 3 (recField t 2 1 % 16) allFmts,
    stopIf (n = 0 || n > 6) (loopBad 3 4 n),
    firstLevel ls (fun l => decide (l.pos ≥ n) || decide ((ls.filter (fun m => m.pos = l.pos)).length ≠ 1))
      (fun o l => loopBad 4 (o + 16) l.order),
    firstLevel ls (fun l => decide (l.bound = 0)) (fun o _ => loopBad 5 o 0),
    stopIf (fieldOf flags 1 2 = 3) (loopBad 6 3 flags),
    stopIf (tileCount ls ≥ 2 ^ 48) (loopBad 7 64 (tileCount ls)),
    stopIf (decide (tblM t ≠ handleRows h)) (loopBad 8 6 (tblM t)),
    stopIf (decide (tblN t ≠ handleCols h)) (loopBad 8 8 (tblN t)),
    stopIf (tblK t = 0 || tblK t > 16777216) (loopBad 8 12 (tblK t)),
    firstLevel ls (fun l => !l.output && decide (l.sc ≠ 0)) (fun o l => loopBad 9 (o + 12) (wordOf l.sc)),
    badOperandAlign t sa oa 16 4 40 (·.sa),
    badOperandAlign t sb ob 24 8 44 (·.sb),
    badStoreAlign t fc oc,
    badHandle sl 0 47 f.dst.toNat,
    badDesc sl 0 37 f.src2.toNat,
    if inA then s.spanStop a false true 16 (recField t 16 8) spA else none,
    if inB then s.spanStop a false true 24 (recField t 24 8) spB else none,
    if tblStore t && tblToBuf t then s.spanStop a true true 32 (recField t 32 8) spC else none,
    if inA then none else s.spanStop a false false 16 0 spA,
    if inB then none else s.spanStop a false false 24 0 spB,
    if tblStore t && !tblToBuf t then s.spanStop a true false 32 0 spC else none,
    badTableScale 1 ca (recField t 52 4) (onLoad sa ca && flags.testBit 3),
    badTableScale 2 cb (recField t 56 4) (onLoad sb cb && flags.testBit 4),
    if tblStore t then badTableScale 3 fc (recField t 60 4) (flags.testBit 5) else none,
    stopIf (!compat && fp > avail) (.tile 0x0202 0x30 avail (fp - avail)),
    stopIf (!compat && fb > descLen d) (.tile 0x0203 0x31 (descLen d / 16) (ceilDiv (fb - descLen d) 16))]

/-- The spans of a TMM (R162). -/
def tmmSpans (t : List Byte) (h d : Word) : List Span :=
  [{ acc := true, write := true, base := accBaseOf h, len := accFootprint t }, descSpan d true]

def execTmm (a : At) (f : Fields) (w2 : Word) (s : State) : Outcome State Fault Refusal :=
  .next (s.run a 0x20 16
    (fun s =>
      let sl := s.at_ a
      firstStop [tmmStop f w2 s a,
        queueStop sl .tensor (tmmSpans (s.tableAt a f) (sl.ra f.dst.toNat) (sl.rd f.src2.toNat))])
    (fun s =>
      let sl := s.at_ a
      let t := s.tableAt a f
      let stab := (sl.rs f.src1).toNat
      let h := sl.ra f.dst.toNat
      let d := sl.rd f.src2.toNat
      ((s.devSpend (s.whoAt a) false stab 256).passFree stab 256).enqueue a .tensor
        { pc := sl.pc, major := 0x20, spans := tmmSpans t h d, claims := [], granted := true, post := postOf f,
          flight := .tmm { table := t, handle := h, dstage := d, offA := offReg sl w2 53, offB := offReg sl w2 48,
                           offC := offReg sl w2 43, tile := 0, banks := [], heldA := [], heldB := [] } }))

/-! ### One tile (R87 to R99, R155 to R158) -/

/-- A byte that the stager reads: in place in the allotment, or at a global address. -/
def State.stageByte (s : State) (a : At) (inBuf : Bool) (x : Int) : Nat :=
  if inBuf then (s.bufAt a x.toNat).toNat
  else
    let g := wordOf x
    match s.remoteOf g with
    | some _ => (Config.farByte s.freeCtr g).toNat
    | none => (s.memByte (g % 2 ^ 52)).toNat

/-- The rows of an operand as its stored format gives them (R154). -/
def State.readRows (s : State) (a : At) (inBuf : Bool) (c : Nat) (base : Nat) (off : Int) (ld rows k : Nat) :
    List (List Elem) :=
  (List.range rows).map (fun r =>
    let b := (base : Int) + elemByteOff c (off + ((r * ld : Nat) : Int))
    decodeRow c (fun i => s.stageByte a inBuf (b + i)) k)

/-- An operand staged in a compute format: its rows, σ, how many elements were quantised and saturated. -/
structure Staged where
  fmt : Nat
  rows : List (List Elem)
  sigma : Fv
  quant : Nat
  sat : Nat
  bytes : List Byte
  deriving DecidableEq, Repr

/-- Rows quantised on load into a format in a mode (R79, R82 to R85), read back as the array decodes them.
DEDUCED (log entry 28). -/
def stageAs (stored compute : Nat) (given : Option Nat) (sigma : Fv) (k : Nat) (rows : List (List Elem)) : Staged :=
  if stored = compute then
    { fmt := compute, rows := rows, sigma := sigma, quant := 0, sat := 0, bytes := [] }
  else
    let qs := rows.map (fun r => quantRow compute given (r.map (·.val)))
    { fmt := compute, sigma := sigma, quant := rows.length * k, sat := (qs.map (·.sat)).sum
      rows := qs.map (fun q => decodeRow compute (fun i => (q.bytes.getD i 0).toNat) k)
      bytes := qs.flatMap (fun q => padTo 0 (stagedRow compute k) q.bytes) }

/-- The first staging of an operand, in its compute format (R79, R152). DEDUCED (log entry 28). -/
def stageFirst (stored compute : Nat) (qmode : Bool) (scale k : Nat) (rows : List (List Elem)) : Staged :=
  let given := if isBlockFmt compute then (if qmode then some (scaleField compute scale) else none)
    else if (1 ≤ compute && compute ≤ 4) || compute = 0xC then some scale else none
  stageAs stored compute given (sigmaOf compute scale) k rows

/-- The next format of an on-load operand (R93): the stored one where the fallback is no narrower.
DEDUCED (log entry 29). -/
def nextFallback (stored fmt : Nat) : Option Nat :=
  if stored = fmt then none
  else match fallbackOf fmt with
    | none => none
    | some c => if elemBits c ≥ elemBits stored then some stored else some c

/-- An operand staged again in its next format, in current-block mode (R92, R93). The σ of the table stays in force
where it is that of a σ format. DEDUCED (log entry 29). -/
def restage (stored : Nat) (compute scale k : Nat) (src : List (List Elem)) (x : Staged) : Staged :=
  match nextFallback stored x.fmt with
  | none => x
  | some c =>
    let sig := if (1 ≤ compute && compute ≤ 4) || compute = 0xC then scale else 0x3F800000
    stageAs stored c (if isBlockFmt c then none else some sig) (sigmaOf c sig) k src

/-- The saturation of a tile's fresh operands passes the threshold (R92). -/
def passesThreshold (n : NumCtl) (q z : Nat) : Bool :=
  n.fallbackEn && (if n.threshShift = 0 then z > 0 else z * 2 ^ n.threshShift > q)

/-- Fallback repeated until the threshold holds or the chains have ended (R92, R93): the operands, the sum of
saturations, and whether the tile fell back. -/
def fallback (n : NumCtl) (again : Staged → Staged) (againB : Staged → Staged) :
    Nat → Staged × Staged × Nat × Nat × Nat × Bool → Staged × Staged × Nat × Nat × Nat × Bool
  | 0, r => r
  | fuel + 1, (x, y, q, z, total, fell) =>
    if passesThreshold n q z then
      let x' := again x
      let y' := againB y
      if x'.fmt = x.fmt && y'.fmt = y.fmt then (x, y, q, z, total, fell)
      else fallback n again againB fuel
        (x', y', x'.quant + y'.quant, x'.sat + y'.sat, total + x'.sat + y'.sat, true)
    else (x, y, q, z, total, fell)

/-- The exact sum of a K-step's products (R87). -/
def kSum (xs ys : List Elem) : Fv :=
  (List.zip xs ys).foldl (fun acc e => acc.add (e.1.val.mul e.2.val)) .zero

/-- K-step sums of one output element, depth `d` (R87). -/
def kSums (d : Nat) : Nat → List Elem → List Elem → List Fv
  | 0, _, _ => []
  | k + 1, xs, ys => kSum (xs.take d) (ys.take d) :: kSums d k (xs.drop d) (ys.drop d)

/-- A run's sum on the 28-bit path, truncated after each K-step, or exact (R87). -/
def runSum (short : Bool) (ps : List Fv) : Fv :=
  ps.foldl (fun r p => if short then (r.add p).trunc 27 else r.add p) .zero

/-- One promotion into an accumulator entry (R88, R89): never −0. -/
def promote (acc : Lane) (r sa sb : Fv) : Lane :=
  let add := if r.isZero then Fv.zero else (r.mul sa).mul sb
  let v := ((Fv.ofLane acc).add add).toLane
  if v = 0x80000000 then 0 else v

/-- An accumulator entry after all the runs of a tile. -/
def promoteRuns (acc : Lane) (sa sb : Fv) (rs : List Fv) : Lane := rs.foldl (fun v r => promote v r sa sb) acc

/-- Runs of an output element (R86, R87). -/
def tileRuns (fa fb runLen k : Nat) (x y : List Elem) : List Fv :=
  let d := if fa = 0 && fb = 0 then 64 else min (kDepth fa) (kDepth fb)
  let n := ceilDiv k d
  let short := onShortPath fa fb
  let l := if short then runLen else 32
  (chunksOf l n (kSums d n x y)).map (runSum short)

/-- A write of the store: byte offset and bytes. -/
abbrev Piece := Int × List Byte

/-- One row of a block-scaled store: each block's scale and elements in their group, and the rest of the group as
padding where the row ends inside a block (R76, R78, R154). -/
def blockPieces (c : Nat) (base : Int) (x : Nat) (qs : List QBlock) (pad : Nat) : List Piece :=
  let zero : QBlock := ⟨0, List.replicate (blockElems c) 0, 0, true⟩
  let all := qs ++ List.replicate pad zero
  (List.range all.length).flatMap (fun i =>
    let b := x / blockElems c + i
    let g := b / groupBlocks c
    let t := b % groupBlocks c
    let org := base + ((g * groupBytes c : Nat) : Int)
    let q := all.getD i zero
    let eb := blockElems c * elemBits c / 8
    [(org + ((t * scaleBytes c : Nat) : Int), toBytes (scaleBytes c) q.scale),
     (org + ((16 + t * eb : Nat) : Int), toBytes eb (packCodes (elemBits c) q.codes))])

/-- A row of values stored at element offset `x` (R82 to R85, R154). DEDUCED (log entry 25). -/
def storeRow (c : Nat) (given : Option Nat) (base x : Int) (vs : List Fv) : List Piece × NumCount :=
  if isBlockFmt c then
    let b := blockElems c
    let n := ceilDiv vs.length b
    let qs := (chunksOf b n (padTo .zero (n * b) vs)).map (quantBlock c given)
    let x0 := x.toNat
    let stop := x0 / b + n
    let pad := if vs.length % b = 0 then 0 else ceilDiv stop (groupBlocks c) * groupBlocks c - stop
    (blockPieces c base x0 qs pad,
      { satOnStore := (qs.map (·.sat)).sum, zeroBlocks := (qs.filter (·.zero)).length })
  else
    let q := quantRow c given vs
    ([(base + elemByteOff c x, q.bytes)], { satOnStore := q.sat })

/-- Rows stored one after another. DEDUCED (log entry 25). -/
def storeRows (c : Nat) (given : Option Nat) (base : Int) (off : Int) (ld : Nat) : Nat → List (List Fv) →
    List Piece × NumCount
  | _, [] => ([], {})
  | r, vs :: rest =>
    let x := storeRow c given base (off + ((r * ld : Nat) : Int)) vs
    let y := storeRows c given base off ld (r + 1) rest
    (x.1 ++ y.1, x.2.add y.2)

/-- The first failing access of a list of pieces at device memory. -/
def State.piecesStop (s : State) (a : At) (ps : List Piece) : Option Stop :=
  (ps.filterMap (fun p => s.devStop (s.whoAt a) true (wordOf p.1) p.2.length)).head?

/-- Pieces written, to the allotment or to device memory. -/
def State.putPieces (s : State) (a : At) (toBuf : Bool) (ps : List Piece) : State :=
  ps.foldl (fun s p =>
    if toBuf then s.bufWrite a p.1.toNat p.2
    else (s.devSpend (s.whoAt a) true (wordOf p.1) p.2.length).devWrite (s.at_ a).id.ctx (wordOf p.1) p.2) s

/-- The scale of a store in its mode (R79, R152). DEDUCED (log entry 25). -/
def storeGiven (c : Nat) (qmode : Bool) (scale : Nat) : Option Nat :=
  if isBlockFmt c then (if qmode then some (scaleField c scale) else none)
  else if takesScale c then some scale else none

/-- FALLBACK_WIDESPREAD accounting (R98). DEDUCED (log entry 29). -/
def State.countFallback (s : State) (a : At) (fell : Bool) (onLoadFmt finalFmt : Nat) : State :=
  let sl := s.at_ a
  if !fell then s.setAt a { sl with consecFallback := 0 }
  else
    let ctx := sl.id.ctx
    let j := s.job ctx
    let s := if j.live then s.setJob ctx { j with fbSinceEvent := j.fbSinceEvent + 1 } else s
    let n := sl.consecFallback + 1
    if sl.num.widespread ≠ 0 && n ≥ sl.num.widespread then
      let s := s.setAt a { sl with consecFallback := 0, cnt := sl.cnt.add { widespreadPosts := 1 } }
      let j := s.job ctx
      let before := s.ev.lastPost
      let s := s.postEachSecond (0x0401 * 4096 + ctx)
        { code := 0x0401, sev := 1, die := a.core / 24, cls := 0, index := a.core, ctx := ctx,
          detail := a.core * 2 ^ 40 + onLoadFmt * 2 ^ 36 + finalFmt * 2 ^ 32 + j.fbSinceEvent % 2 ^ 32 }
      if s.ev.lastPost ≠ before && j.live then s.setJob ctx { j with fbSinceEvent := 0 } else s
    else s.setAt a { sl with consecFallback := n }

/-- The mismatch of a tile (R426 to R428): reported and counted, and the core fenced where the replay fails. -/
def State.tileUpset (s : State) (a : At) (pc : Nat) (u : TileUpset) : State :=
  match u with
  | .ok => s
  | .residue r again =>
    let s := s.mismatch a pc 0x0802 0x20 r
    if again then (s.mismatch a pc 0x0802 0x20 r).fenceCore a.core 2 else s.countTowardFence a.core
  | .promotion r again =>
    let s := s.mismatch a pc 0x0803 0x20 r
    if again then (s.mismatch a pc 0x0803 0x20 r).fenceCore a.core 2 else s.countTowardFence a.core

def upsetAgain : TileUpset → Bool
  | .ok => false
  | .residue _ r => r
  | .promotion _ r => r

/-- Whether the rows of an operand can be read; in place they always can. -/
def State.rowsStop (s : State) (a : At) (inBuf : Bool) (c base : Nat) (off : Int) (ld rows k : Nat) : Option Stop :=
  if inBuf then none
  else ((List.range rows).filterMap (fun r =>
    s.devStop (s.whoAt a) false (wordOf ((base : Int) + elemByteOff c (off + ((r * ld : Nat) : Int)))) (rowBytes c k))).head?

/-- Dike counts of an operand's rows (R34, R100). -/
def State.spendRows (s : State) (a : At) (inBuf : Bool) (c base : Nat) (off : Int) (ld rows k : Nat) : State :=
  if inBuf then s
  else (List.range rows).foldl (fun s r =>
    s.devSpend (s.whoAt a) false (wordOf ((base : Int) + elemByteOff c (off + ((r * ld : Nat) : Int)))) (rowBytes c k)) s

/-- One tile of the TMM at the head of a slot's tensor sub-queue (R155, R162). -/
def State.runTile (s : State) (a : At) (q : Queued) (r : TmmRun) (u : TileUpset) : State :=
  let sl := s.at_ a
  let compat := sl.id.profile
  let t := r.table
  let ls := byPos (tblEntries t)
  let is := indices ls r.tile
  let zipped := List.zip ls is
  let oa := tileOff r.offA (·.sa) ls is
  let ob := tileOff r.offB (·.sb) ls is
  let oc := tileOff r.offC (·.sc) ls is
  let sa := storedFmt compat (tblFmtA t)
  let sb := storedFmt compat (tblFmtB t)
  let ca := computeFmt compat (tblFmtA t)
  let cb := computeFmt compat (tblFmtB t)
  let inA := (tblSpace t).testBit 0
  let inB := (tblSpace t).testBit 1
  let k := tblK t
  let m := tblM t
  let n := tblN t
  let baseA := recField t 16 8
  let baseB := recField t 24 8
  let lda := recField t 40 4
  let ldb := recField t 44 4
  let addrA := (baseA : Int) + elemByteOff sa oa
  let addrB := (baseB : Int) + elemByteOff sb ob
  let freshA := !r.heldA.contains addrA
  let freshB := !r.heldB.contains addrB
  match firstStop [if freshA then s.rowsStop a inA sa baseA oa lda m k else none,
      if freshB then s.rowsStop a inB sb baseB ob ldb n k else none] with
  | some (.access x) => s.accessFault a 0x20 x
  | some x => s.stopAt a 0x20 x
  | none =>
    if upsetAgain u then s.tileUpset a q.pc u
    else
      let rowsA := s.readRows a inA sa baseA oa lda m k
      let rowsB := s.readRows a inB sb baseB ob ldb n k
      let x0 := stageFirst sa ca ((tblFlags t).testBit 3) (recField t 52 4) k rowsA
      let y0 := stageFirst sb cb ((tblFlags t).testBit 4) (recField t 56 4) k rowsB
      let qn := (if freshA then x0.quant else 0) + (if freshB then y0.quant else 0)
      let zn := (if freshA then x0.sat else 0) + (if freshB then y0.sat else 0)
      let (x, y, _, _, total, fell) := fallback sl.num (restage sa ca (recField t 52 4) k rowsA)
        (restage sb cb (recField t 56 4) k rowsB) 8 (x0, y0, qn, zn, zn, false)
      let marks := (if freshA && sa = ca then (rowsA.map markersIn).sum else 0)
        + (if freshB && sb = cb then (rowsB.map markersIn).sum else 0)
      let staged (c rows : Nat) (inBuf : Bool) := if inBuf then 0 else rows * stagedRow c k
      let split := decide (2 * (staged x.fmt m inA + staged y.fmt n inB) > descLen r.dstage)
        || (compat && accFootprint t > sl.allot.accLen - accBaseOf r.handle)
      let slot := slotOf (slotDigits zipped)
      let bank := mapGet false r.banks slot
      let first := zipped.all (fun e => e.1.output || decide (e.2 = 0))
      let last := zipped.all (fun e => e.1.output || decide (e.2 + 1 = e.1.bound))
      let org := accBaseOf r.handle
        + (if tblStore t then (2 * slot + (if bank then 1 else 0)) * (m * n) else slot * (m * n))
      let old := s.accEntries a org (m * n)
      let fresh := zeroFirst r.handle && first
      let new := (List.range (m * n)).map (fun i =>
        promoteRuns (if fresh then 0 else old.getD i 0) x.sigma y.sigma
          (tileRuns x.fmt y.fmt (tblRunLen t) k (x.rows.getD (i / n) []) (y.rows.getD (i % n) [])))
      let half := descBase r.dstage + (if r.tile % 2 = 1 then staged ca m inA + staged cb n inB else 0)
      let s := (s.tileUpset a q.pc u).tick
      let s := if freshA then s.spendRows a inA sa baseA oa lda m k else s
      let s := if freshB then s.spendRows a inB sb baseB ob ldb n k else s
      let s := if freshA && !inA then s.bufWrite a half (x.bytes.take (staged ca m inA)) else s
      let s := if freshB && !inB then s.bufWrite a (half + staged ca m inA) (y.bytes.take (staged cb n inB)) else s
      let s := s.accWrite a org new
      let s := s.count a { satOnLoad := total, markersRead := marks, fallbackTiles := if fell then 1 else 0,
                           splitTiles := if split then 1 else 0 }
      let s := s.countFallback a fell (if x.fmt ≠ x0.fmt then x0.fmt else y0.fmt)
        (if x.fmt ≠ x0.fmt then x.fmt else y.fmt)
      let hold (l : List Int) (ad : Int) (isFresh : Bool) (kept : Bool) :=
        if !kept then [] else if isFresh then (l ++ [ad]).drop ((l ++ [ad]).length - 2) else l
      let next : TmmRun := { r with
        tile := r.tile + 1
        heldA := hold r.heldA addrA freshA (decide (x.fmt = x0.fmt))
        heldB := hold r.heldB addrB freshB (decide (y.fmt = y0.fmt))
        banks := if last && tblStore t then mapSet false r.banks slot (!bank) else r.banks }
      let go (s : State) : State :=
        s.updateHead a .tensor
          (if next.tile ≥ tileCount ls then none else some { q with flight := .tmm next })
      if last && tblStore t then
        let fc := storeFmt compat t
        let rows := (List.range m).map (fun i => ((new.drop (i * n)).take n).map Fv.ofLane)
        let (ps, cnt) := storeRows fc (storeGiven fc ((tblFlags t).testBit 5) (recField t 60 4))
          (recField t 32 8 : Nat) oc (recField t 48 4) 0 rows
        match if tblToBuf t then none else s.piecesStop a ps with
        | some (.access z) => s.accessFault a 0x20 z
        | _ => go ((s.putPieces a (tblToBuf t) ps).count a cnt)
      else go s

def isTmm (q : Queued) : Bool := match q.flight with | .tmm _ => true | _ => false

/-- The array runs one staged tile of the TMM whose turn it is; without one, nothing happens (R54, R162). -/
def execTensorTileRun (core : Nat) (u : TileUpset) (s : State) : Outcome State Fault Refusal :=
  .next (match s.turn core .tensor isTmm with
    | none => s
    | some k =>
      let a : At := { core := core, slot := k }
      let s := s.served core .tensor k
      match (s.at_ a).qTa.head? with
      | some q => match q.flight with
        | .tmm r => s.runTile a q r u
        | _ => s
      | none => s)

/-! ### TACC (R147, R149) -/

def execTaccZero (a : At) (f : Fields) (w2 : Word) (s : State) : Outcome State Fault Refusal :=
  .next (s.run a 0x21 16
    (fun s =>
      let sl := s.at_ a
      let h := sl.ra f.dst.toNat
      firstStop [
        badField sl.id.profile { dst := .a, src1 := .none_, src2 := .none_, src3 := .none_, imm := [(0, 32)] } f,
        badWord2 sl.id.profile w2 [(0, 58)],
        badHandle sl 0 47 f.dst.toNat,
        mustWait sl (some .tensor) [handleSpan h]])
    (fun s =>
      let h := (s.at_ a).ra f.dst.toNat
      s.accWrite a (accBaseOf h) (List.replicate (handleSize h) 0)))

/-- TACC.ST and TACC.LD: bits [28:24] and [19:16] are reserved, src2 with target 0 too (R149). -/
def taccUse (target : Bool) : Use :=
  { dst := .a, src1 := .s, src2 := if target then .d else .none_, src3 := .s, imm := [(24, 5), (16, 4)] }

def taccFmt (f : Fields) : Nat := fieldOf f.imm.toNat 20 4
def taccToBuf (f : Fields) : Bool := f.imm.toNat.testBit 30
def taccQmode (f : Fields) : Bool := f.imm.toNat.testBit 29

/-- The scale of TACC.ST: σ is 1.0 where sscale names s0 and the format takes σ (R149). -/
def taccScale (sl : Slot) (c : Nat) (w2 : Word) : Nat :=
  let r := w2.extractLsb' 53 5
  if r = 0 && !isBlockFmt c then 0x3F800000 else (sl.rs r).toNat % 2 ^ 32

/-- The row pitch in elements: 0 means the tile's columns, padded to a group in a block format (R149). -/
def taccPitch (c pitch cols : Nat) : Nat :=
  if pitch = 0 then ceilDiv cols (groupElems c) * groupElems c else pitch

/-- Checks of TACC.ST and TACC.LD at issue. -/
def taccStop (store : Bool) (c : Nat) (fmts : List Nat) (f : Fields) (w2 : Word) (s : State) (a : At) :
    Option Stop :=
  let sl := s.at_ a
  let compat := sl.id.profile
  let h := sl.ra f.dst.toNat
  let toBuf := taccToBuf f
  let d := sl.rd f.src2.toNat
  let pitch := (sl.rs f.src3).toNat
  let p := taccPitch c pitch (handleCols h)
  let off := (sl.rs f.src1).toNat
  let reach := off + (elemByteOff c (((handleRows h - 1) * p : Nat) : Int)).toNat + rowBytes c (handleCols h)
  firstStop [
    badField compat (taccUse toBuf) f,
    badWord2 compat w2 (if store then [(0, 53)] else [(0, 58)]),
    badHandle sl 0 47 f.dst.toNat,
    if toBuf then badDesc sl 0 37 f.src2.toNat else none,
    badFormat compat (if store then 3 else 1) (taccFmt f) fmts,
    stopIf (isBlockFmt c && pitch % groupElems c ≠ 0) (.instr 0x0102 20),
    if store && takesScale c && (!isBlockFmt c || taccQmode f) then badScale 3 c (taccScale sl c w2) else none,
    stopIf (!compat && toBuf && reach > descLen d) (.instr 0x0106 (f.src2.toNat % 16)),
    mustWait sl (some .tensor) (handleSpan h :: if toBuf then [descSpan d store] else [])]

def execTaccSt (a : At) (f : Fields) (w2 : Word) (s : State) : Outcome State Fault Refusal :=
  .next (s.issue a 0x21 16 (fun s =>
    let sl := s.at_ a
    let h := sl.ra f.dst.toNat
    let c := if taccFmt f = 15 then 0 else taccFmt f
    match taccStop true c allFmts f w2 s a with
    | some x => s.stopAt a 0x21 x
    | none =>
      let d := sl.rd f.src2.toNat
      let cols := handleCols h
      let p := taccPitch c (sl.rs f.src3).toNat cols
      let off := (sl.rs f.src1).toNat
      let base := if taccToBuf f then descBase d + off else off
      let es := s.accEntries a (accBaseOf h) (handleSize h)
      let rows := (List.range (handleRows h)).map (fun i => ((es.drop (i * cols)).take cols).map Fv.ofLane)
      let qs := rows.map (quantRow c (storeGiven c (taccQmode f) (taccScale sl c w2)))
      let all := (List.range qs.length).map (fun r =>
        ((base : Int) + elemByteOff c ((r * p : Nat) : Int), (qs.getD r ⟨[], 0, 0⟩).bytes))
      -- beyond the descriptor the compatibility profile drops the bytes (R144)
      let ps := if taccToBuf f then all.map (fun e => (e.1, e.2.take (descBase d + descLen d - e.1.toNat))) else all
      match if taccToBuf f then none else s.piecesStop a ps with
      | some x => s.stopAt a 0x21 x
      | none =>
        ((((s.putPieces a (taccToBuf f) ps).count a
          { satOnStore := (qs.map (·.sat)).sum, zeroBlocks := (qs.map (·.zeros)).sum }).countClip a
            (decide (ps ≠ all))).duePost a (postOf f)).advance a 16))

def execTaccLd (a : At) (f : Fields) (w2 : Word) (s : State) : Outcome State Fault Refusal :=
  .next (s.issue a 0x21 16 (fun s =>
    let sl := s.at_ a
    let h := sl.ra f.dst.toNat
    let c := if taccFmt f = 15 then 0 else taccFmt f
    match taccStop false c [0, 1, 2] f w2 s a with
    | some x => s.stopAt a 0x21 x
    | none =>
      let d := sl.rd f.src2.toNat
      let cols := handleCols h
      let p := taccPitch c (sl.rs f.src3).toNat cols
      let off := (sl.rs f.src1).toNat
      match s.rowsStop a (taccToBuf f) c off 0 p (handleRows h) cols with
      | some x => s.stopAt a 0x21 x
      | none =>
        let rd (i : Int) : Nat :=
          if taccToBuf f then s.descByte a d off i.toNat else s.stageByte a false ((off : Int) + i)
        let vs := (List.range (handleRows h)).flatMap (fun r =>
          (decodeRow c (fun i => rd (elemByteOff c ((r * p : Nat) : Int) + i)) cols).map (fun e => e.val.toLane))
        let excess := taccToBuf f && decide
          (off + (elemByteOff c (((handleRows h - 1) * p : Nat) : Int)).toNat + rowBytes c cols > descLen d)
        let s := (s.spendRows a (taccToBuf f) c off 0 p (handleRows h) cols).tick
        (((s.accWrite a (accBaseOf h) vs).countClip a excess).duePost a (postOf f)).advance a 16))

/-- TACC.VRD and TACC.VWR: chunk in [7:0], the rest reserved (R149). -/
def chunkUse : Use := { dst := .v, src1 := .a, src2 := .none_, src3 := .none_, imm := [(8, 24)] }
def chunkOf (f : Fields) : Nat := fieldOf f.imm.toNat 0 8

def chunkStop (f : Fields) (w2 : Word) (s : State) (a : At) : Option Stop :=
  let sl := s.at_ a
  let h := sl.ra f.src1.toNat
  firstStop [
    badField sl.id.profile chunkUse f,
    stopIf (decide (1024 * chunkOf f ≥ handleSize h)) (.instr 0x0102 0),
    badWord2 sl.id.profile w2 [(0, 58)],
    badHandle sl 0 42 f.src1.toNat,
    mustWait sl (some .tensor) [handleSpan h]]

def execTaccVrd (a : At) (f : Fields) (w2 : Word) (s : State) : Outcome State Fault Refusal :=
  .next (s.run a 0x21 16 (fun s => chunkStop f w2 s a) (fun s =>
    let sl := s.at_ a
    let h := sl.ra f.src1.toNat
    s.setAt a (sl.wv f.dst (fun i =>
      let x := 1024 * chunkOf f + i
      if x < handleSize h then s.accAt a (accBaseOf h + x) else 0))))

def execTaccVwr (a : At) (f : Fields) (w2 : Word) (s : State) : Outcome State Fault Refusal :=
  .next (s.run a 0x21 16 (fun s => chunkStop f w2 s a) (fun s =>
    let sl := s.at_ a
    let h := sl.ra f.src1.toNat
    let org := 1024 * chunkOf f
    let n := min 1024 (handleSize h - org)
    s.accWrite a (accBaseOf h + org) ((List.range n).map (sl.lane f.dst))))

end Sys2Proof.Machine
end

