-- ==== Sys2Proof/Machine/Sfu.lean ====
section
/-!
DEFINITION. The elementwise functions of the special-function unit and the derivative-table functions (R168 to
R175, R205 to R207), the table banks and their reload at the cores (R190 to R194).
-/
namespace Sys2Proof.Machine
open Host

/-- Reference mode is in force for a slot's command (R174): the context selects it, the core is under test, or the
package tests itself at start-up. DEDUCED (log entry 32). -/
def State.refMode (s : State) (a : At) : Bool :=
  (s.at_ a).sfu.refMode || (s.core a.core).health.underTest

/-- The format that an ofmt field names (R169). -/
def ofmtCode (o : Nat) : Nat := if o ≤ 4 then o else 0

/-- An FP32 result in the output format of ofmt: its value and whether it saturates (R169, R172).
DEDUCED (log entry 33). -/
def toOfmt (o : Nat) (v : Fv) : Fv × Bool :=
  let c := ofmtCode o
  if c = 0 then (v, false)
  else
    let q := quantElem c (.fin false 1 0) v
    ((decodeCode c q.1).val, q.2)

/-- One evaluation of a function with its output rounding (R169, R172, R173, R205): in reference mode the exact
value is rounded once into a narrow format. `g` is the gradient of grad_en. -/
def sfuEval (ref : Bool) (fn : SfuFn) (o : Nat) (x y : Fv) (g : Option Fv) (cand : Fv) : Fv × Bool :=
  let r := sfuRes fn x y
  match g with
  | some g => toOfmt o (((sfu32 ref r cand).mul g).r32)
  | none =>
    match r with
    | .near v _ inRange => if ref && inRange && o ≠ 0 then toOfmt o (fvOf v) else toOfmt o (sfu32 ref r cand)
    | .exact v => toOfmt o v

/-- A free FP32 value of the running command. -/
def State.cand (s : State) (i : Nat) : Fv := .ofLane (Config.freeLane (s.freeCtr + i))

/-- Free values used up. -/
def State.passN (s : State) (n : Nat) : State := { s with freeCtr := s.freeCtr + n }

/-- One lane of an elementwise function and how many of its values saturate (R169). -/
def State.sfuLane (s : State) (ref : Bool) (fn : SfuFn) (fmt o : Nat) (grad : Bool) (sl : Slot) (f : Fields) (i : Nat) :
    Lane × Nat :=
  let x := sl.lane f.src1 i
  let y := sl.lane f.src2 i
  let g := sl.lane f.src3 i
  if fmt = 1 then
    let h (k : Nat) : Fv × Bool :=
      let dec (z : Lane) := bf16.decode (fieldOf z.toNat k 16)
      sfuEval ref fn o (dec x) (dec y) (if grad then some (dec g) else none) (s.cand (2 * i + k / 16))
    let lo := h 0
    let hi := h 16
    (halves (bf16.round lo.1) (bf16.round hi.1), (if lo.2 then 1 else 0) + (if hi.2 then 1 else 0))
  else
    let r := sfuEval ref fn o (.ofLane x) (.ofLane y) (if grad then some (.ofLane g) else none) (s.cand (2 * i))
    (r.1.toLane, if r.2 then 1 else 0)

def sfuOfmt (f : Fields) : Nat := fieldOf f.imm.toNat 0 3
/-- grad_en of a derivative-table function (R205). DEDUCED (log entry 33). -/
def sfuGrad (deriv : Bool) (f : Fields) : Bool := deriv && f.imm.toNat.testBit 3

/-- The checks of an elementwise function at issue (R168, R169, R205). -/
def sfuStop (fn : SfuFn) (deriv : Bool) (f : Fields) (s : State) (a : At) : Option Stop :=
  let sl := s.at_ a
  let compat := sl.id.profile
  let u : Use := { dst := .v, src1 := .v, src2 := if fn = .dsilu then .v else .none_,
                   src3 := if sfuGrad deriv f then .v else .none_, imm := if deriv then [(4, 19)] else [(3, 20)] }
  firstStop [
    badField compat u f,
    stopIf (decide (sfuOfmt f > 4)) (.instr 0x0102 0),
    badFormat compat 0 f.fmt [0, 1],
    stopIf (laneFmt [0, 1] f = 1 && sfuOfmt f ≠ 1) (.instr 0x0102 0),
    mustWait sl (some .sfu) []]

/-- The lanes written and the saturations counted of an elementwise function in a mode. DEDUCED (log entry 32). -/
def State.sfuApply (s : State) (a : At) (ref : Bool) (fn : SfuFn) (deriv : Bool) (f : Fields) : State :=
  let sl := s.at_ a
  let r := s.sfuLane ref fn (laneFmt [0, 1] f) (sfuOfmt f) (sfuGrad deriv f) sl f
  let sat := ((List.range 1024).map (fun i => if laneOn f sl i then (r i).2 else 0)).sum
  ((s.setAt a (sl.wvPred f (fun i => (r i).1))).count a { satOnStore := sat }).passN 2048

/-- An elementwise function under the residue check of the SFU (R429): a mismatch replays the command in reference
mode, and counts; a mismatch of the replay fences the core. -/
def State.sfu (s : State) (a : At) (fn : SfuFn) (deriv : Bool) (f : Fields) : State :=
  s.issue a 0x28 8 (fun s =>
    match sfuStop fn deriv f s a with
    | some x => s.stopAt a 0x28 x
    | none =>
      match a.upset with
      | .ok => (s.sfuApply a (s.refMode a) fn deriv f).advance a 8
      | .once => (((s.mismatch a (s.at_ a).pc 0x0804 0x28 0).sfuApply a true fn deriv f).advance a 8).countTowardFence a.core
      | .twice => ((s.mismatch a (s.at_ a).pc 0x0804 0x28 0).mismatch a (s.at_ a).pc 0x0804 0x28 0).fenceCore a.core 2)

def execExp (a : At) (f : Fields) (s : State) : Outcome State Fault Refusal := .next (s.sfu a .exp false f)
def execExp2 (a : At) (f : Fields) (s : State) : Outcome State Fault Refusal := .next (s.sfu a .exp2 false f)
def execLog (a : At) (f : Fields) (s : State) : Outcome State Fault Refusal := .next (s.sfu a .log false f)
def execLog2 (a : At) (f : Fields) (s : State) : Outcome State Fault Refusal := .next (s.sfu a .log2 false f)
def execRcp (a : At) (f : Fields) (s : State) : Outcome State Fault Refusal := .next (s.sfu a .rcp false f)
def execRsqrt (a : At) (f : Fields) (s : State) : Outcome State Fault Refusal := .next (s.sfu a .rsqrt false f)
def execSqrt (a : At) (f : Fields) (s : State) : Outcome State Fault Refusal := .next (s.sfu a .sqrt false f)
def execSin (a : At) (f : Fields) (s : State) : Outcome State Fault Refusal := .next (s.sfu a .sin false f)
def execCos (a : At) (f : Fields) (s : State) : Outcome State Fault Refusal := .next (s.sfu a .cos false f)
def execTanh (a : At) (f : Fields) (s : State) : Outcome State Fault Refusal := .next (s.sfu a .tanh false f)
def execSigmoid (a : At) (f : Fields) (s : State) : Outcome State Fault Refusal := .next (s.sfu a .sigmoid false f)
def execErf (a : At) (f : Fields) (s : State) : Outcome State Fault Refusal := .next (s.sfu a .erf false f)
def execGelu (a : At) (f : Fields) (s : State) : Outcome State Fault Refusal := .next (s.sfu a .gelu false f)
def execGeluT (a : At) (f : Fields) (s : State) : Outcome State Fault Refusal := .next (s.sfu a .geluT false f)
def execSilu (a : At) (f : Fields) (s : State) : Outcome State Fault Refusal := .next (s.sfu a .silu false f)
def execSoftplus (a : At) (f : Fields) (s : State) : Outcome State Fault Refusal := .next (s.sfu a .softplus false f)
def execDgelu (a : At) (f : Fields) (s : State) : Outcome State Fault Refusal := .next (s.sfu a .dgelu true f)
def execDgeluT (a : At) (f : Fields) (s : State) : Outcome State Fault Refusal := .next (s.sfu a .dgeluT true f)
def execDsoftplus (a : At) (f : Fields) (s : State) : Outcome State Fault Refusal := .next (s.sfu a .dsoftplus true f)
def execDsilu (a : At) (f : Fields) (s : State) : Outcome State Fault Refusal := .next (s.sfu a .dsilu true f)

end Sys2Proof.Machine
end

