-- ==== Sys2Proof/Machine/Rows.lean ====
section
/-!
DEFINITION. Row commands: the fused gate, normalisation and soft maximum, forward and backward (R176 to R188,
R208 to R215), row by row.
-/
namespace Sys2Proof.Machine
open Host

/-! ### Parameter blocks (R181, R185, R210, R213) -/

def RowOp.major : RowOp → Nat
  | .gate => 0x29
  | .norm => 0x2C
  | .smax => 0x2C
  | .normBwd => 0x2D
  | .smaxBwd => 0x2E

def RowOp.engine : RowOp → Engine
  | .gate => .sfu
  | _ => .vector

def pN (p : List Byte) : Nat := recField p 0 4
/-- Rows per sample (R181, R210). -/
def pR (p : List Byte) : Nat := recField p 4 4
def pFlag (p : List Byte) (at_ i : Nat) : Bool := (recField p at_ 1).testBit i

def RowOp.isNorm : RowOp → Bool
  | .norm => true
  | .normBwd => true
  | _ => false

/-- The flags of a row command's block: γ, modulation, statistics or gradients, zeroing, and qmode. -/
def gammaEn (op : RowOp) (p : List Byte) : Bool := op.isNorm && pFlag p 9 0
def modEn (op : RowOp) (p : List Byte) : Bool := op.isNorm && pFlag p 9 1
def statsEn (p : List Byte) : Bool := pFlag p 9 2
def pgradEn (op : RowOp) (p : List Byte) : Bool := op = .normBwd && pFlag p 9 2
def pgradZero (p : List Byte) : Bool := pFlag p 9 3
def lseEn (p : List Byte) : Bool := pFlag p 8 0
def tauEn (op : RowOp) (p : List Byte) : Bool :=
  match op with | .smax => pFlag p 8 2 | .smaxBwd => pFlag p 8 0 | _ => false
def blockQmode (op : RowOp) (p : List Byte) : Bool :=
  match op with | .norm => pFlag p 9 3 | .normBwd => pFlag p 9 4 | _ => pFlag p 8 1
def tauOf (op : RowOp) (p : List Byte) : Fv := if tauEn op p then fp32.decode (recField p 12 4) else .fin false 1 0
def outScale (p : List Byte) : Nat := recField p 16 4
def modBytes (p : List Byte) : Nat := if recField p 10 1 = 1 then 2 else 4
def blockRows (op : RowOp) (p : List Byte) : Nat :=
  match op with | .normBwd => recField p 12 4 | .smaxBwd => recField p 4 4 | _ => 0
def accTm (p : List Byte) : Nat := recField p 20 2
def accTn (p : List Byte) : Nat := recField p 22 2

/-- Ranges of the allotment that a block names, as (its field, offset, length, written): γ, the modulation pairs,
the statistics or log-sum-exp, the parameter gradients. -/
def blockRanges (op : RowOp) (p : List Byte) (rows : Nat) : List (Nat × Nat × Nat × Bool) :=
  let n := pN p
  let e := modBytes p
  let use (c : Bool) (x : Nat × Nat × Nat × Bool) := if c then [x] else []
  use (gammaEn op p) (24, recField p 24 4, n * e, false)
    ++ use (modEn op p) (28, recField p 28 4, recField p 32 4 * 2 * n * e, false)
    ++ use (op = .norm && statsEn p) (36, recField p 36 4, rows * 8, true)
    ++ use (op = .normBwd) (36, recField p 36 4, rows * 8, false)
    ++ use (op = .smax && lseEn p) (24, recField p 24 4, rows * 4, true)
    ++ use (pgradEn op p) (40, recField p 40 4, 4 * n + 8 * n * recField p 32 4, true)

/-- Offset fields of a block. DEDUCED (log entry 36). -/
def offsetFields (op : RowOp) : List Nat :=
  match op with
  | .norm => [24, 28, 36]
  | .normBwd => [24, 28, 36, 40]
  | .smax => [24]
  | _ => []

/-- PARAM_BLOCK_BAD (R188). DEDUCED (log entry 36). -/
def blockBad (check off value : Nat) : Stop := .tile 0x0204 check off (value % 2 ^ 24)

/-- Reserved fields of a block, as (offset, bytes), and the reserved bits of its flags. -/
def blockReserved (op : RowOp) (fromAcc : Bool) (p : List Byte) : Option Stop :=
  let z (off n : Nat) : Option Stop :=
    firstStop ((List.range n).map (fun i => stopIf (decide (recField p (off + i) 1 ≠ 0))
      (blockBad 2 off (recField p off (min n 4)))))
  let flag (off bit : Nat) : Option Stop :=
    stopIf (decide (recField p off 1 / 2 ^ bit ≠ 0)) (blockBad 2 off (recField p off 1))
  match op with
  | .gate => none
  | .norm => firstStop [flag 9 4, z 11 1, z 20 4, z 40 24]
  | .smax => firstStop [z 4 4, flag 8 3, z 9 3, z 20 4, z 28 36]
  | .normBwd => firstStop [flag 9 5, z 11 1, if fromAcc then none else z 20 4, z 44 20]
  | .smaxBwd => firstStop [flag 8 2, z 9 3, if fromAcc then none else z 20 4, z 24 40]

/-! ### Formats and pitches (R179) -/

/-- The format of an input, as it is read: 0xF takes that of the first source (R144). -/
def inputFmt (first : Nat) (w : Word) : Nat :=
  let c := descFmt w
  if c = 15 then (if first = 15 then 0 else first) else c

/-- The output format: 0xF takes that of the first source, one that is not accepted is FP32 (R144). -/
def outputFmt (first : Nat) (w : Word) : Nat :=
  let c := inputFmt first w
  if c > 0xC then 0 else c

def inPitch (c n : Nat) : Nat := rowBytes c n
def outPitch (c n : Nat) : Nat := if isBlockFmt c then rowBytes c n else ceilDiv (rowBytes c n) 16 * 16

/-! ### Issue -/

/-- A row command as its instruction names it: registers of the operands as (number, naming bit). -/
structure RowCmd where
  op : RowOp
  act : Nat
  dout : Nat
  din : Nat
  third : Option Nat
  fromAcc : Bool
  block : Option Nat
  params : List Byte
  width : Nat
  rows : Nat
  qmode : Bool
  scale : Nat
  deriving DecidableEq, Repr

/-- The input formats of a command: of din, and of the third operand. -/
def RowCmd.fmts (r : RowCmd) (sl : Slot) : Nat × Nat × Nat :=
  let f := descFmt (sl.rd r.din)
  let fin := inputFmt f (sl.rd r.din)
  let f3 := match r.third with | some d => if r.fromAcc then 0 else inputFmt f (sl.rd d) | none => 0
  (fin, f3, outputFmt f (sl.rd r.dout))

/-- The descriptors that a command uses, as (number, naming bit). -/
def RowCmd.descs (r : RowCmd) : List (Nat × Nat) :=
  [(r.dout, 47), (r.din, 42)]
    ++ (match r.third with | some d => if r.fromAcc then [] else [(d, 37)] | none => [])

/-- Byte range of a descriptor, as a pair. -/
def descRange (w : Word) : Nat × Nat := (descBase w, descLen w)

def meets (x y : Nat × Nat) : Bool := decide (x.1 < y.1 + y.2) && decide (y.1 < x.1 + x.2)

/-- The operand-buffer and accumulator spans of a row command (R55). -/
def RowCmd.spans (r : RowCmd) (sl : Slot) : List Span :=
  [descSpan (sl.rd r.dout) true, descSpan (sl.rd r.din) false]
    ++ (match r.third with
        | some d =>
          if r.fromAcc then [{ acc := true, write := true, base := accBaseOf (sl.ra d), len := accTm r.params * r.width }]
          else [descSpan (sl.rd d) false]
        | none => [])
    ++ (blockRanges r.op r.params r.rows).map (fun x => { acc := false, write := x.2.2.2, base := x.2.1, len := x.2.2.1 })

/-- Check 3 of R188 and R215 on the block. -/
def blockRange (r : RowCmd) : Option Stop :=
  let p := r.params
  let lo := if r.op.isNorm then 16 else 1
  firstStop [
    stopIf (r.op.isNorm && decide (recField p 8 1 > 1)) (blockBad 3 8 (recField p 8 1)),
    stopIf (decide (r.width < lo) || decide (r.width > 16384)) (blockBad 3 0 r.width),
    stopIf (r.op.isNorm && decide (pR p = 0)) (blockBad 3 4 0),
    stopIf (r.op.isNorm && decide (recField p 10 1 > 1) && decide (recField p 10 1 ≠ 15)) (blockBad 3 10 (recField p 10 1)),
    stopIf (r.fromAcc && (decide (accTm p = 0) || decide (accTm p > 256))) (blockBad 3 20 (accTm p)),
    stopIf (r.fromAcc && (decide (accTn p = 0) || decide (accTn p > 256))) (blockBad 3 22 (accTn p)),
    firstStop ((offsetFields r.op).map (fun o => stopIf (decide (recField p o 4 % 16 ≠ 0)) (blockBad 3 o (recField p o 4))))]

/-- The pitch rule of R179 on an input (check 3). -/
def pitchBad (r : RowCmd) (c naming : Nat) : Option Stop :=
  stopIf (decide (inPitch c r.width % 16 ≠ 0))
    (if r.op = .gate then .instr 0x0102 (regInfo 0 naming 48) else blockBad 3 0 r.width)

/-- Check 5 of R188 and R215. -/
def blockValues (r : RowCmd) (sl : Slot) : Option Stop :=
  let p := r.params
  let need := ceilDiv r.rows (pR p)
  let eps := fp32.decode (recField p 12 4)
  let pairs := modEn r.op p || pgradEn r.op p
  firstStop [
    stopIf (r.op = .norm && (!eps.isFin || eps.sign)) (blockBad 4 12 (recField p 12 4)),
    stopIf (tauEn r.op p && !(tauOf r.op p).isFin) (blockBad 4 12 (recField p 12 4)),
    stopIf (r.op.isNorm && pairs && decide (need > recField p 32 4)) (blockBad 4 32 (recField p 32 4)),
    match r.third with
    | some d =>
      if r.fromAcc then firstStop [
        stopIf (decide (accTm p ≠ handleRows (sl.ra d)) || decide (r.rows > accTm p)) (blockBad 5 20 (accTm p)),
        stopIf (decide (accTn p ≠ handleCols (sl.ra d)) || decide (r.width % max (accTn p) 1 ≠ 0))
          (blockBad 5 22 (accTn p))]
      else none
    | none => none]

/-- The checks of R188 and R215 from check 3 on. -/
def RowCmd.stop (r : RowCmd) (sl : Slot) : Option Stop :=
  let compat := sl.id.profile
  let (fi, f3, fo) := r.fmts sl
  let third := match r.third with | some d => if r.fromAcc then none else some d | none => none
  let ranges := blockRanges r.op r.params r.rows
  let lim := sl.allot.bufLen
  let inputs := [descRange (sl.rd r.din)] ++ (match third with | some d => [descRange (sl.rd d)] | none => [])
    ++ (ranges.filter (fun x => x.1 ≠ 40)).map (fun x => (x.2.1, x.2.2.1))
  firstStop [
    if r.op = .gate then firstStop [
        stopIf (decide (r.act > 3)) (.instr 0x0102 27),
        stopIf (r.width = 0 || decide (r.width > 16384)) (.instr 0x0102 (regInfo 0 32 0))]
      else blockRange r,
    pitchBad r fi 42,
    if third.isSome then pitchBad r f3 37 else none,
    badFormat compat 1 (descFmt (sl.rd r.din)) [0, 1],
    match third with | some d => badFormat compat 2 (descFmt (sl.rd d)) [0, 1] | none => none,
    if r.op.isNorm then badFormat compat 2 (recField r.params 10 1 % 16) [0, 1] else none,
    badFormat compat 3 (descFmt (sl.rd r.dout)) (List.range 13),
    blockValues r sl,
    firstStop (r.descs.map (fun d => badDesc sl 0 d.2 d.1)),
    if compat then none
    else firstStop (ranges.map (fun x => stopIf (decide (x.2.1 + x.2.2.1 > lim))
      (.tile 0x0220 0x21 lim (x.2.1 + x.2.2.1 - lim)))),
    match r.third with
    | some d =>
      if r.fromAcc then firstStop [
        badHandle sl 0 37 d,
        let top := accBaseOf (sl.ra d) + accTm r.params * r.width
        stopIf (decide (top > sl.allot.accLen)) (.tile 0x0221 (d % 16) sl.allot.accLen (top - sl.allot.accLen))]
      else none
    | none => none,
    if compat then none
    else firstStop [
      stopIf (decide (r.rows * outPitch fo r.width > descLen (sl.rd r.dout))) (.instr 0x0106 (r.dout % 16)),
      stopIf (decide (r.rows * inPitch fi r.width > descLen (sl.rd r.din))) (.instr 0x0106 (r.din % 16)),
      match third with
      | some d => stopIf (decide (r.rows * inPitch f3 r.width > descLen (sl.rd d))) (.instr 0x0106 (d % 16))
      | none => none],
    stopIf (inputs.any (meets (descRange (sl.rd r.dout)))) (.instr 0x0102 (regInfo 0 47 0)),
    stopIf ((ranges.filter (fun x => decide (x.1 = 40))).any (fun x =>
        inputs.any (meets (x.2.1, x.2.2.1)) || meets (x.2.1, x.2.2.1) (descRange (sl.rd r.dout))))
      (.instr 0x0102 (regInfo 0 42 0)),
    if takesScale fo && (!isBlockFmt fo || r.qmode) then badScale 3 fo r.scale else none,
    queueStop sl r.op.engine (r.spans sl)]

/-- Clips of the compatibility profile that a command counts at issue, where its ranges run short (R144). -/
def RowCmd.clips (r : RowCmd) (sl : Slot) : Nat :=
  let (fi, f3, fo) := r.fmts sl
  let excess (d need : Nat) : Nat := if need > descLen (sl.rd d) || clipped sl (sl.rd d) then 1 else 0
  if !sl.id.profile then 0
  else excess r.dout (r.rows * outPitch fo r.width) + excess r.din (r.rows * inPitch fi r.width)
    + (match r.third with | some d => if r.fromAcc then 0 else excess d (r.rows * inPitch f3 r.width) | none => 0)
    + ((blockRanges r.op r.params r.rows).filter (fun x => decide (x.2.1 + x.2.2.1 > sl.allot.bufLen))).length

/-- The start of a checked command: it joins its engine's sub-queue, or is complete at once where it has no
rows. The table bank is the one active at issue (R190). -/
def State.startRows (s : State) (a : At) (r : RowCmd) (post : Option Nat) : State :=
  let sl := s.at_ a
  let t := (s.core a.core).tables
  let s := s.count a { satOnStore := r.clips sl }
  if r.rows = 0 then s.duePost a post
  else s.enqueue a r.op.engine
    { pc := sl.pc, major := r.op.major, spans := r.spans sl, claims := [.sfu, .vector], granted := false, post := post,
      flight := .row {
        op := r.op, act := r.act, dout := sl.rd r.dout, din := sl.rd r.din, fromAcc := r.fromAcc,
        dthird := (match r.third with | some d => if r.fromAcc then sl.ra d else sl.rd d | none => 0),
        params := r.params, width := r.width, rows := r.rows, qmode := r.qmode, scale := r.scale, row := 0,
        bank := t.activeBank, gen := if t.activeBank then t.gen1 else t.gen0, ref := s.refMode a, counted := {} } }

/-! ### GATE (R178) -/

def gateUse : Use := { dst := .d, src1 := .d, src2 := .d, src3 := .s, imm := [(16, 6)] }

/-- A command of GATE from its word. -/
def gateCmd (sl : Slot) (f : Fields) : RowCmd :=
  let sh := (sl.rs f.src3).toNat
  let sr := BitVec.ofNat 5 (fieldOf f.imm.toNat 22 5)
  let c := outputFmt (descFmt (sl.rd f.src1.toNat)) (sl.rd f.dst.toNat)
  { op := .gate, act := fieldOf f.imm.toNat 27 3, dout := f.dst.toNat, din := f.src1.toNat, third := some f.src2.toNat,
    fromAcc := false, block := none, params := [], width := sh % 2 ^ 32, rows := sh / 2 ^ 32,
    qmode := f.imm.toNat.testBit 30,
    scale := if sr = 0 && !isBlockFmt c then 0x3F800000 else (sl.rs sr).toNat % 2 ^ 32 }

/-- Reserved bits of used descriptors (check 2). -/
def descReserved (sl : Slot) (ds : List (Nat × Nat)) : Option Stop :=
  if sl.id.profile then none
  else firstStop (ds.map (fun d => stopIf (decide (fieldOf (sl.rd d.1).toNat 52 12 ≠ 0)) (.instr 0x0102 (regInfo 0 d.2 52))))

def execGate (a : At) (f : Fields) (s : State) : Outcome State Fault Refusal :=
  .next (s.run a 0x29 8
    (fun s =>
      let sl := s.at_ a
      let r := gateCmd sl f
      firstStop [badField sl.id.profile gateUse f, descReserved sl r.descs, r.stop sl])
    (fun s => s.startRows a (gateCmd (s.at_ a) f) (postOf f)))

/-! ### Commands with a parameter block (R180, R208) -/

/-- A block's address and bytes as read at issue. -/
def State.paramBlock (s : State) (g : Nat) : List Byte := s.devRead g 64

/-- Check 1 of R188: the block's address and the range it lies in. -/
def State.blockAddr (s : State) (a : At) (g : Nat) : Option Stop :=
  firstStop [
    stopIf (decide (g % 64 ≠ 0)) (blockBad 1 0 g),
    match s.devStop (s.whoAt a) false g 64 with
    | some (.access (.quarantined x)) => some (.access (.quarantined x))
    | some (.access (.poisoned x)) => some (.access (.poisoned x))
    | some (.access _) => some (blockBad 1 0 g)
    | x => x]

/-- Checks and start of a command whose block lies at `g`. DEDUCED (log entry 36). -/
def State.blockCmd (s : State) (a : At) (f : Fields) (u : Use) (major : Nat) (g : Slot → Nat)
    (mk : Slot → List Byte → RowCmd) : State :=
  s.run a major 8
    (fun s =>
      let sl := s.at_ a
      let p := s.paramBlock (g sl)
      let r := mk sl p
      firstStop [s.blockAddr a (g sl), badField sl.id.profile u f, descReserved sl r.descs,
        if sl.id.profile then none else blockReserved r.op r.fromAcc p, r.stop sl])
    (fun s =>
      let sl := s.at_ a
      let r := mk sl (s.paramBlock (g sl))
      ((s.devSpend (s.whoAt a) false (g sl) 64).passFree (g sl) 64).startRows a r (postOf f))

def fwdUse : Use := { dst := .d, src1 := .d, src2 := .s, src3 := .s, imm := [(16, 15)] }

/-- NORM.FWD and SMAX.FWD from their word and block (R180). -/
def fwdCmd (op : RowOp) (f : Fields) (sl : Slot) (p : List Byte) : RowCmd :=
  { op := op, act := 0, dout := f.dst.toNat, din := f.src1.toNat, third := none, fromAcc := false, block := some 37,
    params := p, width := pN p, rows := (sl.rs f.src3).toNat % 2 ^ 32, qmode := blockQmode op p, scale := outScale p }

def execNormFwd (a : At) (f : Fields) (s : State) : Outcome State Fault Refusal :=
  .next (s.blockCmd a f fwdUse 0x2C (fun sl => (sl.rs f.src2).toNat) (fwdCmd .norm f))
def execSmaxFwd (a : At) (f : Fields) (s : State) : Outcome State Fault Refusal :=
  .next (s.blockCmd a f fwdUse 0x2C (fun sl => (sl.rs f.src2).toNat) (fwdCmd .smax f))

def dyAcc (f : Fields) : Bool := f.imm.toNat.testBit 30
def bwdUse (acc : Bool) : Use :=
  { dst := .d, src1 := .d, src2 := if acc then .a else .d, src3 := .s, imm := [(16, 14)] }

/-- NORM.BWD and SMAX.BWD from their word and block (R208). -/
def bwdCmd (op : RowOp) (f : Fields) (_sl : Slot) (p : List Byte) : RowCmd :=
  { op := op, act := 0, dout := f.dst.toNat, din := f.src1.toNat, third := some f.src2.toNat, fromAcc := dyAcc f,
    block := some 32, params := p, width := pN p, rows := blockRows op p, qmode := blockQmode op p, scale := outScale p }

def execNormBwd (a : At) (f : Fields) (s : State) : Outcome State Fault Refusal :=
  .next (s.blockCmd a f (bwdUse (dyAcc f)) 0x2D (fun sl => (sl.rs f.src3).toNat) (bwdCmd .normBwd f))
def execSmaxBwd (a : At) (f : Fields) (s : State) : Outcome State Fault Refusal :=
  .next (s.blockCmd a f (bwdUse (dyAcc f)) 0x2E (fun sl => (sl.rs f.src3).toNat) (bwdCmd .smaxBwd f))

/-! ### Running statistics (R182) -/

/-- Rounding to 24 significant bits in the extended exponent range (R182). DEDUCED (log entry 35). -/
def rext : Fv → Fv
  | .fin s m e =>
    let r := roundQ 24 (-1045) m 1 e
    .fin s r.1 r.2
  | v => v

/-- The quotient of two naturals, rounded in that form. DEDUCED (log entry 35). -/
def rextDiv (n d : Nat) : Fv :=
  let r := roundQ 24 (-1045) n d 0
  .fin false r.1 r.2

/-- The quotient of a value by a natural. DEDUCED (log entry 35). -/
def fvDivNat (v : Fv) (d : Nat) : Fv :=
  match v with
  | .fin s m e =>
    let r := roundQ 24 (-1045) m d e
    .fin s r.1 r.2
  | v => v

/-- The running count, mean and sum of squares of a lane. -/
structure Running where
  c : Nat := 0
  m : Fv := .zero
  q : Fv := .zero
  deriving DecidableEq, Repr

/-- One element taken into a lane. -/
def Running.take (rms : Bool) (r : Running) (x : Fv) : Running :=
  let z := if rms then rext (x.mul x) else x
  let c := r.c + 1
  let dl := rext (z.sub r.m)
  let m := rext (r.m.add (rext (dl.mul (rextDiv 1 c))))
  { c := c, m := m, q := if rms then r.q else rext (r.q.add (rext (dl.mul (rext (z.sub m))))) }

/-- Two lanes combined; a lane without elements is the identity. -/
def Running.join (a b : Running) : Running :=
  if a.c = 0 then b else if b.c = 0 then a
  else
    let c := a.c + b.c
    let dl := rext (b.m.sub a.m)
    { c := c, m := rext (a.m.add (rext (dl.mul (rextDiv b.c c))))
      q := rext ((rext (a.q.add b.q)).add (rext ((rext (dl.mul dl)).mul (rextDiv (a.c * b.c) c)))) }

/-- The elements of lane `l` in increasing order. -/
def laneElems {α : Type} (xs : List α) (l : Nat) : List α :=
  (List.range (ceilDiv (xs.length - l) 1024)).filterMap (fun i => xs[l + 1024 * i]?)

/-- Statistics of a row (R182): the mean and the variance before their rounding. DEDUCED (log entry 35). -/
def rowStats (rms : Bool) (xs : List Fv) : Running :=
  pairTree Running.join {} 10 ((List.range 1024).map (fun l => (laneElems xs l).foldl (Running.take rms) {}))

/-- A sum formed per lane in increasing order and combined in the pairwise tree (R123, R186, R211). -/
def laneSum (xs : List Fv) : Fv :=
  let add (x y : Fv) : Fv := (x.add y).r32
  pairTree add .zero 10 ((List.range 1024).map (fun l => (laneElems xs l).foldl add .zero))

/-! ### Rows -/

def canonNan : Fv := .nan

/-- The values of row `i` of an operand and how many markers they hold. -/
def State.rowIn (s : State) (a : At) (c : Nat) (w : Word) (n i : Nat) : List Fv × Nat :=
  let es := decodeRow c (fun j => s.descByte a w (i * inPitch c n) j) n
  (es.map (·.val), markersIn es)

/-- An array of the parameter formats at a byte offset of the allotment. -/
def State.paramRow (s : State) (a : At) (p : List Byte) (off n : Nat) : List Fv :=
  let c := if recField p 10 1 = 1 then 1 else 0
  (decodeRow c (fun j => (s.bufAt a (off + j)).toNat) n).map (·.val)

/-- α and β of the pair of a row (R181). -/
def State.modPair (s : State) (a : At) (p : List Byte) (row : Nat) : List Fv × List Fv :=
  let n := pN p
  let b := recField p 28 4 + row / pR p * 2 * n * modBytes p
  (s.paramRow a p b n, s.paramRow a p (b + n * modBytes p) n)

def isSpecial (vs : List Fv) : Bool := vs.any (fun v => !v.isFin)

/-- What a row gives: its output values, the words written beside it (offset and value), and the free values
used. -/
structure RowOut where
  vals : List Fv
  side : List (Nat × Lane) := []
  used : Nat := 0
  deriving DecidableEq, Repr

/-- The activation of GATE (R178). -/
def gateFn (act : Nat) : SfuFn :=
  match act with | 0 => .silu | 1 => .gelu | 2 => .geluT | _ => .sigmoid

def State.gateRow (s : State) (r : RowRun) (g u : List Fv) : RowOut :=
  { vals := (List.range r.width).map (fun i =>
      ((sfu32 r.ref (sfuRes (gateFn r.act) (g.getD i .zero) .zero) (s.cand i)).mul (u.getD i .zero)).r32)
    used := r.width }

/-- Normalised output element (R184). -/
def normElem (rms gamma mod dead : Bool) (mu rstd x g al be : Fv) : Fv :=
  let h := if rms then x else (x.sub mu).r32
  let h := if dead then Fv.zero else (h.mul rstd).r32
  let h := if gamma then (h.mul g).r32 else h
  if mod then (((h.mul al).add h).r32.add be).r32 else h

/-- A row of NORM.FWD (R182 to R184). -/
def State.normRow (s : State) (a : At) (r : RowRun) (xs : List Fv) : RowOut :=
  let p := r.params
  let rms := recField p 8 1 = 1
  let at8 := recField p 36 4 + 8 * r.row
  let stats (mu rstd : Fv) : List (Nat × Lane) :=
    if statsEn p then [(at8, mu.toLane), (at8 + 4, rstd.toLane)] else []
  if isSpecial xs then { vals := xs.map (fun _ => canonNan), side := stats .nan .nan }
  else
    let t := rowStats rms xs
    let mu := if rms then Fv.zero else t.m.r32
    let var := if rms then t.m else (let v := fvDivNat t.q t.c; if v.lt .zero then Fv.zero else v)
    let ve := (var.add (fp32.decode (recField p 12 4))).r32
    let huge := !var.r32.isFin
    let rstd := if huge then Fv.zero else sfu32 r.ref (sfuRes .rsqrt ve .zero) (s.cand 0)
    let dead := huge || !rstd.isFin
    let g := s.paramRow a p (recField p 24 4) r.width
    let m := s.modPair a p r.row
    { vals := (List.range r.width).map (fun i => normElem rms (gammaEn .norm p) (modEn .norm p) dead mu rstd
        (xs.getD i .zero) (g.getD i .zero) (m.1.getD i .zero) (m.2.getD i .zero))
      side := stats mu rstd, used := 1 }

/-- A row of SMAX.FWD (R186). -/
def State.smaxRow (s : State) (r : RowRun) (xs : List Fv) : RowOut :=
  let p := r.params
  let tau := tauOf .smax p
  let zs := if tauEn .smax p then xs.map (fun x => (x.mul tau).r32) else xs
  let pos := zs.filter (fun z => z = .inf false)
  let neg := zs.filter (fun z => z = .inf true)
  let lse (v : Fv) : List (Nat × Lane) := if lseEn p then [(recField p 24 4 + 4 * r.row, v.toLane)] else []
  if zs.any Fv.isNan || (!pos.isEmpty && !neg.isEmpty) then
    { vals := zs.map (fun _ => canonNan), side := lse .nan }
  else if !pos.isEmpty then
    let share := fp32.decode (Fv.div32 (.fin false 1 0) (.ofInt pos.length))
    { vals := zs.map (fun z => if z = .inf false then share else .zero), side := lse (.inf false) }
  else if neg.length = zs.length then { vals := zs.map (fun _ => .zero), side := lse (.inf true) }
  else
    let m := (zs.filter Fv.isFin).foldl Fv.maxv ((zs.find? Fv.isFin).getD .zero)
    let es := (List.range r.width).map (fun i =>
      sfu32 r.ref (sfuRes .exp ((zs.getD i .zero).sub m).r32 .zero) (s.cand i))
    let sum := laneSum es
    let inv := sfu32 r.ref (sfuRes .rcp sum .zero) (s.cand r.width)
    let ln := sfu32 r.ref (sfuRes .log sum .zero) (s.cand (r.width + 1))
    { vals := es.map (fun e => (e.mul inv).r32), side := lse (m.add ln).r32, used := r.width + 2 }

/-- The incoming gradient of a row, from a descriptor or from the accumulator tile (R209). -/
def State.dyRow (s : State) (a : At) (c : Nat) (r : RowRun) : List Fv × Nat :=
  if r.fromAcc then
    let tm := accTm r.params
    let tn := accTn r.params
    ((List.range r.width).map (fun k =>
      Fv.ofLane (s.accAt a (accBaseOf r.dthird + k / tn * (tm * tn) + r.row * tn + k % tn))), 0)
  else s.rowIn a c r.dthird r.width r.row

/-- A word of FP32 in the allotment. -/
def State.bufLane (s : State) (a : At) (off : Nat) : Lane := BitVec.ofNat 32 (ofBytes (s.bufBytes a off 4))

/-- A row of NORM.BWD (R211, R212): dx, and the parameter gradients that the row adds to. -/
def State.normBwdRow (s : State) (a : At) (r : RowRun) (xs dy : List Fv) : RowOut :=
  let p := r.params
  let n := r.width
  let rms := recField p 8 1 = 1
  let at8 := recField p 36 4 + 8 * r.row
  let mu := if rms then Fv.zero else .ofLane (s.bufLane a at8)
  let rstd := Fv.ofLane (s.bufLane a (at8 + 4))
  let dead := rstd = .inf false
  let gam := gammaEn .normBwd p
  let mod := modEn .normBwd p
  let gs := s.paramRow a p (recField p 24 4) n
  let al := (s.modPair a p r.row).1
  let ks := List.range n
  let xh := ks.map (fun k => if dead then Fv.zero else (((xs.getD k .zero).sub mu).mul rstd).r32)
  let h := ks.map (fun k => if gam then ((xh.getD k .zero).mul (gs.getD k .zero)).r32 else xh.getD k .zero)
  let g := ks.map (fun k => let d := dy.getD k .zero; if mod then ((d.mul (al.getD k .zero)).add d).r32 else d)
  let gh := ks.map (fun k => if gam then ((g.getD k .zero).mul (gs.getD k .zero)).r32 else g.getD k .zero)
  let nv := Fv.ofInt n
  let av := if rms then Fv.zero else fp32.decode (Fv.div32 (laneSum gh) nv)
  let bv := fp32.decode (Fv.div32 (laneSum (ks.map (fun k => ((gh.getD k .zero).mul (xh.getD k .zero)).r32))) nv)
  let dx (k : Nat) : Fv :=
    if isSpecial xs || isSpecial dy then canonNan
    else if dead || rstd.isZero then .zero
    else
      let t := (((xh.getD k .zero).neg.mul bv).add (gh.getD k .zero)).r32
      ((t.sub av).r32.mul rstd).r32
  let base := recField p 40 4
  let fresh := r.row = 0 && pgradZero p
  let old (off : Nat) : Fv := if fresh then .zero else .ofLane (s.bufLane a off)
  let upd (off : Nat) (add : Fv) : Nat × Lane := (off, ((old off).add add).toLane)
  let pair := base + 4 * n + 8 * n * (r.row / pR p)
  let clear : List (Nat × Lane) :=
    if fresh then (List.range (n + 2 * n * recField p 32 4)).map (fun i => (base + 4 * i, 0)) else []
  let grads := if !pgradEn .normBwd p then []
    else clear
      ++ (if gam then ks.map (fun k => upd (base + 4 * k) ((g.getD k .zero).mul (xh.getD k .zero)).r32) else [])
      ++ (if mod then ks.map (fun k => upd (pair + 4 * k) ((dy.getD k .zero).mul (h.getD k .zero)).r32)
          ++ ks.map (fun k => upd (pair + 4 * n + 4 * k) (dy.getD k .zero)) else [])
  { vals := ks.map dx, side := grads }

/-- A row of SMAX.BWD (R214). -/
def smaxBwdRow (r : RowRun) (ys dy : List Fv) : RowOut :=
  let tau := tauOf .smaxBwd r.params
  if isSpecial ys || isSpecial dy then { vals := ys.map (fun _ => canonNan) }
  else
    let ks := List.range r.width
    let d := laneSum (ks.map (fun k => ((ys.getD k .zero).mul (dy.getD k .zero)).r32))
    { vals := ks.map (fun k =>
        let y := ys.getD k .zero
        if y.isZero then .zero
        else
          let v := (y.mul ((dy.getD k .zero).sub d).r32).r32
          if tauEn .smaxBwd r.params then (tau.mul v).r32 else v) }

/-- What the row at hand gives. -/
def State.rowOut (s : State) (a : At) (r : RowRun) : RowOut × Nat :=
  let f := descFmt r.din
  let x := s.rowIn a (inputFmt f r.din) r.din r.width r.row
  let c3 := inputFmt f r.dthird
  match r.op with
  | .gate => let u := s.rowIn a c3 r.dthird r.width r.row; (s.gateRow r x.1 u.1, x.2 + u.2)
  | .norm => (s.normRow a r x.1, x.2)
  | .smax => (s.smaxRow r x.1, x.2)
  | .normBwd => let d := s.dyRow a c3 r; (s.normBwdRow a r x.1 d.1, x.2 + d.2)
  | .smaxBwd => let d := s.dyRow a c3 r; (smaxBwdRow r x.1 d.1, x.2 + d.2)

/-- Words of FP32 written into the allotment. -/
def State.putLanes (s : State) (a : At) (ws : List (Nat × Lane)) : State :=
  ws.foldl (fun s w => s.bufWrite a w.1 (toBytes 4 w.2.toNat)) s

/-- One row carried out: its output stored as R179 states, its counts, and the command's next row or its end. -/
def State.runRow (s : State) (a : At) (q : Queued) (r : RowRun) : State :=
  let (o, marks) := s.rowOut a r
  let c := outputFmt (descFmt r.din) r.dout
  let quant := quantRow c (storeGiven c r.qmode r.scale) o.vals
  let off := r.row * outPitch c r.width
  let cnt : NumCount := { satOnStore := quant.sat, zeroBlocks := quant.zeros, markersRead := marks }
  let s := s.bufWrite a (descBase r.dout + off) (quant.bytes.take (descLen r.dout - off))
  let s := ((s.putLanes a o.side).count a cnt).passN o.used
  s.updateHead a r.op.engine (if r.row + 1 ≥ r.rows then none
    else some { q with granted := false, flight := .row { r with row := r.row + 1, counted := r.counted.add cnt } })

/-- Counts of a slot taken back (R192). DEDUCED (log entry 37). -/
def NumCount.less (x y : NumCount) : NumCount :=
  { x with satOnStore := x.satOnStore - y.satOnStore, zeroBlocks := x.zeroBlocks - y.zeroBlocks,
           markersRead := x.markersRead - y.markersRead }

/-- A residue mismatch during a row (R429): a command on the SFU starts again as a whole in reference mode and a
mismatch of that replay fences the core; a row of the vector unit runs again once. DEDUCED (log entry 37). -/
def State.rowUpset (s : State) (a : At) (q : Queued) (r : RowRun) (again : Bool) : State :=
  let fwd := r.op = .gate || r.op = .norm || r.op = .smax
  let code := if fwd then 0x0804 else 0x0805
  let s := s.mismatch a q.pc code r.op.major r.row
  if again || (fwd && r.ref) then (s.mismatch a q.pc code r.op.major r.row).fenceCore a.core 2
  else if fwd then
    let sl := s.at_ a
    let s := s.setAt a { sl with cnt := sl.cnt.less r.counted }
    (s.updateHead a r.op.engine
      (some { q with flight := .row { r with row := 0, ref := true, counted := {} } })).countTowardFence a.core
  else (s.runRow a q r).countTowardFence a.core

/-- The row command whose claim is granted, at the head of its engine. -/
def State.rowHead (s : State) (a : At) : Option (Queued × RowRun) :=
  let pick (e : Engine) := match s.claimRuns a e with
    | some q => match q.flight with
      | .row r => if r.op.engine = e then some (q, r) else none
      | _ => none
    | none => none
  match pick .sfu with
  | some x => some x
  | none => pick .vector

/-- ROW_COMMAND_ROW: one row of the slot's row command, where its claim is granted (R56, R176). -/
def execRowCommandRow (a : At) (s : State) : Outcome State Fault Refusal :=
  .next (match s.rowHead a with
    | none => s
    | some (q, r) =>
      match a.upset with
      | .ok => s.runRow a q r
      | .once => s.rowUpset a q r false
      | .twice => s.rowUpset a q r true)

end Sys2Proof.Machine
end

