-- ==== Sys2Proof/Machine/Tables.lean ====
section
/-!
DEFINITION. The reload of the interpolation tables of a region (R190 to R194).
-/
namespace Sys2Proof.Machine
open Host

def State.region (s : State) (r : Nat) : Region := mapGet {} s.regions r
def State.setRegion (s : State) (r : Nat) (v : Region) : State := { s with regions := mapSet {} s.regions r v }

/-- Cores of a region (R15). -/
def coresOf (r : Nat) : List Nat := (List.range 12).map (· + 12 * r)

/-- An event of a region lantern (R12, R451). -/
def State.lanternEvent (s : State) (n die code sev detail : Nat) : State :=
  s.post { code := code, sev := sev, die := die, cls := 1, index := n, detail := detail }

def State.tableEvent (s : State) (r code sev gen : Nat) : State :=
  s.lanternEvent r (r / 2) code sev (r * 2 ^ 40 + gen % 2 ^ 32)

/-- Step 1 of R191 for the next request that waits: the digest of the image matches, or the request is at its end
with SFU_TABLE_REJECTED. Whether it matches is a free value. -/
def State.tableStart (s : State) (r : Nat) : Nat → State
  | 0 => s
  | n + 1 =>
    let v := s.region r
    let gen := ((s.core (12 * r)).tables.gen + 1) % 2 ^ 32
    let rejected := Config.freeNat s.freeCtr % 2 = 1
    let s := s.tick
    if rejected then
      ((s.setRegion r { v with tblWaiting := n }).tableEvent r 0x0403 1 gen).tableStart r n
    else
      let s := s.setRegion r { v with tblStep := 2, tblWaiting := n, tblGen := gen }
      (coresOf r).foldl (fun s c =>
        let k := s.core c
        s.setCore c { k with tables := { k.tables with reloadBusy := true } }) s

/-- A request for a reload of a region's tables; it waits while another one is under way (R191). -/
def State.tableRequest (s : State) (r : Nat) : State :=
  let v := s.region r
  if v.tblStep = 0 then s.tableStart r (v.tblWaiting + 1)
  else s.setRegion r { v with tblWaiting := v.tblWaiting + 1 }

/-- SFU_TABLE_BANK_WRITE: steps 2 and 3 of R191, once no command holds an inactive bank of the region. -/
def execSfuTableBankWrite (region : Nat) (s : State) : Outcome State Fault Refusal :=
  .next (
    let v := s.region region
    if v.tblStep = 2 && (coresOf region).all (fun c => (s.core c).heldInactive = 0) then
      let s := s.setRegion region { v with tblStep := 4 }
      (coresOf region).foldl (fun s c =>
        let k := s.core c
        let t := k.tables
        s.setCore c { k with tables :=
          if t.activeBank then { t with gen0 := v.tblGen, flipDue := true } else { t with gen1 := v.tblGen, flipDue := true } }) s
    else s)

/-- SFU_TABLE_FLIP: step 4 of R191 at a core, and step 5 once all twelve cores of the region have flipped. -/
def execSfuTableFlip (core : Nat) (s : State) : Outcome State Fault Refusal :=
  .next (
    let k := s.core core
    let r := core / 12
    if !k.tables.flipDue then s
    else
      let s := s.setCore core { k with tables := { k.tables with activeBank := !k.tables.activeBank, flipDue := false } }
      if (coresOf r).any (fun c => (s.core c).tables.flipDue) then s
      else
        let v := s.region r
        let s := (coresOf r).foldl (fun s c =>
          let x := s.core c
          s.setCore c { x with tables := { x.tables with reloadBusy := false } }) s
        ((s.setRegion r { v with tblStep := 0 }).tableEvent r 0x0402 0 v.tblGen).tableStart r v.tblWaiting)

end Sys2Proof.Machine
end

