-- ==== Sys2Proof/Machine/Conv.lean ====
section
/-!
DEFINITION. Convolution and pooling on the window engine (R227 to R241): the descriptor, its checks, and the
passes of a command.
-/
namespace Sys2Proof.Machine
open Host

/-! ### The descriptor (R229) -/

def cvStored (d : List Byte) : Nat := recField d 0 1 / 16
def cvCompute (d : List Byte) : Nat := recField d 0 1 % 16
def cvFmtW (d : List Byte) : Nat := recField d 1 1 % 16
def cvFmtY (d : List Byte) : Nat := recField d 2 1 % 16
def cvFlag (d : List Byte) (i : Nat) : Bool := (recField d 3 1).testBit i
def cvPost (d : List Byte) : Bool := cvFlag d 0
def cvExchange (d : List Byte) : Bool := cvFlag d 1
def cvCausal (d : List Byte) : Bool := cvFlag d 4
def cvReplicate (d : List Byte) : Bool := cvFlag d 5
def cvQmode (d : List Byte) : Bool := cvFlag d 6
def cvRun (d : List Byte) : Nat := match fieldOf (recField d 3 1) 2 2 with | 1 => 16 | 2 => 64 | _ => 32
/-- Kernel extent, stride, dilation and padding along axis 0 (time), 1 (rows), 2 (columns). -/
def cvK (d : List Byte) (x : Nat) : Nat := recField d (4 + x) 1
def cvStride (d : List Byte) (x : Nat) : Nat := recField d (7 + x) 1
def cvDil (d : List Byte) (x : Nat) : Nat := recField d (10 + x) 1
def cvPad (d : List Byte) (x : Nat) : Nat := recField d (13 + x) 1
def cvIn (d : List Byte) (x : Nat) : Nat := recField d (16 + 2 * x) 2
def cvCin (d : List Byte) : Nat := recField d 22 2
def cvCout (d : List Byte) : Nat := recField d 24 2
def cvCpIn (d : List Byte) : Nat := recField d 26 2
def cvCpOut (d : List Byte) : Nat := recField d 28 2
def cvGroups (d : List Byte) : Nat := recField d 30 2
def cvBaseX (d : List Byte) : Nat := recField d 32 8
def cvBaseW (d : List Byte) : Nat := recField d 40 8
def cvBaseY (d : List Byte) : Nat := recField d 48 8
def cvScaleX (d : List Byte) : Nat := recField d 56 4
def cvScaleW (d : List Byte) : Nat := recField d 60 4
def cvScaleY (d : List Byte) : Nat := recField d 64 4
def cvStripeH (d : List Byte) : Nat := recField d 68 2
def cvInStripeH (d : List Byte) : Nat := recField d 70 2
def cvOutCtr (d : List Byte) : Nat := recField d 72 2
def cvInCtr (d : List Byte) : Nat := recField d 74 2
def cvRowBlock (d : List Byte) : Nat := recField d 76 2
def cvWaitMs (d : List Byte) : Nat := let w := recField d 78 2; if w = 0 then 50 else w
def cvExtTop (d : List Byte) : Nat := recField d 80 2
def cvExtBot (d : List Byte) : Nat := recField d 82 2
def cvTileP (d : List Byte) : Nat := recField d 84 2
def cvExclude (d : List Byte) : Bool := (recField d 86 1).testBit 0

/-- Padding before the input along an axis, and in all (R232). -/
def cvFront (d : List Byte) (x : Nat) : Nat :=
  if x = 0 && cvCausal d then cvDil d 0 * (cvK d 0 - 1) else cvPad d x
def cvPadAll (d : List Byte) (x : Nat) : Nat :=
  if x = 0 && cvCausal d then cvDil d 0 * (cvK d 0 - 1) else 2 * cvPad d x

/-- Output dimension along an axis; 0 where none of the input fits (R232). -/
def cvOut (d : List Byte) (x : Nat) : Nat :=
  let span := cvDil d x * (cvK d x - 1) + 1
  let len := cvIn d x + cvPadAll d x
  if len < span || cvStride d x = 0 then 0 else (len - span) / cvStride d x + 1

/-- Channels of a group, in and out. -/
def cvCg (d : List Byte) : Nat := cvCin d / cvGroups d
def cvOg (d : List Byte) : Nat := cvCout d / cvGroups d
/-- Output channels of a block. -/
def cvBlock (d : List Byte) : Nat := min (cvOg d) 256
def cvTaps (d : List Byte) : Nat := cvK d 0 * cvK d 1 * cvK d 2
def cvTileK (d : List Byte) : Nat := cvTaps d * cvCg d

/-- Rows that the command computes: first, and one past the last (R233). -/
def cvRows (d : List Byte) (s : Nat) : Nat × Nat :=
  (s * cvStripeH d - cvExtTop d, min (min ((s + 1) * cvStripeH d) (cvOut d 1) + cvExtBot d) (cvOut d 1))

/-- The formats in force; an unaccepted one of the compatibility profile runs in FP32 (R144). -/
def cvFmts (compat : Bool) (d : List Byte) : Nat × Nat × Nat × Nat :=
  let st := if compat && cvStored d = 15 then 0 else cvStored d
  let cp := cvCompute d
  let c := if compat && !((1 ≤ cp && cp ≤ 4) || cp = 0xC) then 0 else cp
  (st, c, if compat && cvFmtW d = 15 then st else cvFmtW d, if compat && cvFmtY d = 15 then st else cvFmtY d)

/-- Bytes of a position of a tensor: its channels at their pitch. -/
def posBytes (c pitch : Nat) : Nat := rowBytes c pitch

/-! ### Line buffers (R236, R237) -/

/-- The format whose size the line-buffer check takes. -/
def lineFmt (num : NumCtl) (st c : Nat) : Nat :=
  if num.fallbackEn && st ≠ c then (nextFallback st c).getD c else c

/-- LB of R237 for passes of `p` columns. -/
def lineBytes (d : List Byte) (c p : Nat) : Nat :=
  cvK d 0 * (cvDil d 1 * (cvK d 1 - 1) + 1 + cvStride d 1)
    * ((p - 1) * cvStride d 2 + cvDil d 2 * (cvK d 2 - 1) + 1) * posBytes c (cvCpIn d)

/-- Staging bytes that dwst must hold (R237). -/
def weightBytes (op : ConvOp) (d : List Byte) (fw : Nat) : Nat :=
  match op with
  | .conv => 2 * cvBlock d * stagedRow fw (cvTileK d)
  | .dwconv => cvTaps d * posBytes fw (cvCpIn d)
  | _ => 0

def twoMiB : Nat := 0x200000

/-! ### Issue (R228, R239) -/

/-- A command as its instruction names it. -/
structure ConvCmd where
  op : ConvOp
  desc : List Byte
  acc : Nat
  dline : Nat
  dwst : Nat
  stripe : Nat
  offx : Int
  offy : Int
  deriving DecidableEq, Repr

def convUse (op : ConvOp) : Use :=
  { dst := if op = .conv then .a else .none_, src1 := .s, src2 := .d,
    src3 := if op = .conv || op = .dwconv then .d else .none_, imm := [(16, 15)] }

def convCmd (op : ConvOp) (f : Fields) (w2 : Word) (sl : Slot) (d : List Byte) : ConvCmd :=
  { op := op, desc := d, acc := f.dst.toNat, dline := f.src2.toNat, dwst := f.src3.toNat,
    stripe := (sl.rs (w2.extractLsb' 53 5)).toNat % 65536, offx := offReg sl w2 48, offy := offReg sl w2 43 }

/-- CONV_DESC_BAD (R239). -/
def convBad (check off value : Nat) : Stop := .tile 0x0205 check off (value % 2 ^ 24)

/-- A field outside its range (check 3). -/
def convField (d : List Byte) (off n lo hi : Nat) : Option Stop :=
  stopIf (decide (recField d off n < lo) || decide (recField d off n > hi)) (convBad 3 off (recField d off n))

/-- Reserved fields of the descriptor (check 2). -/
def convReserved (d : List Byte) : Option Stop :=
  firstStop ([
    stopIf (decide (recField d 1 1 / 16 ≠ 0)) (convBad 2 1 (recField d 1 1)),
    stopIf (decide (recField d 2 1 / 16 ≠ 0)) (convBad 2 2 (recField d 2 1)),
    stopIf (cvFlag d 7) (convBad 2 3 (recField d 3 1)),
    stopIf (decide (recField d 86 1 / 2 ≠ 0)) (convBad 2 86 (recField d 86 1))]
    ++ (List.range 41).map (fun i => stopIf (decide (recField d (87 + i) 1 ≠ 0)) (convBad 2 87 (recField d (87 + i) 1))))

/-- The formats of the descriptor (check 3 of R239). DEDUCED (log entry 40). -/
def convFormats (compat : Bool) (op : ConvOp) (d : List Byte) : Option Stop :=
  let st := cvStored d
  let cp := cvCompute d
  if compat then none
  else match op with
    | .conv => firstStop [
        stopIf (st = 15 || cp = 15) (.instr 0x0223 (1 * 4096 + 15)),
        stopIf (!((1 ≤ cp && cp ≤ 4) || cp = 0xC)) (.instr 0x0103 (1 * 4096 + cp)),
        stopIf (decide (st ≠ cp) && !(st ≤ 2 || st = 0xE)) (.instr 0x0103 (1 * 4096 + st)),
        badFormat false 2 (cvFmtW d) ((List.range 12).map (· + 1)),
        badFormat false 3 (cvFmtY d) allFmts]
    | .dwconv => firstStop [badFormat false 1 st allFmts, badFormat false 2 (cvFmtW d) [0, 1],
        badFormat false 3 (cvFmtY d) allFmts]
    | _ => firstStop [badFormat false 1 st allFmts, badFormat false 3 (cvFmtY d) allFmts]

/-- Check 4 of R239: field ranges, divisibility, pitches, output dimensions. -/
def convRanges (d : List Byte) (st fy : Nat) : Option Stop :=
  let axes := [0, 1, 2]
  firstStop (
    axes.map (fun x => convField d (4 + x) 1 1 7) ++ axes.map (fun x => convField d (7 + x) 1 1 8)
    ++ axes.map (fun x => convField d (10 + x) 1 1 8)
    ++ axes.map (fun x => if x = 0 && cvCausal d then none else convField d (13 + x) 1 0 (cvDil d x * (cvK d x - 1)))
    ++ axes.map (fun x => convField d (16 + 2 * x) 2 1 65535)
    ++ [stopIf (decide (fieldOf (recField d 3 1) 2 2 = 3)) (convBad 3 3 (recField d 3 1)),
        convField d 22 2 1 16384, convField d 24 2 1 16384,
        convField d 26 2 (cvCin d) 65535,
        stopIf (decide (posBytes st (cvCpIn d) % 16 ≠ 0) || decide (cvCpIn d % groupElems st ≠ 0)) (convBad 3 26 (cvCpIn d)),
        convField d 28 2 (cvCout d) 65535,
        stopIf (decide (posBytes fy (cvCpOut d) % 16 ≠ 0) || decide (cvCpOut d % groupElems fy ≠ 0)) (convBad 3 28 (cvCpOut d)),
        stopIf (cvGroups d = 0 || decide (cvCin d % max (cvGroups d) 1 ≠ 0) || decide (cvCout d % max (cvGroups d) 1 ≠ 0))
          (convBad 3 30 (cvGroups d)),
        stopIf (decide (cvBaseX d % 16 ≠ 0)) (convBad 3 32 (cvBaseX d)),
        stopIf (decide (cvBaseW d % 16 ≠ 0)) (convBad 3 40 (cvBaseW d)),
        stopIf (decide (cvBaseY d % 16 ≠ 0)) (convBad 3 48 (cvBaseY d)),
        convField d 68 2 1 65535,
        stopIf (cvExchange d && decide (cvInStripeH d = 0)) (convBad 3 70 0),
        convField d 76 2 1 (cvStripeH d),
        convField d 84 2 1 256]
    ++ axes.map (fun x => stopIf (cvOut d x = 0) (convBad 3 (16 + 2 * x) (cvIn d x))))

/-- Check 5 of R239. -/
def convStripe (r : ConvCmd) : Option Stop :=
  let d := r.desc
  let pooled := decide (r.op ≠ .conv)
  firstStop [
    stopIf ((cvExchange d || cvPost d) && decide (cvExtTop d ≠ 0)) (convBad 4 80 (cvExtTop d)),
    stopIf ((cvExchange d || cvPost d) && decide (cvExtBot d ≠ 0)) (convBad 4 82 (cvExtBot d)),
    stopIf (decide (r.stripe * cvStripeH d ≥ cvOut d 1)) (convBad 4 68 (cvStripeH d)),
    stopIf (pooled && decide (cvGroups d ≠ 1)) (convBad 4 30 (cvGroups d)),
    stopIf (pooled && decide (cvCout d ≠ cvCin d)) (convBad 4 24 (cvCout d))]

/-- Byte address of a position of X or Y (R230). -/
def posAddr (base : Nat) (off : Int) (h w bytes t y x : Nat) : Int :=
  (base : Int) + off + (((t * h + y) * w + x) * bytes : Nat)

/-- Check 8 of R239. -/
def State.convSpans (s : State) (a : At) (r : ConvCmd) (st fw fy : Nat) : Option Stop :=
  let d := r.desc
  let pb := posBytes st (cvCpIn d)
  let qb := posBytes fy (cvCpOut d)
  let x0 := posAddr (cvBaseX d) r.offx (cvIn d 1) (cvIn d 2) pb 0 0 0
  let w := (cvBaseW d : Int)
  let wlen := match r.op with
    | .conv => cvCout d * rowBytes fw (cvTileK d)
    | .dwconv => cvTaps d * posBytes fw (cvCpIn d)
    | _ => 0
  let rows := cvRows d r.stripe
  firstStop ([
    s.spanStop a false false 32 0 (x0, x0 + (cvIn d 0 * cvIn d 1 * cvIn d 2 * pb : Nat)),
    if wlen = 0 then none else s.spanStop a false false 40 0 (w, w + wlen)]
    ++ (List.range (cvOut d 0)).map (fun t =>
      let y0 := posAddr (cvBaseY d) r.offy (cvOut d 1) (cvOut d 2) qb t rows.1 0
      s.spanStop a true false 48 0 (y0, y0 + ((rows.2 - rows.1) * cvOut d 2 * qb : Nat))))

/-- Checks 10 and 11 of R239 for passes of `p` columns. -/
def convFits (sl : Slot) (r : ConvCmd) (line fw p : Nat) : Option Stop :=
  let d := r.desc
  let h := sl.ra r.acc
  let avail := sl.allot.accLen - accBaseOf h
  let fp := 2 * p * cvBlock d
  let dl := sl.rd r.dline
  let dw := sl.rd r.dwst
  let lb := lineBytes d line p
  let room := min (descLen dl) twoMiB
  let wb := weightBytes r.op d fw
  firstStop [
    stopIf (r.op = .conv && decide (fp > avail)) (.tile 0x0202 0x30 avail (fp - avail)),
    stopIf (decide (lb > room)) (.tile 0x0203 0x31 (room / 16) (ceilDiv (lb - room) 16)),
    stopIf (decide (wb > descLen dw)) (.tile 0x0203 0x32 (descLen dw / 16) (ceilDiv (wb - descLen dw) 16))]

/-- The columns of a pass: tile_p, halved until it fits in the compatibility profile (R239). -/
def convCols (sl : Slot) (r : ConvCmd) (line fw : Nat) : Nat → Nat → Nat
  | 0, p => p
  | fuel + 1, p => if p ≤ 1 || (convFits sl r line fw p).isNone then p else convCols sl r line fw fuel (p / 2)

/-- The checks of R239 from check 3 on. -/
def State.convStop (s : State) (a : At) (r : ConvCmd) : Option Stop :=
  let sl := s.at_ a
  let compat := sl.id.profile
  let d := r.desc
  let (st, c, fw, fy) := cvFmts compat d
  let h := sl.ra r.acc
  let conv := decide (r.op = .conv)
  let hasW := conv || decide (r.op = .dwconv)
  let line := if conv then lineFmt sl.num st c else c
  firstStop [
    convFormats compat r.op d,
    convRanges d st fy,
    convStripe r,
    if conv then firstStop [
      stopIf (decide (handleRows h ≠ cvTileP d)) (convBad 5 84 (cvTileP d)),
      stopIf (decide (handleCols h ≠ cvBlock d)) (convBad 5 24 (cvCout d)),
      badHandle sl 0 47 r.acc] else none,
    badDesc sl 0 37 r.dline,
    if hasW then badDesc sl 0 32 r.dwst else none,
    s.convSpans a r st fw fy,
    if takesScale c || takesScale st then badScale 1 (if takesScale c then c else st) (cvScaleX d) else none,
    if hasW && takesScale fw && !isBlockFmt fw then badScale 2 fw (cvScaleW d) else none,
    if takesScale fy && (!isBlockFmt fy || cvQmode d) then badScale 3 fy (cvScaleY d) else none,
    if compat then none else convFits sl r line fw (cvTileP d)]

/-- The spans of a command (R55). -/
def ConvCmd.spans (r : ConvCmd) (sl : Slot) : List Span :=
  (if r.op = .conv then
    [{ acc := true, write := true, base := accBaseOf (sl.ra r.acc), len := 2 * handleSize (sl.ra r.acc) }] else [])
    ++ [descSpan (sl.rd r.dline) true]
    ++ (if r.op = .conv || r.op = .dwconv then [descSpan (sl.rd r.dwst) true] else [])

def State.convDesc (s : State) (g : Nat) : List Byte := s.devRead g 128

/-- Check 1 of R239. -/
def State.convAddr (s : State) (a : At) (g : Nat) : Option Stop :=
  firstStop [
    stopIf (decide (g % 128 ≠ 0)) (convBad 1 0 g),
    match s.devStop (s.whoAt a) false g 128 with
    | some (.access (.quarantined x)) => some (.access (.quarantined x))
    | some (.access (.poisoned x)) => some (.access (.poisoned x))
    | some (.access _) => some (convBad 1 0 g)
    | x => x]

/-- The start of a checked command: its stripe record is written where it keeps one (R245), and it joins the
engine's sub-queue. -/
def State.startConv (s : State) (a : At) (r : ConvCmd) (post : Option Nat) : State :=
  let sl := s.at_ a
  let d := r.desc
  let (st, c, fw, _) := cvFmts sl.id.profile d
  let line := if r.op = .conv then lineFmt sl.num st c else c
  let p := if sl.id.profile then convCols sl r line fw 9 (cvTileP d) else cvTileP d
  let ctr := (cvOutCtr d + r.stripe) % 65536
  let rec_ : StripeRec := { pc := sl.pc, s := sl.s, d := sl.d, a := sl.a, counter := (s.sem sl.id.ctx ctr).value }
  (s.count a { splitTiles := if p < cvTileP d then 1 else 0 }).enqueue a .conv
    { pc := sl.pc, major := if r.op = .conv then 0x30 else 0x31, spans := r.spans sl,
      claims := [.conv, if r.op = .conv then .tensor else .vector], granted := false, post := post,
      flight := .conv {
        op := r.op, desc := d, handle := sl.ra r.acc, dline := sl.rd r.dline, dwst := sl.rd r.dwst,
        stripe := r.stripe, offx := r.offx, offy := r.offy, tileP := p, t := 0, y := (cvRows d r.stripe).1, g := 0,
        block := 0, seg := 0, bank := false, unposted := 0,
        record := if cvExchange d || cvPost d then some rec_ else none } }

/-- A convolution or pooling instruction. -/
def State.convCmdAt (s : State) (a : At) (op : ConvOp) (f : Fields) (w2 : Word) : State :=
  s.run a (if op = .conv then 0x30 else 0x31) 16
    (fun s =>
      let sl := s.at_ a
      let g := (sl.rs f.src1).toNat
      let r := convCmd op f w2 sl (s.convDesc g)
      let str := (sl.rs (w2.extractLsb' 53 5)).toNat
      firstStop [
        s.convAddr a g,
        badField sl.id.profile (convUse op) f,
        badWord2 sl.id.profile w2 [(0, 43)],
        if sl.id.profile then none else firstStop [
          if op = .conv then stopIf (decide (fieldOf (sl.ra r.acc).toNat 38 26 ≠ 0)) (.instr 0x0102 (regInfo 0 47 38)) else none,
          stopIf (decide (fieldOf (sl.rd r.dline).toNat 52 12 ≠ 0)) (.instr 0x0102 (regInfo 0 37 52)),
          if op = .conv || op = .dwconv then
            stopIf (decide (fieldOf (sl.rd r.dwst).toNat 52 12 ≠ 0)) (.instr 0x0102 (regInfo 0 32 52)) else none,
          stopIf (decide (str / 65536 ≠ 0)) (.instr 0x0102 (regInfo 1 53 16)),
          convReserved r.desc],
        s.convStop a r,
        queueStop sl .conv (r.spans sl)])
    (fun s =>
      let sl := s.at_ a
      let g := (sl.rs f.src1).toNat
      let r := convCmd op f w2 sl (s.convDesc g)
      ((s.devSpend (s.whoAt a) false g 128).passFree g 128).startConv a r (postOf f))

def execConv (a : At) (f : Fields) (w2 : Word) (s : State) : Outcome State Fault Refusal :=
  .next (s.convCmdAt a .conv f w2)
def execMaxpool (a : At) (f : Fields) (w2 : Word) (s : State) : Outcome State Fault Refusal :=
  .next (s.convCmdAt a .maxpool f w2)
def execAvgpool (a : At) (f : Fields) (w2 : Word) (s : State) : Outcome State Fault Refusal :=
  .next (s.convCmdAt a .avgpool f w2)
def execDwconv (a : At) (f : Fields) (w2 : Word) (s : State) : Outcome State Fault Refusal :=
  .next (s.convCmdAt a .dwconv f w2)

/-! ### Taps (R232) -/

/-- A position of the input that a tap reads, if any: itself, or clamped into range with replicate padding. -/
def tapAxis (d : List Byte) (ax out k : Nat) : Option Nat × Bool :=
  let i : Int := ((out * cvStride d ax : Nat) : Int) - cvFront d ax + ((k * cvDil d ax : Nat) : Int)
  if 0 ≤ i && i < cvIn d ax then (some i.toNat, true)
  else if cvReplicate d then (some (if i < 0 then 0 else cvIn d ax - 1), false)
  else (none, false)

/-- A tap of an output position: the input position it reads, none where it reads 0, and whether it is in
range. -/
def tapAt (d : List Byte) (t y x : Nat) (k : Nat × Nat × Nat) : Option (Nat × Nat × Nat) × Bool :=
  let a := tapAxis d 0 t k.1
  let b := tapAxis d 1 y k.2.1
  let c := tapAxis d 2 x k.2.2
  (match a.1, b.1, c.1 with | some i, some j, some l => some (i, j, l) | _, _, _ => none, a.2 && b.2 && c.2)

/-- The taps of a kernel in order t, y, x. -/
def taps (d : List Byte) : List (Nat × Nat × Nat) :=
  (List.range (cvK d 0)).flatMap (fun i => (List.range (cvK d 1)).flatMap (fun j =>
    (List.range (cvK d 2)).map (fun l => (i, j, l))))

/-- Output columns of the pass at hand. -/
def ConvRun.cols (r : ConvRun) : List Nat :=
  let x0 := r.seg * r.tileP
  (List.range (min r.tileP (cvOut r.desc 2 - x0))).map (· + x0)

/-- Input positions that the pass at hand reads, each once. -/
def ConvRun.reads (r : ConvRun) : List (Nat × Nat × Nat) :=
  (r.cols.flatMap (fun x => (taps r.desc).filterMap (fun k => (tapAt r.desc r.t r.y x k).1))).eraseDups

/-! ### Waits on penumbra rows (R241) -/

/-- The counter that an input row waits on, and the value it must reach. -/
def rowWait (d : List Byte) (t y : Nat) : Nat × Nat :=
  let hs := cvInStripeH d
  let q := y / hs
  let rows := min hs (cvIn d 1 - q * hs)
  ((cvInCtr d + q) % 65536, t * rows + (y - q * hs) + 1)

/-- The first counter that the pass at hand still waits on. -/
def State.convWait (s : State) (ctx : Nat) (r : ConvRun) : Option (Nat × Nat) :=
  if !cvExchange r.desc then none
  else ((r.reads.map (fun p => rowWait r.desc p.1 p.2.1)).find? (fun w => decide ((s.sem ctx w.1).value < w.2)))

/-! ### A pass (R233 to R238) -/

/-- A byte of device memory, or what another package answers. -/
def State.farByte (s : State) (x : Int) : Nat := s.stageByte {core := 0, slot := 0} false x

/-- Address of an input position. -/
def ConvRun.xAddr (r : ConvRun) (st : Nat) (p : Nat × Nat × Nat) : Int :=
  posAddr (cvBaseX r.desc) r.offx (cvIn r.desc 1) (cvIn r.desc 2) (posBytes st (cvCpIn r.desc)) p.1 p.2.1 p.2.2

/-- Channels `lo` to `lo + n − 1` of an input position as stored. -/
def State.posElems (s : State) (r : ConvRun) (st lo n : Nat) (p : Nat × Nat × Nat) : List Elem :=
  (List.range n).map (fun j => decodeAt st (fun i => s.farByte (r.xAddr st p + i)) (lo + j))

/-- The stop of the reads of a pass. DEDUCED (log entry 38). -/
def State.passStop (s : State) (a : At) (r : ConvRun) (st : Nat) : Option Stop :=
  (r.reads.filterMap (fun p => s.devStop (s.whoAt a) false (wordOf (r.xAddr st p)) (posBytes st (cvCpIn r.desc)))).head?

def State.passSpend (s : State) (a : At) (r : ConvRun) (st : Nat) : State :=
  r.reads.foldl (fun s p => s.devSpend (s.whoAt a) false (wordOf (r.xAddr st p)) (posBytes st (cvCpIn r.desc))) s

/-- First output channel of the pass and their number. -/
def ConvRun.chans (r : ConvRun) : Nat × Nat :=
  (r.g * cvOg r.desc + r.block * 256, min 256 (cvOg r.desc - r.block * 256))

/-- Row `o` of the weights of CONV (R231). -/
def State.weightRow (s : State) (d : List Byte) (fw o : Nat) : List Elem :=
  let b := (cvBaseW d : Int) + (o * rowBytes fw (cvTileK d) : Nat)
  decodeRow fw (fun i => s.farByte (b + i)) (cvTileK d)

/-- What a pass gives: the values of each column, the counts, and whether it fell back, with its formats. -/
structure PassOut where
  vals : List (List Fv)
  entries : List Lane := []
  cnt : NumCount := {}
  fell : Bool := false
  fmt0 : Nat := 0
  fmt : Nat := 0
  deriving DecidableEq, Repr

/-- The product of a CONV pass (R234 to R236): the positions staged in the compute format, or in a fallback format,
the weights as stored. DEDUCED (log entry 38). -/
def State.convProduct (s : State) (a : At) (r : ConvRun) : PassOut :=
  let sl := s.at_ a
  let d := r.desc
  let (st, c, fw, _) := cvFmts sl.id.profile d
  let cg := cvCg d
  let ps := r.reads
  let src := ps.map (s.posElems r st (r.g * cg) cg)
  let (o0, n) := r.chans
  let ws := (List.range n).map (fun i => s.weightRow d fw (o0 + i))
  let x0 := stageFirst st c false (cvScaleX d) cg src
  let w0 : Staged := { fmt := fw, rows := ws, sigma := sigmaOf fw (cvScaleW d), quant := 0, sat := 0, bytes := [] }
  let (x, _, _, _, total, fell) := fallback sl.num (restage st c (cvScaleX d) cg src) (fun w => w) 8
    (x0, w0, x0.quant, x0.sat, x0.sat, false)
  let zero : List Elem := List.replicate cg { val := .zero }
  let rowOf (p : Nat × Nat × Nat) : List Elem := ((ps.zip x.rows).lookup p).getD zero
  let es := r.cols.map (fun col =>
    let xs := (taps d).flatMap (fun k => match (tapAt d r.t r.y col k).1 with | some p => rowOf p | none => zero)
    ws.map (fun w => promoteRuns 0 x.sigma w0.sigma (tileRuns x.fmt fw (cvRun d) (cvTileK d) xs w)))
  let fresh := r.seg = 0
  { vals := es.map (fun row => row.map Fv.ofLane), entries := es.flatten
    cnt := { satOnLoad := total, fallbackTiles := if fell then 1 else 0,
             markersRead := if fresh then (ws.map markersIn).sum else 0 }
    fell := fell, fmt0 := x0.fmt, fmt := x.fmt }

/-- The value of a tap of pooling: FP32, with σ of X (R235). -/
def tapVal (st scale : Nat) (e : Elem) : Fv := (e.val.mul (sigmaOf st scale)).r32

/-- The pooled value of one channel from its taps, as (value, in range) with the tap's place (R238). -/
def poolValue (op : ConvOp) (exclude : Bool) (ts : List (Fv × Bool)) (ws : List Fv) : Fv :=
  match op with
  | .maxpool =>
    let xs := (ts.filter (·.2)).map (·.1)
    xs.foldl fvMax (xs.headD .zero)
  | .avgpool =>
    let used := if exclude then ts.filter (·.2) else ts
    fp32.decode (Fv.div32 ((used.map (·.1)).foldl (fun x y => (x.add y).r32) .zero) (.ofInt used.length))
  | _ => (ts.zip ws).foldl (fun acc e => ((e.1.1.mul e.2).add acc).r32) .zero

/-- A pooling pass (R235, R238). -/
def State.poolPass (s : State) (a : At) (r : ConvRun) : PassOut :=
  let sl := s.at_ a
  let d := r.desc
  let (st, _, fw, _) := cvFmts sl.id.profile d
  let (o0, n) := r.chans
  let ks := taps d
  let wBytes := posBytes fw (cvCpIn d)
  let weight (i ch : Nat) : Fv :=
    tapVal fw (cvScaleW d) (decodeAt fw (fun j => s.farByte ((cvBaseW d : Int) + (i * wBytes : Nat) + j)) ch)
  let elem (p : Nat × Nat × Nat) (ch : Nat) : Elem := decodeAt st (fun j => s.farByte (r.xAddr st p + j)) ch
  let chs := (List.range n).map (· + o0)
  { vals := r.cols.map (fun col => chs.map (fun ch =>
      let ts := ks.map (fun k =>
        let t := tapAt d r.t r.y col k
        (match t.1 with | some p => tapVal st (cvScaleX d) (elem p ch) | none => Fv.zero, t.2))
      poolValue r.op (cvExclude d) ts
        (if r.op = .dwconv then (List.range ks.length).map (fun i => weight i ch) else [])))
    cnt := { markersRead := (r.reads.map (fun p => markersIn (chs.map (elem p)))).sum } }

/-- The writes of a pass to Y: each column's channels, and +0 in the channels of the pitch after the last one
(R230, R233). -/
def ConvRun.pieces (r : ConvRun) (fy : Nat) (vals : List (List Fv)) : List Piece × NumCount :=
  let d := r.desc
  let (o0, n) := r.chans
  let pad := if o0 + n = cvCout d then List.replicate (cvCpOut d - cvCout d) Fv.zero else []
  let rows := (r.cols.zip vals).map (fun e =>
    storeRow fy (storeGiven fy (cvQmode d) (cvScaleY d))
      (posAddr (cvBaseY d) r.offy (cvOut d 1) (cvOut d 2) (posBytes fy (cvCpOut d)) r.t r.y e.1) (o0 : Nat) (e.2 ++ pad))
  (rows.flatMap (·.1), (rows.map (·.2)).foldl NumCount.add {})

/-- The place after the pass at hand, whether the row ended, and whether the command did (R233). -/
def ConvRun.next (r : ConvRun) : ConvRun × Bool × Bool :=
  let d := r.desc
  let rows := cvRows d r.stripe
  if (r.seg + 1) * r.tileP < cvOut d 2 then ({ r with seg := r.seg + 1, bank := !r.bank }, false, false)
  else if (r.block + 1) * 256 < cvOg d then ({ r with seg := 0, block := r.block + 1, bank := !r.bank }, false, false)
  else if r.g + 1 < cvGroups d then ({ r with seg := 0, block := 0, g := r.g + 1, bank := !r.bank }, false, false)
  else
    let r := { r with seg := 0, block := 0, g := 0, bank := !r.bank }
    if r.y + 1 < rows.2 then ({ r with y := r.y + 1 }, true, false)
    else if r.t + 1 < cvOut d 0 then ({ r with y := rows.1, t := r.t + 1 }, true, false)
    else (r, true, true)

/-- A post of `n` by a command (R131, R133, R233). -/
def State.semAdd (s : State) (ctx i n : Nat) (place : At) : State :=
  let m := s.sem ctx i
  if m.poison then s
  else if m.value + n ≤ 0xFFFFFFFF then s.semValue ctx i (m.value + n)
  else if s.compat ctx then s.semValue ctx i 0xFFFFFFFF
  else s.instrFault place 0x010A 0 i

/-- The post of finished rows where it is due: a block of rows is full, or the row is the stripe's last one. -/
def State.postRows (s : State) (a : At) (before r : ConvRun) (rowEnd : Bool) : State × ConvRun :=
  let d := r.desc
  if !rowEnd || !cvPost d then (s, r)
  else
    let n := r.unposted + 1
    let last := before.y + 1 = (cvRows d r.stripe).2
    if n = cvRowBlock d || last then
      (s.semAdd (s.at_ a).id.ctx ((cvOutCtr d + r.stripe) % 65536) n a, { r with unposted := 0 })
    else (s, { r with unposted := n })

/-- One pass carried out (R233): its reads, its product or windows, the store, and what is next.
DEDUCED (log entry 38). -/
def State.runPass (s : State) (a : At) (q : Queued) (r : ConvRun) : State :=
  let sl := s.at_ a
  let d := r.desc
  let (st, _, _, fy) := cvFmts sl.id.profile d
  match s.passStop a r st with
  | some x => s.stopAt a q.major x
  | none =>
    let o := if r.op = .conv then s.convProduct a r else s.poolPass a r
    let (ps, cnt) := r.pieces fy o.vals
    match s.piecesStop a ps with
    | some x => s.stopAt a q.major x
    | none =>
      let s := (s.passSpend a r st).tick
      let org := accBaseOf r.handle + if r.bank then r.tileP * cvBlock d else 0
      let s := if r.op = .conv then s.accWrite a org o.entries else s
      let s := ((s.putPieces a false ps).count a cnt).count a o.cnt
      let s := if r.op = .conv then s.countFallback a o.fell o.fmt0 o.fmt else s
      let (r', rowEnd, done) := r.next
      let (s, r') := s.postRows a r r' rowEnd
      s.updateHead a .conv (if done then none else some { q with granted := false, flight := .conv r' })

/-- The convolution or pooling command whose claim is granted. -/
def State.convHead (s : State) (a : At) : Option (Queued × ConvRun) :=
  match s.claimRuns a .conv with
  | some q => match q.flight with
    | .conv r => some (q, r)
    | _ => none
  | none => none

/-- CONV_PASS (R233, R240, R241): one pass of the slot's command, where its claim is granted and the penumbra rows
are there. A command that waits gives its claim back and claims again behind the others; a poisoned counter
faults it (R243). -/
def execConvPass (a : At) (s : State) : Outcome State Fault Refusal :=
  .next (match s.convHead a with
    | none => s
    | some (q, r) =>
      let ctx := (s.at_ a).id.ctx
      match s.convWait ctx r with
      | some w =>
        if (s.sem ctx w.1).poison then s.instrFault a 0x0109 q.major w.1
        else s.updateHead a .conv (some { q with granted := false })
      | none => s.guarded a (if r.op = .conv then 0x0802 else 0x0805) q.major (fun s => s.runPass a q r))

end Sys2Proof.Machine
end

