-- ==== Sys2Proof/Machine/Pages.lean ====
section
/-!
DEFINITION. Cache sets, frames, page lists and silhouettes (R266 to R276, R284), and the page operations.
-/
namespace Sys2Proof.Machine
open Host

/-! ### The descriptor of a set (R268) -/

def csFrameBase (c : List Byte) : Nat := recField c 0 8
def csFrames (c : List Byte) : Nat := recField c 8 4
def csFmt (c : List Byte) : Nat := recField c 12 1
def csHdCode (c : List Byte) : Nat := recField c 13 1
def csHeads (c : List Byte) : Nat := recField c 14 2
def csBlocks (c : List Byte) : Nat := recField c 16 2
def csSeqs (c : List Byte) : Nat := recField c 18 2
def csScaleK (c : List Byte) : Nat := recField c 20 4
def csScaleV (c : List Byte) : Nat := recField c 24 4
def csHorizon (c : List Byte) : Nat := recField c 28 4
def csTable (c : List Byte) : Nat := recField c 32 8
def csLists (c : List Byte) : Nat := recField c 40 8
def csSlots (c : List Byte) : Nat := recField c 48 4
def csGrace (c : List Byte) : Nat := let g := recField c 52 4; if g = 0 then 20 else g
def csSil (c : List Byte) : Nat := recField c 56 8
def csRing (c : List Byte) : Nat := recField c 64 8
def csRingPages (c : List Byte) : Nat := recField c 72 4
/-- Head dimension of a code (R251). -/
def hdOf (code : Nat) : Nat := 64 * 2 ^ code
def csHd (c : List Byte) : Nat := hdOf (csHdCode c)
def csElem (c : List Byte) : Nat := elemBits (csFmt c) / 8
/-- page_bytes (R267). -/
def csPageBytes (c : List Byte) : Nat := 384 * csHeads c * csHd c * 2 * csElem c
def csSilBytes (c : List Byte) : Nat := 4 * csHeads c * csHd c

def State.set (s : State) (i : Nat) : CacheSet := mapGet {} s.sets i
def State.setSet (s : State) (i : Nat) (v : CacheSet) : State := { s with sets := mapSet {} s.sets i v }

/-! ### Entries in memory (R270, R271, R284) -/

/-- A frame-table entry. -/
structure FrameEntry where
  refs : Nat := 0
  valid : Nat := 0
  pinned : Bool := false
  free : Bool := false
  next : Nat := 0
  ringTag : Nat := 0
  deriving DecidableEq, Repr

def FrameEntry.bytes (f : FrameEntry) : List Byte :=
  toBytes 2 f.refs ++ toBytes 2 (f.valid % 512 + bit f.pinned 9 + bit f.free 10) ++ toBytes 4 (f.next % 2 ^ 24)
    ++ toBytes 2 f.ringTag ++ toBytes 6 0

def FrameEntry.ofBytes (b : List Byte) : FrameEntry :=
  let v := recField b 2 2
  { refs := recField b 0 2, valid := fieldOf v 0 9, pinned := v.testBit 9, free := v.testBit 10,
    next := recField b 4 4 % 2 ^ 24, ringTag := recField b 8 2 }

def frameAt (c : List Byte) (i : Nat) : Nat := csTable c + 16 * i
def State.frame (s : State) (c : List Byte) (i : Nat) : FrameEntry := .ofBytes (s.memBytes (frameAt c i) 16)
def State.setFrame (s : State) (c : List Byte) (i : Nat) (f : FrameEntry) : State := s.write 0 (frameAt c i) f.bytes
/-- Device address of a frame. -/
def frameAddr (c : List Byte) (i : Nat) : Nat := csFrameBase c + i * csPageBytes c

/-- A list entry. -/
structure ListEntry where
  page : Nat := 0
  present : Bool := false
  sil : Bool := false
  token : Nat := 0
  silN : Nat := 0
  deriving DecidableEq, Repr

def ListEntry.bytes (e : ListEntry) : List Byte :=
  toBytes 4 (e.page % 2 ^ 24 + bit e.present 24 + bit e.sil 25) ++ toBytes 4 e.token ++ toBytes 2 (e.silN % 512)
    ++ toBytes 6 0

def ListEntry.ofBytes (b : List Byte) : ListEntry :=
  let w := recField b 0 4
  { page := w % 2 ^ 24, present := w.testBit 24, sil := w.testBit 25, token := recField b 4 4,
    silN := recField b 8 2 % 512 }

/-- A place in the lists: sequence, block, slot. -/
structure ListPos where
  seq : Nat
  block : Nat
  slot : Nat
  deriving DecidableEq, Repr

def listIndex (c : List Byte) (p : ListPos) : Nat := (p.seq * csBlocks c + p.block) * csSlots c + p.slot
def listAt (c : List Byte) (p : ListPos) : Nat := csLists c + 16 * listIndex c p
def State.entry (s : State) (c : List Byte) (p : ListPos) : ListEntry := .ofBytes (s.memBytes (listAt c p) 16)
def State.setEntry (s : State) (c : List Byte) (p : ListPos) (e : ListEntry) : State :=
  s.write 0 (listAt c p) { e with token := 384 * p.slot }.bytes
/-- Device address of a silhouette (R268). -/
def silAddr (c : List Byte) (p : ListPos) : Nat := csSil c + listIndex c p * csSilBytes c

/-- A field of the statistics record of a set, by its number (R284). -/
def State.stat (s : State) (i field n : Nat) : State :=
  let at_ := (s.set i).addr + 128 + 8 * field
  s.write 0 at_ (toBytes 8 (satAdd 64 (ofBytes (s.memBytes at_ 8)) n))

/-! ### Create and destroy (R268, R269) -/

/-- The first field of a descriptor that breaks R268, by its offset. -/
def csdBad (c : List Byte) : Option Nat :=
  firstOf [
    (decide (csFrameBase c % 0x200000 ≠ 0), 0),
    (csFrames c = 0 || decide (csFrames c > 16777216), 8),
    (csFmt c ≠ 1 && csFmt c ≠ 3 && csFmt c ≠ 4, 12),
    (decide (csHdCode c > 2), 13),
    (csHeads c = 0 || decide (csHeads c > 256), 14),
    (csBlocks c = 0 || decide (csBlocks c > 256), 16),
    (csSeqs c = 0 || decide (csSeqs c > 1024), 18),
    (!scaleValid (csFmt c) (csScaleK c), 20),
    (!scaleValid (csFmt c) (csScaleV c), 24),
    (csSlots c = 0 || decide (csSlots c > 11184811), 48),
    (csRingPages c = 0 || decide (csRingPages c > 65535), 72),
    ((c.drop 76).any (· ≠ 0), 76)]

/-- The ranges that a set takes in device memory, as (field, address, length). -/
def csdRanges (c : List Byte) : List (Nat × Nat × Nat) :=
  let n := csSeqs c * csBlocks c * csSlots c
  [(0, csFrameBase c, csFrames c * csPageBytes c), (32, csTable c, 16 * csFrames c), (40, csLists c, 16 * n),
   (56, csSil c, n * csSilBytes c), (64, csRing c, csRingPages c * csPageBytes c)]

/-- Every extent of a range is mapped; the ring lies in the stacks. -/
def State.rangeMapped (s : State) (a len : Nat) (inStack : Bool) : Bool :=
  (blocksOf extentBytes a len).all (fun x =>
    let h := s.home x
    (h.state = 1 || h.state = 2 || h.state = 3) && (!inStack || h.tier = 0))

/-- The first field of a descriptor whose range is not mapped. -/
def State.csdUnmapped (s : State) (c : List Byte) : Option Nat :=
  ((csdRanges c).find? (fun r => !s.rangeMapped r.2.1 r.2.2 (decide (r.1 = 64)))).map (·.1)

/-- A created set: its free list holds every frame, its lists and statistics are 0 (R269). -/
def State.buildSet (s : State) (i ctx addr : Nat) (c : List Byte) : State :=
  let n := csFrames c
  let table := (List.range n).flatMap (fun k => ({ free := true, next := k + 1 } : FrameEntry).bytes)
  let s := s.write 0 (csTable c) table
  let s := s.write 0 (csLists c) (List.replicate (16 * (csSeqs c * csBlocks c * csSlots c)) 0)
  let s := s.write 0 (addr + 128) (List.replicate 64 0)
  s.setSet i { live := true, ctx := ctx, addr := addr, csd := c, freeHead := 0, freeCount := n }

/-- The cache set that an attention or page command in flight names. -/
def setNamed (q : Queued) : Option Nat :=
  match q.flight with
  | .attn r => if (recField r.desc 4 1).testBit 0 && r.op = .fwd then some (recField r.desc 24 8 % 256) else none
  | _ => none

/-- A command in flight names the set (R269). -/
def State.setBusy (s : State) (i : Nat) : Bool :=
  s.cores.any (fun c => c.2.slots.any (fun k => k.2.inFlight.any (fun q => setNamed q = some i)))

def State.dropSet (s : State) (i : Nat) : State := s.setSet i {}

/-! ### Frames (R273 to R275) -/

/-- One frame taken from the free list. DEDUCED (log entry 43). -/
def State.takeFrame (s : State) (i : Nat) : State × Nat :=
  let v := s.set i
  let f := v.freeHead
  let e := s.frame v.csd f
  ((s.setSet i { v with freeHead := e.next, freeCount := v.freeCount - 1 }).setFrame v.csd f { refs := 1 }, f)

/-- A frame put back on the free list. -/
def State.freeFrame (s : State) (i f : Nat) : State :=
  let v := s.set i
  (s.setFrame v.csd f { free := true, next := v.freeHead }).setSet i
    { v with freeHead := f, freeCount := v.freeCount + 1 }

/-- The numbers of the walks of a set in progress (R275). -/
def State.walksOf (s : State) (i : Nat) : List Nat :=
  s.cores.flatMap (fun c => c.2.slots.flatMap (fun k => k.2.inFlight.filterMap (fun q =>
    match q.flight with
    | .attn r => if setNamed q = some i && r.started then some r.walk else none
    | _ => none)))

/-- A list gives up a frame: its count falls, unless it is pinned, and at 0 the frame is freed, at once or once
the walks in progress have ended (R275). -/
def State.dropRef (s : State) (i f : Nat) : State :=
  let v := s.set i
  let e := s.frame v.csd f
  if e.pinned then s
  else if e.refs > 1 then s.setFrame v.csd f { e with refs := e.refs - 1 }
  else
    let walks := s.walksOf i
    if walks.isEmpty then s.freeFrame i f
    else
      let s := s.setFrame v.csd f { e with refs := 0 }
      s.setSet i { s.set i with deferred := (s.set i).deferred ++ [(f, walks)] }

/-- One list more names a frame: at 65,535 it is pinned (R274). -/
def State.addRef (s : State) (a : At) (i f : Nat) : State :=
  let v := s.set i
  let e := s.frame v.csd f
  if e.refs + 1 ≥ 65535 then
    let s := s.setFrame v.csd f { e with refs := 65535, pinned := true }
    if e.pinned then s
    else (s.stat i 6 1).coreEvent a 0x0503 1 (pageDetail a.core i f 65535)
  else s.setFrame v.csd f { e with refs := e.refs + 1 }

/-- FRAME_FREE_AFTER_WALK: a dropped frame is freed once the walks of its drop have all ended (R275). -/
def execFrameFreeAfterWalk (set frame : Nat) (s : State) : Outcome State Fault Refusal :=
  .next (
    let v := s.set set
    match v.deferred.find? (fun d => decide (d.1 = frame)) with
    | none => s
    | some d =>
      if d.2.any (fun w => (s.walksOf set).contains w) then s
      else (s.setSet set { v with deferred := v.deferred.erase d }).freeFrame set frame)

/-! ### Silhouettes (R276) -/

/-- A token's key or value of a head in a page: the values of its dimensions, σ included. -/
def State.pageVals (s : State) (c : List Byte) (page head pos : Nat) (value : Bool) : List Fv :=
  let hd := csHd c
  let slice := 384 * hd * csElem c
  let at_ := page + head * slice + (if value then csHeads c * slice else 0) + pos * hd * csElem c
  let sig := fp32.decode (if value then csScaleV c else csScaleK c)
  (decodeRow (csFmt c) (fun i => (s.memByte (at_ + i)).toNat) hd).map (fun e => (e.val.mul sig).r32)

/-- Mean of the first `n` tokens, in BF16. -/
def State.pageMean (s : State) (c : List Byte) (page head n : Nat) (value : Bool) : List Nat :=
  let rows := (List.range n).map (fun p => s.pageVals c page head p value)
  let inv := fp32.decode (Fv.div32 (.fin false 1 0) (.ofInt n))
  (List.range (csHd c)).map (fun d =>
    let sum := rows.foldl (fun acc r => (acc.add (r.getD d .zero)).r32) Fv.zero
    bf16.round (sum.mul inv).r32)

/-- The silhouette of a slot formed from the valid tokens of its page. -/
def State.formSil (s : State) (i : Nat) (p : ListPos) : State :=
  let c := (s.set i).csd
  let e := s.entry c p
  let n := (s.frame c e.page).valid
  let page := frameAddr c e.page
  let part (value : Bool) : List Byte :=
    (List.range (csHeads c)).flatMap (fun h => (s.pageMean c page h n value).flatMap (toBytes 2))
  (s.write 0 (silAddr c p) (part false ++ part true)).setEntry c p { e with silN := n, sil := true }

/-! ### Page operations (R272 to R276) -/

def pgSet (w : Word) : Nat := fieldOf w.toNat 0 8
def pgSeq (w : Word) : Nat := fieldOf w.toNat 8 10
def pgBlock (w : Word) : Nat := fieldOf w.toNat 18 8
def pgFirst (w : Word) : Nat := fieldOf w.toNat 0 32
def pgCount (w : Word) : Nat := fieldOf w.toNat 32 16

/-- The status register, sloc and stok of a page operation. -/
def pgLoc (sl : Slot) (f : Fields) : Word := sl.rs f.src3
def pgTok (sl : Slot) (w2 : Word) : Word := sl.rs (w2.extractLsb' 53 5)

def pageUse (op1 op2 : Kind) (drop : Bool) : Use :=
  { dst := .s, src1 := op1, src2 := op2, src3 := .s, imm := if drop then [(16, 14)] else [(30, 1), (16, 14)] }

/-- The checks that the page operations share: fields, the set, and the place named in it. A place outside the
set's dimensions is rejected as an operand. -/
def pageStop (u : Use) (byPage allBlocks : Bool) (f : Fields) (w2 : Word) (s : State) (a : At) : Option Stop :=
  let sl := s.at_ a
  let compat := sl.id.profile
  let loc := pgLoc sl f
  let tok := pgTok sl w2
  let v := s.set (pgSet loc)
  let c := v.csd
  let last := if byPage then pgFirst tok / 384 + pgCount tok else (pgFirst tok + pgCount tok + 383) / 384
  firstStop [
    badField compat u f,
    badWord2 compat w2 [(0, 53)],
    stopIf (!v.live || decide (v.ctx ≠ sl.id.ctx)) (.page 0x0502 (pgSet loc) 0 0),
    stopIf (decide (pgSeq loc ≥ csSeqs c)) (.instr 0x0102 (regInfo 0 32 8)),
    stopIf (decide (pgBlock loc ≥ csBlocks c) && !(allBlocks && pgBlock loc = 255)) (.instr 0x0102 (regInfo 0 32 18)),
    stopIf (pgCount tok = 0) (.instr 0x0102 (regInfo 1 53 32)),
    stopIf (byPage && decide (pgFirst tok % 384 ≠ 0)) (.instr 0x0102 (regInfo 1 53 0)),
    stopIf (decide (last > csSlots c)) (.instr 0x0102 (regInfo 1 53 0))]

/-- The slots of a range, over one block or all of them (R272). -/
def pageRange (c : List Byte) (seq block first count : Nat) : List ListPos :=
  let blocks := if block = 255 then List.range (csBlocks c) else [block]
  blocks.flatMap (fun b => (List.range count).map (fun i => { seq := seq, block := b, slot := first / 384 + i }))

/-- A page operation: its checks, then its effect, which gives the status. DEDUCED (log entry 43). -/
def State.pageOp (s : State) (a : At) (f : Fields) (chk : State → Option Stop) (eff : State → State × Nat) : State :=
  s.run a 0x35 16 chk (fun s =>
    let (s, st) := eff s
    (s.setAt a ((s.at_ a).ws f.dst (BitVec.ofNat 64 st))).duePost a (postOf f))

/-! PAGE.WRITE -/

/-- Slots that a write touches. -/
def writeSlots (first count : Nat) : List Nat :=
  (List.range ((first + count - 1) / 384 - first / 384 + 1)).map (· + first / 384)

/-- A slot needs a frame: it has none, or shares one (R273). -/
def State.needsFrame (s : State) (c : List Byte) (p : ListPos) : Bool :=
  let e := s.entry c p
  !e.present || decide ((s.frame c e.page).refs > 1)

/-- Steps 3 and 4 of R273 for one slot: a new frame, or a copy of a shared one. DEDUCED (log entry 43). -/
def State.ownFrame (s : State) (i : Nat) (p : ListPos) : State :=
  let c := (s.set i).csd
  let e := s.entry c p
  if !e.present then
    let (s, f) := s.takeFrame i
    s.setEntry c p { e with page := f, present := true }
  else
    let old := s.frame c e.page
    if old.refs ≤ 1 then s
    else
      let (s, f) := s.takeFrame i
      let hd := csHd c * csElem c
      let slices := (List.range (2 * csHeads c)).map (fun k => k * 384 * hd)
      let s := slices.foldl (fun s o =>
        s.write 0 (frameAddr c f + o) (s.memBytes (frameAddr c e.page + o) (old.valid * hd))) s
      let s := s.setFrame c f { refs := 1, valid := old.valid }
      let s := if old.pinned then s else s.setFrame c e.page { s.frame c e.page with refs := old.refs - 1 }
      (s.setEntry c p { e with page := f }).stat i 5 1

/-- Step 5 of R273 for one token: its heads written to their places. -/
def State.putToken (s : State) (a : At) (i : Nat) (p : ListPos) (pos tok : Nat) (dk dv : Word) : State :=
  let c := (s.set i).csd
  let hd := csHd c * csElem c
  let row := csHeads c * hd
  let e := s.entry c p
  let page := frameAddr c e.page
  let bytes (w : Word) (h : Nat) : List Byte :=
    (List.range hd).map (fun j => BitVec.ofNat 8 (s.descByte a w (tok * row + h * hd) j))
  let ctx := (s.at_ a).id.ctx
  let s := (List.range (csHeads c)).foldl (fun s h =>
    (s.write ctx (page + h * 384 * hd + pos * hd) (bytes dk h)).write ctx
      (page + (csHeads c + h) * 384 * hd + pos * hd) (bytes dv h)) s
  let fr := s.frame c e.page
  s.setFrame c e.page { fr with valid := max fr.valid (pos + 1) }

def State.pageWrite (s : State) (a : At) (f : Fields) (w2 : Word) : State × Nat :=
  let sl := s.at_ a
  let loc := pgLoc sl f
  let tok := pgTok sl w2
  let i := pgSet loc
  let c := (s.set i).csd
  let pos (k : Nat) : ListPos := { seq := pgSeq loc, block := pgBlock loc, slot := k }
  let first := pgFirst tok
  let slots := writeSlots first (pgCount tok)
  let e0 := s.entry c (pos (first / 384))
  let have0 := if e0.present then (s.frame c e0.page).valid else 0
  if first % 384 > have0 then (s, 3)
  else
    let need := (slots.filter (fun k => s.needsFrame c (pos k))).length
    if need > (s.set i).freeCount then (s.stat i 7 1, 1)
    else
      let sealed := slots.filter (fun k => (s.entry c (pos k)).sil)
      let s := slots.foldl (fun s k => s.ownFrame i (pos k)) s
      let s := (List.range (pgCount tok)).foldl (fun s t =>
        s.putToken a i (pos ((first + t) / 384)) ((first + t) % 384) t (sl.rd f.src1.toNat) (sl.rd f.src2.toNat)) s
      let again := slots.filter (fun k =>
        sealed.contains k || (s.frame c (s.entry c (pos k)).page).valid = 384)
      (again.foldl (fun s k => s.formSil i (pos k)) s, 0)

def execPageWrite (a : At) (f : Fields) (w2 : Word) (s : State) : Outcome State Fault Refusal :=
  .next (s.pageOp a f
    (fun s =>
      let sl := s.at_ a
      let c := (s.set (pgSet (pgLoc sl f))).csd
      let need := pgCount (pgTok sl w2) * csHeads c * csHd c * csElem c
      firstStop [
        pageStop (pageUse .d .d false) false false f w2 s a,
        badDesc sl 0 42 f.src1.toNat,
        badDesc sl 0 37 f.src2.toNat,
        stopIf (!sl.id.profile && decide (need > descLen (sl.rd f.src1.toNat))) (.instr 0x0106 (f.src1.toNat % 16)),
        stopIf (!sl.id.profile && decide (need > descLen (sl.rd f.src2.toNat))) (.instr 0x0106 (f.src2.toNat % 16)),
        mustWait sl (some .dma) [descSpan (sl.rd f.src1.toNat) false, descSpan (sl.rd f.src2.toNat) false]])
    (fun s => s.pageWrite a f w2))

/-! PAGE.SHARE, PAGE.DROP, PAGE.SEAL -/

def State.pageShare (s : State) (a : At) (f : Fields) (w2 : Word) : State × Nat :=
  let sl := s.at_ a
  let loc := pgLoc sl f
  let tok := pgTok sl w2
  let i := pgSet loc
  let c := (s.set i).csd
  let target := (sl.rs f.src1).toNat % 1024
  let ps := pageRange c (pgSeq loc) (pgBlock loc) (pgFirst tok) (pgCount tok)
  if ps.any (fun p => (s.entry c { p with seq := target }).present) then (s, 2)
  else
    (ps.foldl (fun s p =>
      let e := s.entry c p
      let q := { p with seq := target }
      let s := (s.setEntry c q e).write 0 (silAddr c q) (s.memBytes (silAddr c p) (csSilBytes c))
      if e.present then s.addRef a i e.page else s) s, 0)

def execPageShare (a : At) (f : Fields) (w2 : Word) (s : State) : Outcome State Fault Refusal :=
  .next (s.pageOp a f
    (fun s =>
      let sl := s.at_ a
      firstStop [
        pageStop (pageUse .s .none_ false) true true f w2 s a,
        stopIf (decide ((sl.rs f.src1).toNat % 1024 ≥ csSeqs (s.set (pgSet (pgLoc sl f))).csd))
          (.instr 0x0102 (regInfo 0 42 0)),
        mustWait sl (some .dma) []])
    (fun s => s.pageShare a f w2))

def keepSil (f : Fields) : Bool := f.imm.toNat.testBit 30

def execPageDrop (a : At) (f : Fields) (w2 : Word) (s : State) : Outcome State Fault Refusal :=
  .next (s.pageOp a f
    (fun s => firstStop [pageStop (pageUse .none_ .none_ true) true true f w2 s a, mustWait (s.at_ a) (some .dma) []])
    (fun s =>
      let sl := s.at_ a
      let loc := pgLoc sl f
      let tok := pgTok sl w2
      let i := pgSet loc
      let c := (s.set i).csd
      ((pageRange c (pgSeq loc) (pgBlock loc) (pgFirst tok) (pgCount tok)).foldl (fun s p =>
        let e := s.entry c p
        let e' := if keepSil f then { e with present := false } else { e with present := false, sil := false, silN := 0 }
        let s := s.setEntry c p e'
        if e.present then s.dropRef i e.page else s) s, 0)))

def execPageSeal (a : At) (f : Fields) (w2 : Word) (s : State) : Outcome State Fault Refusal :=
  .next (s.pageOp a f
    (fun s => firstStop [pageStop (pageUse .none_ .none_ false) true true f w2 s a, mustWait (s.at_ a) (some .dma) []])
    (fun s =>
      let sl := s.at_ a
      let loc := pgLoc sl f
      let tok := pgTok sl w2
      let i := pgSet loc
      let c := (s.set i).csd
      ((pageRange c (pgSeq loc) (pgBlock loc) (pgFirst tok) (pgCount tok)).foldl (fun s p =>
        let e := s.entry c p
        let n := (s.frame c e.page).valid
        if e.present && decide (0 < n) && decide (n < 384) then s.formSil i p else s) s, 0)))

end Sys2Proof.Machine
end

