-- ==== Sys2Proof/Machine/Attn.lean ====
section
/-!
DEFINITION. Attention (R249 to R265), the page walk and its fetches (R278 to R284).
-/
namespace Sys2Proof.Machine
open Host

/-! ### The descriptor (R251) -/

def atQStored (d : List Byte) : Nat := recField d 0 1 / 16
def atQ (d : List Byte) : Nat := recField d 0 1 % 16
def atKv (d : List Byte) : Nat := recField d 1 1 % 16
def atO (d : List Byte) : Nat := recField d 2 1 % 16
def atGrad (d : List Byte) : Nat := recField d 2 1 / 16
def atP (d : List Byte) : Nat := recField d 3 1 % 16
def atWalk (d : List Byte) : Bool := (recField d 4 1).testBit 0
def atStats (d : List Byte) : Bool := (recField d 4 1).testBit 1
def atPair (d : List Byte) : Bool := (recField d 4 1).testBit 2
def atMask (d : List Byte) : Nat := recField d 5 1
def atHdCode (d : List Byte) : Nat := recField d 6 1
def atHd (d : List Byte) : Nat := hdOf (atHdCode d)
def atHeads (d : List Byte) : Nat := recField d 8 2
def atQTile (d : List Byte) : Nat := recField d 10 2
def atTau (d : List Byte) : Fv := fp32.decode (recField d 12 4)
def atGroup (d : List Byte) : Nat := recField d 16 4
def atTokBase (d : List Byte) : Nat := recField d 20 4
def atSet (d : List Byte) : Nat := recField d 24 8 % 256
def atSeq (d : List Byte) : Nat := fieldOf (recField d 24 8) 8 10
def atBlock (d : List Byte) : Nat := fieldOf (recField d 24 8) 18 8
/-- The eight addresses: Q, O, K, V, statistics, dO, the gradient or output statistics, dV. -/
def atBase (d : List Byte) (i : Nat) : Nat := recField d (32 + 8 * i) 8
def atLdq (d : List Byte) : Nat := recField d 96 4
def atLdo (d : List Byte) : Nat := recField d 100 4
def atLdkv (d : List Byte) : Nat := recField d 104 4
def atScale (d : List Byte) (i : Nat) : Nat := recField d (108 + 4 * i) 4

/-! ### Issue (R250, R253, R261, R262) -/

/-- An attention command as its instruction names it. -/
structure AttnCmd where
  op : AttnOp
  desc : List Byte
  acc : Nat
  dwork : Nat
  q0 : Nat
  qRows : Nat
  h0 : Nat
  heads : Nat
  k0 : Nat
  kCount : Nat
  deriving DecidableEq, Repr

def attnCmd (op : AttnOp) (f : Fields) (w2 : Word) (sl : Slot) (d : List Byte) : AttnCmd :=
  let q := (sl.rs (w2.extractLsb' 53 5)).toNat
  let h := (sl.rs (w2.extractLsb' 48 5)).toNat
  let k := (sl.rs (w2.extractLsb' 43 5)).toNat
  { op := op, desc := d, acc := f.dst.toNat, dwork := f.src2.toNat, q0 := q % 2 ^ 32, qRows := q / 2 ^ 32,
    h0 := h % 65536, heads := h / 65536 % 65536, k0 := k % 2 ^ 32, kCount := k / 2 ^ 32 }

/-- ATTN_DESC_BAD (R262). -/
def attnBad (check off value : Nat) : Stop := .tile 0x0501 check off (value % 2 ^ 24)

def AttnOp.bwd : AttnOp → Bool
  | .bwdKv => true
  | .bwdQ => true
  | _ => false

/-- Reserved fields of the descriptor (check 2). -/
def attnReserved (op : AttnOp) (d : List Byte) : Option Stop :=
  let b (off : Nat) (bad : Bool) : Option Stop := stopIf bad (attnBad 2 off (recField d off 1))
  firstStop [
    b 1 (decide (recField d 1 1 / 16 ≠ 0)),
    b 2 (!op.bwd && decide (atGrad d ≠ 0)),
    b 3 (decide (recField d 3 1 / 16 ≠ 0) || (op ≠ .fwd && decide (atP d ≠ 0))),
    b 4 (decide (recField d 4 1 / 8 ≠ 0)),
    b 7 (decide (recField d 7 1 ≠ 0)),
    stopIf (op = .fwd && atWalk d && decide (recField d 24 8 / 2 ^ 26 ≠ 0)) (attnBad 2 24 (recField d 24 8)),
    stopIf (decide (recField d 124 4 ≠ 0)) (attnBad 2 124 (recField d 124 4))]

/-- Formats (check 3, R253). DEDUCED (log entry 41). -/
def attnFormats (compat : Bool) (op : AttnOp) (d : List Byte) : Option Stop :=
  match op with
  | .fwd => firstStop [
      badFormat compat 1 (atQ d) [1, 2, 3, 4],
      badFormat compat 1 (atQStored d) (if atQStored d = atQ d then [atQ d] else [0, 1, 2]),
      badFormat compat 2 (atKv d) [1, 2, 3, 4],
      badFormat compat 3 (atO d) [0, 1, 2, 3, 4],
      badFormat compat 4 (atP d) [1, 3]]
  | .merge => firstStop [badFormat compat 1 (atQStored d) [0, 1], badFormat compat 3 (atO d) [0, 1, 2, 3, 4]]
  | _ => firstStop [
      badFormat compat 1 (atQ d) [1, 2],
      badFormat compat 1 (atQStored d) [atQ d],
      badFormat compat 2 (atKv d) [1, 2],
      badFormat compat 3 (atO d) [0, 1, 2],
      badFormat compat 5 (atGrad d) [0, 1, 2]]

/-- Field ranges and counts (check 4). -/
def attnRanges (r : AttnCmd) : Option Stop :=
  let d := r.desc
  firstStop ([
    stopIf (r.op.bwd && (atWalk d || atPair d)) (attnBad 3 4 (recField d 4 1)),
    stopIf (decide (atMask d > 2)) (attnBad 3 5 (atMask d)),
    stopIf (decide (atHdCode d > 2)) (attnBad 3 6 (atHdCode d)),
    stopIf (atHeads d = 0 || decide (atHeads d > 256) || decide (atHeads d * atHd d > 16384)) (attnBad 3 8 (atHeads d)),
    stopIf (decide (atQTile d < 16) || decide (atQTile d > 256) || decide (atQTile d % 16 ≠ 0)) (attnBad 3 10 (atQTile d)),
    stopIf (!(atTau d).isFin) (attnBad 3 12 (recField d 12 4)),
    stopIf (atGroup d = 0) (attnBad 3 16 0)]
    ++ (List.range 8).map (fun i => stopIf (decide (atBase d i % 16 ≠ 0)) (attnBad 3 (32 + 8 * i) (atBase d i)))
    ++ [stopIf (decide (atLdq d % 16 ≠ 0)) (attnBad 3 96 (atLdq d)),
        stopIf (decide (atLdo d % 16 ≠ 0)) (attnBad 3 100 (atLdo d)),
        stopIf (decide (atLdkv d % 16 ≠ 0)) (attnBad 3 104 (atLdkv d)),
        stopIf (r.qRows = 0 || r.heads = 0 || decide (r.kCount = 0)) (attnBad 3 0 0),
        stopIf (decide (r.h0 + r.heads > atHeads d)) (attnBad 3 8 (atHeads d))])

/-- The cache set of a walk (check 5). -/
def State.attnSet (s : State) (a : At) (r : AttnCmd) : Option Stop :=
  let d := r.desc
  if r.op ≠ .fwd || !atWalk d then none
  else
    let v := s.set (atSet d)
    let c := v.csd
    firstStop [
      stopIf (!v.live || decide (v.ctx ≠ (s.at_ a).id.ctx)) (.page 0x0502 (atSet d) 0 0),
      stopIf (decide (atSeq d ≥ csSeqs c) || decide (atBlock d ≥ csBlocks c)) (attnBad 4 24 (recField d 24 8)),
      stopIf (decide (csFmt c ≠ atKv d)) (attnBad 4 1 (recField d 1 1)),
      stopIf (decide (csHdCode c ≠ atHdCode d)) (attnBad 4 6 (atHdCode d)),
      stopIf (decide (csHeads c ≠ atHeads d)) (attnBad 4 8 (atHeads d))]

def fmtBytes (c : Nat) : Nat := elemBits c / 8

/-- The staged format of Q that the footprint takes (R257). -/
def qLineFmt (num : NumCtl) (d : List Byte) : Nat :=
  if num.fallbackEn && atQStored d ≠ atQ d then 1 else atQ d

/-- Accumulator entries and buffer bytes for tiles of `t` rows (R261). -/
def attnFoot (num : NumCtl) (op : AttnOp) (d : List Byte) (t : Nat) : Nat × Nat :=
  let hd := atHd d
  let eq := fmtBytes (if op = .fwd then qLineFmt num d else atQ d)
  let ekv := fmtBytes (atKv d)
  match op with
  | .fwd => (t * hd + 2 * t * 128, t * hd * eq + 2 * 384 * hd * 2 * ekv + 2 * t * 128 * fmtBytes (atP d))
  | .bwdQ => (t * hd + 2 * t * 128, t * hd * eq * 3 + 2 * 384 * hd * 2 * ekv + 2 * t * 128 * 2)
  | .bwdKv => (2 * 128 * hd + 2 * t * 128, 128 * hd * 2 * ekv + 2 * t * hd * 3 * 2 + 2 * t * 128 * 2 * 2)
  | .merge => (0, 0)

/-- Checks 10 and 11 for tiles of `t` rows. DEDUCED (log entry 41). -/
def attnFits (sl : Slot) (r : AttnCmd) (t : Nat) : Option Stop :=
  let (fa, fb) := attnFoot sl.num r.op r.desc t
  let avail := sl.allot.accLen - accBaseOf (sl.ra r.acc)
  let len := descLen (sl.rd r.dwork)
  if r.op = .merge then none
  else firstStop [
    stopIf (decide (fa > avail)) (.tile 0x0202 0x30 avail (fa - avail)),
    stopIf (decide (fb > len)) (.tile 0x0203 0x31 (len / 16) (ceilDiv (fb - len) 16))]

def attnRows (sl : Slot) (r : AttnCmd) : Nat → Nat → Nat
  | 0, t => t
  | fuel + 1, t => if t ≤ 1 || (attnFits sl r t).isNone then t else attnRows sl r fuel (t / 2)

/-- Dense and output spans (check 8), as (write, field, base, pitch, first row, rows, bytes of a row). -/
def attnSpans (r : AttnCmd) : List (Bool × Nat × Nat × Nat × Nat × Nat × Nat) :=
  let d := r.desc
  let w := atHeads d * atHd d
  let row (c : Nat) := w * fmtBytes c
  let st := atHeads d * (if atPair d then 8 else 4)
  let q (c : Nat) := (false, 32, atBase d 0, atLdq d, r.q0, r.qRows, row c)
  let k (wr : Bool) (i c : Nat) := (wr, 32 + 8 * i, atBase d i, atLdkv d, r.k0, r.kCount, row c)
  let o (wr : Bool) (i c : Nat) := (wr, 32 + 8 * i, atBase d i, atLdo d, r.q0, r.qRows, row c)
  let stat (wr : Bool) (i n : Nat) := (wr, 32 + 8 * i, atBase d i, n, r.q0, r.qRows, n)
  match r.op with
  | .fwd => [q (atQStored d)] ++ (if atWalk d then [] else [k false 2 (atKv d), k false 3 (atKv d)])
      ++ [o true 1 (atO d)] ++ (if atStats d then [stat true 4 st] else [])
  | .merge => [o false 0 (atQStored d), o false 2 (atQStored d), stat false 4 (8 * atHeads d), stat false 3 (8 * atHeads d),
      o true 1 (atO d)] ++ (if atStats d then [stat true 6 st] else [])
  | op => [q (atQ d), k false 2 (atKv d), k false 3 (atKv d), o false 1 (atO d), o false 5 (atO d),
      stat false 4 (4 * atHeads d)]
      ++ (if op = .bwdQ then [o true 6 (atGrad d)] else [k true 6 (atGrad d), k true 7 (atGrad d)])

def State.attnMapped (s : State) (a : At) (r : AttnCmd) : Option Stop :=
  firstStop ((attnSpans r).map (fun (w, off, base, ld, first, n, row) =>
    let lo : Int := ((base + first * ld : Nat) : Int)
    s.spanStop a w false off 0 (lo, lo + (((n - 1) * ld + row : Nat) : Int))))

/-- Scales in use (check 9). -/
def attnScales (r : AttnCmd) : Option Stop :=
  let d := r.desc
  let use (operand c i : Nat) : Option Stop := if takesScale c then badScale operand c (atScale d i) else none
  match r.op with
  | .fwd => firstStop [use 1 (atQ d) 0, if atWalk d then none else firstStop [use 2 (atKv d) 1, use 2 (atKv d) 2],
      use 3 (atO d) 3]
  | .merge => firstStop [use 1 (atQStored d) 0, use 1 (atQStored d) 1, use 3 (atO d) 3]
  | _ => firstStop [use 1 (atQ d) 0, use 2 (atKv d) 1, use 2 (atKv d) 2, use 3 (atO d) 3]

/-- The checks of R262 from check 3 on. DEDUCED (log entry 41). -/
def State.attnStop (s : State) (a : At) (r : AttnCmd) : Option Stop :=
  let sl := s.at_ a
  let compat := sl.id.profile
  let d := r.desc
  let h := sl.ra r.acc
  let tiled := decide (r.op ≠ .merge)
  firstStop [
    attnFormats compat r.op d,
    attnRanges r,
    s.attnSet a r,
    stopIf (tiled && decide (handleRows h ≠ atQTile d)) (attnBad 5 10 (atQTile d)),
    stopIf (tiled && decide (handleCols h ≠ atHd d)) (attnBad 5 6 (atHdCode d)),
    if tiled then firstStop [badHandle sl 0 47 r.acc, badDesc sl 0 37 r.dwork] else none,
    s.attnMapped a r,
    attnScales r,
    if compat then none else attnFits sl r (atQTile d)]

def attnUse (op : AttnOp) : Use :=
  { dst := if op = .merge then .none_ else .a, src1 := .s, src2 := .d, src3 := .none_, imm := [(16, 15)] }

def AttnCmd.spans (r : AttnCmd) (sl : Slot) (t : Nat) : List Span :=
  if r.op = .merge then []
  else [{ acc := true, write := true, base := accBaseOf (sl.ra r.acc), len := (attnFoot sl.num r.op r.desc t).1 },
    descSpan (sl.rd r.dwork) true]

/-- Scratch space takes values that the manual does not fix. DESIGN CHOICE (log entry 39). -/
def State.scribble (s : State) (a : At) (w : Word) (acc len : Nat) : State :=
  let n := descLen w
  let s := s.bufWrite a (descBase w) ((List.range n).map (fun i => Config.freeByte (s.freeCtr + i)))
  (s.accWrite a acc ((List.range len).map (fun i => Config.freeLane (s.freeCtr + i)))).passN (max n len)

def State.startAttn (s : State) (a : At) (r : AttnCmd) (post : Option Nat) : State :=
  let sl := s.at_ a
  let d := r.desc
  let t := if sl.id.profile then attnRows sl r 8 (atQTile d) else atQTile d
  let b := (s.core a.core).tables
  let s := s.count a { splitTiles := if t < atQTile d then 1 else 0 }
  let s := if r.op = .merge then s
    else s.scribble a (sl.rd r.dwork) (accBaseOf (sl.ra r.acc)) (attnFoot sl.num r.op d t).1
  s.enqueue a .tensor
    { pc := sl.pc, major := 0x34, spans := r.spans sl t, claims := [.tensor, .sfu, .vector], granted := false,
      post := post,
      flight := .attn {
        op := r.op, desc := d, handle := sl.ra r.acc, dwork := sl.rd r.dwork, q0 := r.q0, qRows := r.qRows, h0 := r.h0,
        heads := r.heads, k0 := r.k0, kCount := r.kCount, qTile := t, bank := b.activeBank, gen := b.gen,
        ref := s.refMode a } }

def State.attnAddr (s : State) (a : At) (g : Nat) : Option Stop :=
  firstStop [
    stopIf (decide (g % 128 ≠ 0)) (attnBad 1 0 g),
    match s.devStop (s.whoAt a) false g 128 with
    | some (.access (.quarantined x)) => some (.access (.quarantined x))
    | some (.access (.poisoned x)) => some (.access (.poisoned x))
    | some (.access _) => some (attnBad 1 0 g)
    | x => x]

/-- An attention instruction. -/
def State.attn (s : State) (a : At) (op : AttnOp) (f : Fields) (w2 : Word) : State :=
  s.run a 0x34 16
    (fun s =>
      let sl := s.at_ a
      let compat := sl.id.profile
      let g := (sl.rs f.src1).toNat
      let r := attnCmd op f w2 sl (s.convDesc g)
      firstStop [
        s.attnAddr a g,
        badField compat (attnUse op) f,
        badWord2 compat w2 [(0, 43)],
        if compat then none else firstStop [
          if op = .merge then none else firstStop [
            stopIf (decide (fieldOf (sl.ra r.acc).toNat 38 26 ≠ 0)) (.instr 0x0102 (regInfo 0 47 38)),
            stopIf (decide (fieldOf (sl.rd r.dwork).toNat 52 12 ≠ 0)) (.instr 0x0102 (regInfo 0 37 52))],
          stopIf (decide ((sl.rs (w2.extractLsb' 48 5)).toNat / 2 ^ 32 ≠ 0)) (.instr 0x0102 (regInfo 1 48 32)),
          attnReserved op r.desc],
        s.attnStop a r,
        queueStop sl .tensor (r.spans sl (atQTile r.desc))])
    (fun s =>
      let sl := s.at_ a
      let g := (sl.rs f.src1).toNat
      let r := attnCmd op f w2 sl (s.convDesc g)
      ((s.devSpend (s.whoAt a) false g 128).passFree g 128).startAttn a r (postOf f))

def execAttnFwd (a : At) (f : Fields) (w2 : Word) (s : State) : Outcome State Fault Refusal :=
  .next (s.attn a .fwd f w2)
def execAttnBwdKv (a : At) (f : Fields) (w2 : Word) (s : State) : Outcome State Fault Refusal :=
  .next (s.attn a .bwdKv f w2)
def execAttnBwdQ (a : At) (f : Fields) (w2 : Word) (s : State) : Outcome State Fault Refusal :=
  .next (s.attn a .bwdQ f w2)
def execAttnMerge (a : At) (f : Fields) (w2 : Word) (s : State) : Outcome State Fault Refusal :=
  .next (s.attn a .merge f w2)

/-! ### Tiles, rows and masks -/

/-- Rows of the tile at hand, and its first query row. -/
def AttnRun.tileRows (r : AttnRun) : Nat × Nat := (r.q0 + r.tile * r.qTile, min r.qTile (r.qRows - r.tile * r.qTile))

def AttnRun.headAt (r : AttnRun) : Nat := r.h0 + r.head

/-- A key token is visible to a query token (R251). -/
def attnVisible (d : List Byte) (q k : Nat) : Bool :=
  match atMask d with
  | 0 => true
  | 1 => decide (k ≤ q)
  | _ => decide (k / atGroup d ≤ q / atGroup d)

/-- The last key that some row of the tile may see. -/
def AttnRun.lastVisible (r : AttnRun) : Nat :=
  let (i0, n) := r.tileRows
  let q := atTokBase r.desc + i0 + n - 1
  match atMask r.desc with
  | 0 => r.k0 + r.kCount - 1
  | 1 => min q (r.k0 + r.kCount - 1)
  | _ => min ((q / atGroup r.desc + 1) * atGroup r.desc - 1) (r.k0 + r.kCount - 1)

/-- A row of one head of a token-row tensor, decoded. -/
def State.headRow (s : State) (c base ld row head hd : Nat) : List Elem :=
  let b : Int := ((base + row * ld + head * hd * fmtBytes c : Nat) : Int)
  decodeRow c (fun i => s.farByte (b + i)) hd

def State.headStop (s : State) (a : At) (write : Bool) (c base ld row head hd : Nat) : Option Stop :=
  s.devStop (s.whoAt a) write (base + row * ld + head * hd * fmtBytes c) (hd * fmtBytes c)

/-- Values with their σ, in FP32. -/
def scaled (sigma : Fv) (es : List Elem) : List Fv := es.map (fun e => (e.val.mul sigma).r32)

/-- A dot product of the array, from an accumulator value (R87, R88). -/
def attnDot (acc : Lane) (fa fb k : Nat) (sa sb : Fv) (x y : List Elem) : Lane :=
  promoteRuns acc sa sb (tileRuns fa fb 32 k x y)

/-- A value quantised into a compute format with σ 1, as the array reads it. -/
def asElem (c : Nat) (v : Fv) : Elem := decodeCode c (quantElem c (.fin false 1 0) v).1

/-- Column `d` of a list of rows. -/
def column (rows : List (List Elem)) (d : Nat) : List Elem := rows.map (fun r => r.getD d { val := .zero })

/-! ### The forward step (R254, R255) -/

/-- A column of a step: its key and value and whether a row sees it; `ln` is ln(n) of a pseudo-token. -/
structure KeyCol where
  k : List Elem
  v : List Elem
  token : Option Nat
  on : Bool
  ln : Option Fv
  deriving DecidableEq, Repr

/-- What a row brings to a step and takes from it. -/
structure RowAcc where
  m : Lane
  l : Lane
  o : List Lane
  deriving DecidableEq, Repr

/-- One row of a forward step. `cand` gives the free values of its function evaluations. -/
def fwdRow (d : List Byte) (ref : Bool) (fq fk fp : Nat) (sq sk sv : Fv) (qTok : Nat) (q : List Elem)
    (cols : List KeyCol) (cand : Nat → Fv) (r : RowAcc) : RowAcc :=
  let hd := atHd d
  let s (c : KeyCol) : Fv :=
    if !(c.on && (match c.token with | some t => attnVisible d qTok t | none => true)) then .inf true
    else
      let raw := Fv.ofLane (attnDot 0 fq fk hd sq sk q c.k)
      let t := ((atTau d).mul raw).r32
      match c.ln with | some x => (t.add x).r32 | none => t
  let ss := cols.map s
  if r.m = nanLane || ss.any (fun v => v.isNan || v = .inf false) then { r with m := nanLane }
  else
    let m := Fv.ofLane r.m
    let mn := ss.foldl Fv.maxv m
    let corr := if mn = .inf true then Fv.fin false 1 0
      else sfu32 ref (sfuRes .exp (m.sub mn).r32 .zero) (cand 128)
    let ps := (List.range ss.length).map (fun c =>
      let v := ss.getD c (.inf true)
      if v = .inf true then Fv.zero else sfu32 ref (sfuRes .exp (v.sub mn).r32 .zero) (cand c))
    let sum := pairTree (fun x y => (x.add y).r32) .zero 7 (padTo .zero 128 ps)
    let l := (((Fv.ofLane r.l).mul corr).r32.add sum).toLane
    let pq := ps.map (asElem fp)
    let o := (List.range hd).map (fun x =>
      attnDot (mulLane (r.o.getD x 0) corr.toLane) fp fk 128 (.fin false 1 0) sv pq (column (cols.map (·.v)) x))
    { m := mn.toLane, l := l, o := o }

/-- O of a row in the accumulator. -/
def State.accRow (s : State) (a : At) (r : AttnRun) (i : Nat) : List Lane :=
  s.accEntries a (accBaseOf r.handle + i * atHd r.desc) (atHd r.desc)

/-- The staged rows of Q. -/
def AttnRun.qElems (r : AttnRun) (i : Nat) : List Elem :=
  let n := rowBytes r.qFmt (atHd r.desc)
  decodeRow r.qFmt (fun j => (r.qBytes.getD (i * n + j) 0).toNat) (atHd r.desc)

/-- A forward step over columns in formats `fk` of K and V and `fp` of P. -/
def State.fwdStep (s : State) (a : At) (r : AttnRun) (fk fp : Nat) (sk sv : Fv) (cols : List KeyCol) : State × AttnRun :=
  let d := r.desc
  let (i0, n) := r.tileRows
  let rows := (List.range n).map (fun i =>
    fwdRow d r.ref r.qFmt fk fp (sigmaOf r.qFmt (atScale d 0)) sk sv (atTokBase d + i0 + i) (r.qElems i) cols
      (fun j => s.cand (256 + 129 * i + j))
      { m := r.rowM.getD i 0, l := r.rowL.getD i 0, o := s.accRow a r i })
  let s := s.accWrite a (accBaseOf r.handle) (rows.flatMap (·.o))
  (s.passN (256 + 129 * n), { r with rowM := rows.map (·.m), rowL := rows.map (·.l), step := r.step + 1 })

/-! ### The start and end of a tile -/

/-- Q of a tile staged, with the fallback of R257: its format, its bytes and the counts. -/
def State.stageQ (s : State) (a : At) (r : AttnRun) : Nat × List Byte × NumCount × Nat :=
  let d := r.desc
  let sl := s.at_ a
  let (i0, n) := r.tileRows
  let hd := atHd d
  let st := atQStored d
  let c := atQ d
  let rows := (List.range n).map (fun i => s.headRow st (atBase d 0) (atLdq d) (i0 + i) r.headAt hd)
  let raw (f : Nat) (rs : List (List Elem)) : List Byte :=
    rs.flatMap (fun es => (quantRow f (if takesScale f then some 0x3F800000 else none) (es.map (·.val))).bytes)
  let x0 := stageFirst st c false (atScale d 0) hd rows
  let w0 : Staged := { fmt := 0, rows := [], sigma := .zero, quant := 0, sat := 0, bytes := [] }
  let (x, _, _, _, total, fell) := fallback sl.num (restage st c (atScale d 0) hd rows) (fun w => w) 8
    (x0, w0, x0.quant, x0.sat, x0.sat, false)
  (x.fmt, raw x.fmt x.rows, { satOnLoad := total, fallbackTiles := if fell then 1 else 0 }, x0.fmt)

/-- D of R258 for a query row: Σ rn(dO × O) in the pairwise tree. -/
def State.rowDot (s : State) (r : AttnRun) (row : Nat) : Lane :=
  let d := r.desc
  let hd := atHd d
  let sig := sigmaOf (atO d) (atScale d 3)
  let o := scaled sig (s.headRow (atO d) (atBase d 1) (atLdo d) row r.headAt hd)
  let g := scaled sig (s.headRow (atO d) (atBase d 5) (atLdo d) row r.headAt hd)
  (pairTree (fun (x y : Fv) => (x.add y).r32) Fv.zero (6 + atHdCode d) ((o.zip g).map (fun e => (e.1.mul e.2).r32))).toLane

/-- A tile starts: in the forward and query passes its rows are staged and the accumulator starts at +0; the key
pass of the backward clears dK and dV. -/
def State.startTile (s : State) (a : At) (r : AttnRun) : State × AttnRun :=
  let d := r.desc
  let (_, n) := r.tileRows
  let hd := atHd d
  let org := accBaseOf r.handle
  match r.op with
  | .fwd =>
    let (f, bs, cnt, f0) := s.stageQ a r
    let s := ((s.count a cnt).countFallback a (decide (cnt.fallbackTiles = 1)) f0 f).accWrite a org (List.replicate (n * hd) 0)
    ({ s with nextWalk := s.nextWalk + 1 }.tick,
      { r with started := true, qFmt := f, qBytes := bs, step := 0, part := 0, queue := [], pseudo := [],
               rowM := List.replicate n 0xFF800000, rowL := List.replicate n 0,
               walk := s.nextWalk, walkSlot := r.k0 / 384, walkDone := false })
  | .bwdKv => (s.accWrite a org (List.replicate (2 * 128 * hd) 0), { r with started := true, step := 0 })
  | _ => (s.accWrite a org (List.replicate (n * hd) 0), { r with started := true, step := 0 })

/-- An output row stored, and what it counts. -/
def State.putHead (s : State) (a : At) (c scale base ld row head : Nat) (vs : List Fv) : State :=
  let hd := vs.length
  let q := quantRow c (storeGiven c true scale) vs
  let g := base + row * ld + head * hd * fmtBytes c
  let s := (s.devSpend (s.whoAt a) true g q.bytes.length).devWrite (s.at_ a).id.ctx g q.bytes
  s.count a { satOnStore := q.sat }

/-- Statistics of a row stored: log-sum-exp or the pair (m, l) (R252). -/
def State.putStats (s : State) (a : At) (d : List Byte) (base row head : Nat) (m l lse : Lane) : State :=
  let w := if atPair d then 8 else 4
  let g := base + (row * atHeads d + head) * w
  let bs := if atPair d then toBytes 4 m.toNat ++ toBytes 4 l.toNat else toBytes 4 lse.toNat
  (s.devSpend (s.whoAt a) true g w).devWrite (s.at_ a).id.ctx g bs

/-- The end of a forward row (R254, R255). -/
def State.endRow (s : State) (a : At) (r : AttnRun) (i : Nat) : State :=
  let d := r.desc
  let row := r.tileRows.1 + i
  let m := r.rowM.getD i 0
  let l := r.rowL.getD i 0
  let o := s.accRow a r i
  let bad := decide (m = nanLane)
  let none_ := decide (m = 0xFF800000)
  let inv := sfu32 r.ref (sfuRes .rcp (.ofLane l) .zero) (s.cand 0)
  let ln := sfu32 r.ref (sfuRes .log (.ofLane l) .zero) (s.cand 1)
  let vs := o.map (fun x => if bad then Fv.nan else if none_ then .zero else ((Fv.ofLane x).mul inv).r32)
  let lse : Lane := if bad then nanLane else if none_ then 0xFF800000 else ((Fv.ofLane m).add ln).toLane
  let s := (s.passN 2).accWrite a (accBaseOf r.handle + i * atHd d) (vs.map Fv.toLane)
  let s := s.putHead a (atO d) (atScale d 3) (atBase d 1) (atLdo d) row r.headAt vs
  if atStats d then s.putStats a d (atBase d 4) row r.headAt m (if bad then nanLane else if none_ then 0 else l) lse else s

/-- The first stop of the writes of a tile's end. -/
def State.endStop (s : State) (a : At) (r : AttnRun) : Option Stop :=
  let d := r.desc
  let (i0, n) := r.tileRows
  let hd := atHd d
  let out (c i ld row : Nat) := s.headStop a true c (atBase d i) ld row r.headAt hd
  match r.op with
  | .fwd => ((List.range n).filterMap (fun i => out (atO d) 1 (atLdo d) (i0 + i))).head?
  | .bwdQ => ((List.range n).filterMap (fun i => out (atGrad d) 6 (atLdo d) (i0 + i))).head?
  | .bwdKv =>
    let k := r.k0 + r.tile * 128
    ((List.range (min 128 (r.kCount - r.tile * 128))).filterMap (fun j =>
      firstStop [out (atGrad d) 6 (atLdkv d) (k + j), out (atGrad d) 7 (atLdkv d) (k + j)])).head?
  | .merge => none

/-- The stores at the end of a tile. -/
def State.endTile (s : State) (a : At) (r : AttnRun) : State :=
  let d := r.desc
  let (i0, n) := r.tileRows
  let hd := atHd d
  let org := accBaseOf r.handle
  let grad (s : State) (off base ld row : Nat) : State :=
    s.putHead a (atGrad d) 0x3F800000 base ld row r.headAt ((s.accEntries a (org + off) hd).map Fv.ofLane)
  match r.op with
  | .fwd => (List.range n).foldl (fun s i => s.endRow a r i) s
  | .bwdQ => (List.range n).foldl (fun s i => grad s (i * hd) (atBase d 6) (atLdo d) (i0 + i)) s
  | .bwdKv =>
    let k := r.k0 + r.tile * 128
    (List.range (min 128 (r.kCount - r.tile * 128))).foldl (fun s j =>
      grad (grad s (j * hd) (atBase d 6) (atLdkv d) (k + j)) (128 * hd + j * hd) (atBase d 7) (atLdkv d) (k + j)) s
  | .merge => s

/-- Tiles of a head: of query rows, or of 128 keys; a merge takes one row at a time, all its heads. -/
def AttnRun.tiles (r : AttnRun) : Nat :=
  match r.op with
  | .bwdKv => ceilDiv r.kCount 128
  | .merge => r.qRows
  | _ => ceilDiv r.qRows r.qTile

/-- The command after a tile: head-major, then tile order; none at its end. -/
def AttnRun.after (r : AttnRun) : Option AttnRun :=
  let r := { r with started := false, waitFrom := none, late := false }
  if r.tile + 1 < r.tiles then some { r with tile := r.tile + 1 }
  else if r.op ≠ .merge && r.head + 1 < r.heads then some { r with head := r.head + 1, tile := 0 }
  else none

/-! ### Backward steps (R258) -/

/-- P and dS of a query row and a key row, both in FP32. -/
def bwdPair (d : List Byte) (ref : Bool) (lse dot : Fv) (bad : Bool) (s dp cand : Fv) : Fv × Fv :=
  if lse = .inf true then (.zero, .zero)
  else if bad then (.nan, .nan)
  else
    let p := sfu32 ref (sfuRes .exp (((atTau d).mul s).r32.sub lse).r32 .zero) cand
    (p, ((atTau d).mul (p.mul (dp.sub dot).r32).r32).r32)

/-- A step of the backward: query rows `is` with key rows `js`. It gives, for each pair, P and dS, with the rows of
Q, K, V and dO that the products take. -/
structure BwdRows where
  q : List (List Elem)
  k : List (List Elem)
  v : List (List Elem)
  g : List (List Elem)
  p : List (List Elem)
  ds : List (List Elem)
  deriving DecidableEq, Repr

def State.bwdRows (s : State) (r : AttnRun) (is js : List Nat) : BwdRows :=
  let d := r.desc
  let hd := atHd d
  let h := r.headAt
  let q := is.map (fun i => s.headRow (atQ d) (atBase d 0) (atLdq d) i h hd)
  let k := js.map (fun j => s.headRow (atKv d) (atBase d 2) (atLdkv d) j h hd)
  let v := js.map (fun j => s.headRow (atKv d) (atBase d 3) (atLdkv d) j h hd)
  let o := is.map (fun i => s.headRow (atO d) (atBase d 1) (atLdo d) i h hd)
  let g0 := is.map (fun i => s.headRow (atO d) (atBase d 5) (atLdo d) i h hd)
  -- dO in FP32 enters the products as BF16
  let gf := if atO d = 0 then 1 else atO d
  let g := if atO d = 0 then g0.map (fun es => es.map (fun e => asElem 1 e.val)) else g0
  let lses := is.map (fun i => Fv.ofLane (BitVec.ofNat 32 (ofBytes ((List.range 4).map (fun b =>
    BitVec.ofNat 8 (s.farByte ((atBase d 4 + (i * atHeads d + h) * 4 + b : Nat) : Int)))))))
  let dots := is.map (fun i => Fv.ofLane (s.rowDot r i))
  let sQ := sigmaOf (atQ d) (atScale d 0)
  let sK := sigmaOf (atKv d) (atScale d 1)
  let sV := sigmaOf (atKv d) (atScale d 2)
  let sO := sigmaOf (atO d) (atScale d 3)
  let special (es : List Elem) := es.any (fun e => !e.val.isFin)
  let pairs := (List.range is.length).map (fun i => (List.range js.length).map (fun j =>
    let qi := q.getD i []
    let kj := k.getD j []
    let vj := v.getD j []
    let gi := g.getD i []
    let lse := lses.getD i .nan
    let bad := special qi || special gi || special (o.getD i []) || lse.isNan || decide (lse = .inf false)
      || special kj || special vj
    if !attnVisible d (atTokBase d + is.getD i 0) (js.getD j 0) then (Fv.zero, Fv.zero)
    else
      let sc := Fv.ofLane (attnDot 0 (atQ d) (atKv d) hd sQ sK qi kj)
      let dp := Fv.ofLane (attnDot 0 gf (atKv d) hd sO sV gi vj)
      bwdPair d r.ref lse (dots.getD i .zero) bad sc dp (s.cand (128 * i + j))))
  { q := q, k := k, v := v, g := g
    p := pairs.map (fun l => l.map (fun e => asElem 1 e.1)), ds := pairs.map (fun l => l.map (fun e => asElem 1 e.2)) }

/-- Key rows of a step of the query pass. -/
def AttnRun.stepKeys (r : AttnRun) : List Nat :=
  (List.range (min 128 (r.kCount - r.step * 128))).map (· + r.k0 + r.step * 128)

/-- A step of ATTN.BWD.Q: dQ += dS · K. -/
def State.bwdQStep (s : State) (a : At) (r : AttnRun) : State × AttnRun :=
  let d := r.desc
  let hd := atHd d
  let (i0, n) := r.tileRows
  let x := s.bwdRows r ((List.range n).map (· + i0)) r.stepKeys
  let org := accBaseOf r.handle
  let new := (List.range n).flatMap (fun i => (List.range hd).map (fun c =>
    attnDot (s.accAt a (org + i * hd + c)) 1 (atKv d) (x.ds.getD i []).length (.fin false 1 0)
      (sigmaOf (atKv d) (atScale d 1)) (x.ds.getD i []) (column x.k c)))
  ((s.accWrite a org new).passN (128 * n), { r with step := r.step + 1 })

/-- A step of ATTN.BWD.KV: dV += Pᵀ · dO and dK += dSᵀ · Q, over the query tile `step`. -/
def State.bwdKvStep (s : State) (a : At) (r : AttnRun) : State × AttnRun :=
  let d := r.desc
  let hd := atHd d
  let i0 := r.q0 + r.step * r.qTile
  let n := min r.qTile (r.qRows - r.step * r.qTile)
  let js := (List.range (min 128 (r.kCount - r.tile * 128))).map (· + r.k0 + r.tile * 128)
  let x := s.bwdRows r ((List.range n).map (· + i0)) js
  let org := accBaseOf r.handle
  let gf := if atO d = 0 then 1 else atO d
  let one : Fv := .fin false 1 0
  let prod (off f : Nat) (sig : Fv) (left right : List (List Elem)) : List Lane :=
    (List.range js.length).flatMap (fun j => (List.range hd).map (fun c =>
      attnDot (s.accAt a (org + off + j * hd + c)) 1 f n one sig (column left j) (column right c)))
  let dk := prod 0 (atQ d) (sigmaOf (atQ d) (atScale d 0)) x.ds x.q
  let dv := prod (128 * hd) gf (sigmaOf (atO d) (atScale d 3)) x.p x.g
  (((s.accWrite a org dk).accWrite a (org + 128 * hd) dv).passN (128 * n), { r with step := r.step + 1 })

/-! ### Merge (R260) -/

/-- One row and head merged: O, m, l, lse. -/
def mergeHead (ref : Bool) (cand : Nat → Fv) (ma la mb lb : Fv) (oa ob : List Fv) : List Fv × Fv × Fv × Fv :=
  if la.isZero && lb.isZero then (oa.map (fun _ => .zero), .inf true, .zero, .inf true)
  else
    let nan := ma.isNan || mb.isNan || la.isNan || lb.isNan
    let m := if nan then Fv.nan else ma.maxv mb
    let w (mx lx : Fv) (i : Nat) : Fv :=
      if lx.isZero then .zero else (lx.mul (sfu32 ref (sfuRes .exp (mx.sub m).r32 .zero) (cand i))).r32
    let wa := w ma la 0
    let wb := w mb lb 1
    let l := (wa.add wb).r32
    let inv := sfu32 ref (sfuRes .rcp l .zero) (cand 2)
    let ln := sfu32 ref (sfuRes .log l .zero) (cand 3)
    ((oa.zip ob).map (fun e => (((wa.mul e.1).r32.add (wb.mul e.2).r32).r32.mul inv).r32), m, l, (m.add ln).r32)

def State.pairAt (s : State) (d : List Byte) (base row head : Nat) : Fv × Fv :=
  let w (o : Nat) : Fv := .ofLane (BitVec.ofNat 32 (ofBytes ((List.range 4).map (fun b =>
    BitVec.ofNat 8 (s.farByte ((base + (row * atHeads d + head) * 8 + o + b : Nat) : Int))))))
  (w 0, w 4)

/-- One row of ATTN.MERGE over the heads of the command. -/
def State.mergeRow (s : State) (a : At) (r : AttnRun) : State :=
  let d := r.desc
  let hd := atHd d
  let row := r.q0 + r.tile
  ((List.range r.heads).foldl (fun s i =>
    let h := r.h0 + i
    let (ma, la) := s.pairAt d (atBase d 4) row h
    let (mb, lb) := s.pairAt d (atBase d 3) row h
    let c := atQStored d
    let oa := scaled (sigmaOf c (atScale d 0)) (s.headRow c (atBase d 0) (atLdo d) row h hd)
    let ob := scaled (sigmaOf c (atScale d 1)) (s.headRow c (atBase d 2) (atLdo d) row h hd)
    let (o, m, l, lse) := mergeHead r.ref (fun k => s.cand (1 + k)) ma la mb lb oa ob
    let s := (s.passN 5).putHead a (atO d) (atScale d 3) (atBase d 1) (atLdo d) row h o
    if atStats d then s.putStats a d (atBase d 6) row h m.toLane l.toLane lse.toLane else s) s).tick

/-- The reads and writes of a merged row. -/
def State.mergeStop (s : State) (a : At) (r : AttnRun) : Option Stop :=
  let d := r.desc
  let row := r.q0 + r.tile
  ((List.range r.heads).filterMap (fun i =>
    let at_ (w : Bool) (c b : Nat) := s.headStop a w c (atBase d b) (atLdo d) row (r.h0 + i) (atHd d)
    firstStop [at_ false (atQStored d) 0, at_ false (atQStored d) 2, at_ true (atO d) 1])).head?

/-! ### The page walk (R278, R279) -/

/-- The slots of a set's ring that walks in progress use or copies fill. -/
def State.ringBusy (s : State) (i k : Nat) : Bool :=
  (mapGet {} (s.set i).ring k).pending
    || s.cores.any (fun c => c.2.slots.any (fun sl => sl.2.inFlight.any (fun q => match q.flight with
      | .attn r => setNamed q = some i && r.queue.any (fun p => decide (p.ringSlot = some k))
      | _ => false)))

/-- The next free ring slot, least recently used first (R278). -/
def State.ringPick (s : State) (i : Nat) : Option Nat :=
  let v := s.set i
  let free := (List.range (csRingPages v.csd)).filter (fun k => !s.ringBusy i k)
  free.foldl (fun best k => match best with
    | none => some k
    | some b => if (mapGet {} v.ring k).used < (mapGet {} v.ring b).used then some k else best) none

def ringAddr (c : List Byte) (k : Nat) : Nat := csRing c + k * csPageBytes c

/-- A fetch of a page into the ring by a sluice copy (R278, R303). -/
def State.ringFetch (s : State) (i k frame : Nat) : State :=
  let v := s.set i
  let c := v.csd
  let old := (mapGet {} v.ring k).frame
  let s := if old = 0 then s
    else let e := s.frame c (old - 1)
      if e.ringTag = k + 1 then s.setFrame c (old - 1) { e with ringTag := 0 } else s
  let s := s.setSet i { v with ring := mapSet {} v.ring k { frame := frame + 1, pending := true, used := v.clock + 1 },
                               clock := v.clock + 1 }
  let cmd := sluiceCmd (frameAddr c frame) (csPageBytes c) 1 0 0 (s.job v.ctx).polder (ringAddr c k) 0 0 v.ctx
  (s.stat i 2 1).addSluice { cmd := cmd, ring := some (i, k, frame) }

/-- Every extent of a page has its home in the stacks. -/
def State.inStacks (s : State) (a len : Nat) : Bool :=
  (blocksOf extentBytes a len).all (fun x => (s.home x).tier = 0)

/-- What the lantern does for one slot of the list: a descriptor, or nothing, or it waits for a ring slot. -/
inductive WalkStep where
  | skip
  | emit (s : State) (p : PageDesc)
  | stall

def State.walkSlot (s : State) (r : AttnRun) (slot : Nat) : WalkStep :=
  let d := r.desc
  let i := atSet d
  let v := s.set i
  let c := v.csd
  let pos : ListPos := { seq := atSeq d, block := atBlock d, slot := slot }
  let e := s.entry c pos
  let fr := s.frame c e.page
  let token := 384 * slot
  let n := if e.present then fr.valid else e.silN
  let last := token + n - 1
  let keyEnd := r.k0 + r.kCount
  let (i0, _) := r.tileRows
  let hi := min n (keyEnd - token)
  let old := decide (csHorizon c > 0) && decide (last + csHorizon c < keyEnd)
  let p : PageDesc := {
    addr := frameAddr c e.page, token := token, lo := r.k0 - token, hi := hi, page := e.page, silAddr := silAddr c pos,
    silN := e.silN, home := (s.home (frameAddr c e.page / extentBytes)).tier,
    silOk := e.sil && decide (r.k0 ≤ token) && decide (last < keyEnd) && attnVisible d (atTokBase d + i0) last }
  if !e.present && !e.sil then .skip
  else if token > r.lastVisible then .skip
  else if old && e.sil then .emit s { p with silOnly := true, horizon := true }
  else if !e.present then .skip
  else if s.inStacks p.addr (csPageBytes c) then .emit s p
  else if fr.ringTag ≠ 0 then
    let k := fr.ringTag - 1
    let q := mapGet {} v.ring k
    let s := s.setSet i { v with ring := mapSet {} v.ring k { q with used := v.clock + 1 }, clock := v.clock + 1 }
    .emit (s.stat i 3 1) { p with addr := ringAddr c k, home := 0, ringSlot := some k, pending := q.pending }
  else match s.ringPick i with
    | none => .stall
    | some k => .emit (s.ringFetch i k e.page) { p with addr := ringAddr c k, home := 0, ringSlot := some k, pending := true }

/-- The last descriptor of a walk is marked (R279). -/
def markLast (l : List PageDesc) : List PageDesc :=
  (List.range l.length).map (fun i => let p := l.getD i {}; if i + 1 = l.length then { p with last := true } else p)

/-- The walk goes on while the queue has room (R278): 64 descriptors. DEDUCED (log entry 42). -/
def State.walk (s : State) (r : AttnRun) : Nat → State × AttnRun
  | 0 => (s, r)
  | fuel + 1 =>
    if r.walkSlot > (r.k0 + r.kCount - 1) / 384 || r.walkSlot ≥ csSlots (s.set (atSet r.desc)).csd then
      (s, { r with walkDone := true, queue := markLast r.queue })
    else if r.queue.length ≥ 64 then (s, r)
    else match s.walkSlot r r.walkSlot with
      | .stall => (s, r)
      | .skip => s.walk { r with walkSlot := r.walkSlot + 1 } fuel
      | .emit s p => s.walk { r with walkSlot := r.walkSlot + 1, queue := r.queue ++ [p] } fuel

/-- The attention command at the head of a slot's tensor sub-queue. -/
def State.attnHead (s : State) (a : At) : Option (Queued × AttnRun) :=
  match (s.at_ a).qTa.head? with
  | some q => match q.flight with
    | .attn r => some (q, r)
    | _ => none
  | none => none

def State.putAttn (s : State) (a : At) (q : Queued) (r : AttnRun) : State :=
  s.updateHead a .tensor (some { q with flight := .attn r })

/-- PAGE_WALK: the region lantern walks the page list for the tile at hand (R278). -/
def execPageWalk (a : At) (s : State) : Outcome State Fault Refusal :=
  .next (match s.attnHead a with
    | none => s
    | some (q, r) =>
      if r.op ≠ .fwd || !atWalk r.desc || !r.started || r.walkDone || !(s.at_ a).goes
          || s.lanternDown (a.core / 12) then s
      else
        let (s, r') := s.walk r (r.kCount / 384 + 3)
        s.putAttn a q r')

/-! ### Steps (R254, R280, R282) -/

/-- The first stop of a page's or a dense range's reads in a step. -/
def State.keyStop (s : State) (a : At) (c base ld row head hd n : Nat) : Option Stop :=
  ((List.range n).filterMap (fun j => s.headStop a false c base ld (row + j) head hd)).head?

/-- The columns of a dense step (R252). -/
def State.denseCols (s : State) (r : AttnRun) : List KeyCol :=
  let d := r.desc
  (List.range 128).map (fun c =>
    let j := r.step * 128 + c
    let on := decide (j < r.kCount)
    let row (b : Nat) := if on then s.headRow (atKv d) (atBase d b) (atLdkv d) (r.k0 + j) r.headAt (atHd d)
      else List.replicate (atHd d) { val := .zero }
    { k := row 2, v := row 3, token := some (r.k0 + j), on := on, ln := none })

/-- The columns of a part of a page (R267, R279). DEDUCED (log entry 42). -/
def State.pageCols (s : State) (r : AttnRun) (p : PageDesc) : List KeyCol :=
  let c := (s.set (atSet r.desc)).csd
  let hd := csHd c
  let slice := 384 * hd * csElem c
  (List.range 128).map (fun x =>
    let pos := r.part * 128 + x
    let row (v : Bool) : List Elem :=
      let b := p.addr + (r.headAt + if v then csHeads c else 0) * slice + pos * hd * csElem c
      decodeRow (csFmt c) (fun i => (s.memByte (b + i)).toNat) hd
    { k := row false, v := row true, token := some (p.token + pos),
      on := decide (p.lo ≤ pos) && decide (pos < p.hi), ln := none })

/-- A part of a page holds tokens to use. DEDUCED (log entry 42). -/
def partUsed (p : PageDesc) (part : Nat) : Bool := decide (p.lo < part * 128 + 128) && decide (part * 128 < p.hi)

/-- The next part of a page from `k` on that holds tokens to use. DEDUCED (log entry 42). -/
def nextPart (p : PageDesc) (k : Nat) : Option Nat := ([0, 1, 2].filter (fun i => decide (k ≤ i) && partUsed p i)).head?

/-- The pseudo-tokens of a step, 128 at most (R282). -/
def State.pseudoCols (s : State) (r : AttnRun) : List KeyCol :=
  let d := r.desc
  let hd := atHd d
  let at_ (b : Nat) : List Elem := decodeRow 1 (fun i => (s.memByte (b + i)).toNat) hd
  (List.range 128).map (fun (c : Nat) => match r.pseudo[c]? with
    | some (adr, n) => {
        k := at_ (adr + r.headAt * hd * 2), v := at_ (adr + (atHeads d + r.headAt) * hd * 2), token := none, on := true,
        ln := some (sfu32 r.ref (sfuRes .log (.ofInt n) .zero) (s.cand (128 + c))) }
    | none => { k := List.replicate hd { val := .zero }, v := List.replicate hd { val := .zero }, token := none,
                on := false, ln := none })

/-- A page passed over for its silhouette (R278, R280, R284). -/
def AttnRun.takeSil (r : AttnRun) (p : PageDesc) : AttnRun :=
  { r with queue := r.queue.drop 1, part := 0, pseudo := r.pseudo ++ [(p.silAddr, p.silN)], waitFrom := none, late := false }

/-- Pages at the head of the queue that enter as silhouettes are collected (R254, R284). -/
def State.collect (s : State) (r : AttnRun) : Nat → State × AttnRun
  | 0 => (s, r)
  | fuel + 1 =>
    match r.queue with
    | p :: _ =>
      if p.silOnly then
        let s := if p.horizon then s.stat (atSet r.desc) 0 1 else s
        s.collect (r.takeSil p) fuel
      else if p.pending && !(match p.ringSlot with
          | some k => (mapGet {} (s.set (atSet r.desc)).ring k).pending | none => false) then
        (s, { r with queue := { p with pending := false } :: r.queue.drop 1, waitFrom := none, late := false })
      else (s, r)
    | [] => (s, r)

/-- What a step can do now. -/
inductive StepKind where
  | notReady
  | stop (x : Stop)
  | step (s : State) (r : AttnRun)
  | end_

/-- A step over a page at the head of the queue. -/
def State.pageStep (s : State) (a : At) (r : AttnRun) (p : PageDesc) : StepKind :=
  let d := r.desc
  let c := (s.set (atSet d)).csd
  match nextPart p r.part with
  | none => .step s { r with queue := r.queue.drop 1, part := 0 }
  | some k =>
    let r := { r with part := k }
    let slice := 384 * csHd c * csElem c
    let at_ (v : Bool) := p.addr + (r.headAt + if v then csHeads c else 0) * slice + k * 128 * csHd c * csElem c
    let n := 128 * csHd c * csElem c
    match firstStop [s.devStop (s.whoAt a) false (at_ false) n, s.devStop (s.whoAt a) false (at_ true) n] with
    | some x => .stop x
    | none =>
      let cols := s.pageCols r p
      let s := (s.devSpend (s.whoAt a) false (at_ false) n).devSpend (s.whoAt a) false (at_ true) n
      let (s, r) := s.fwdStep a r (csFmt c) (atP d) (sigmaOf (csFmt c) (csScaleK c)) (sigmaOf (csFmt c) (csScaleV c)) cols
      match nextPart p (k + 1) with
      | some k' => .step s { r with part := k' }
      | none => .step s { r with queue := r.queue.drop 1, part := 0 }

/-- The next step of a forward tile. -/
def State.fwdNext (s : State) (a : At) (r : AttnRun) : StepKind :=
  let d := r.desc
  if !atWalk d then
    if r.step * 128 ≥ r.kCount then .end_
    else
      let n := min 128 (r.kCount - r.step * 128)
      let at_ (b : Nat) := s.keyStop a (atKv d) (atBase d b) (atLdkv d) (r.k0 + r.step * 128) r.headAt (atHd d) n
      match firstStop [at_ 2, at_ 3] with
      | some x => .stop x
      | none =>
        let (s, r) := s.fwdStep a r (atKv d) (atP d) (sigmaOf (atKv d) (atScale d 1)) (sigmaOf (atKv d) (atScale d 2))
          (s.denseCols r)
        .step s.tick r
  else
    let (s, r) := s.collect r 65
    match r.queue with
    | p :: _ =>
      if p.pending then .step s { r with waitFrom := some (r.waitFrom.getD s.time) } else s.pageStep a r p
    | [] =>
      if !r.walkDone then .notReady
      else if r.pseudo.isEmpty then .end_
      else
        let one : Fv := .fin false 1 0
        let (s, r) := s.fwdStep a r 1 (atP d) one one (s.pseudoCols r)
        .step s { r with pseudo := r.pseudo.drop 128 }

/-- Nothing is left of a tile. -/
def AttnRun.tileDone (r : AttnRun) : Bool :=
  match r.op with
  | .fwd => if atWalk r.desc then r.walkDone && r.queue.isEmpty && r.pseudo.isEmpty
      else decide (r.step * 128 ≥ r.kCount)
  | .bwdQ => decide (r.step * 128 ≥ r.kCount)
  | .bwdKv => decide (r.step * r.qTile ≥ r.qRows)
  | .merge => true

/-- The reads of a step of the backward. -/
def State.bwdStop (s : State) (a : At) (r : AttnRun) : Option Stop :=
  let d := r.desc
  let hd := atHd d
  let (i0, n) := if r.op = .bwdQ then r.tileRows else (r.q0 + r.step * r.qTile, min r.qTile (r.qRows - r.step * r.qTile))
  let (j0, m) := if r.op = .bwdQ then (r.k0 + r.step * 128, min 128 (r.kCount - r.step * 128))
    else (r.k0 + r.tile * 128, min 128 (r.kCount - r.tile * 128))
  firstStop [
    s.keyStop a (atQ d) (atBase d 0) (atLdq d) i0 r.headAt hd n,
    s.keyStop a (atO d) (atBase d 1) (atLdo d) i0 r.headAt hd n,
    s.keyStop a (atO d) (atBase d 5) (atLdo d) i0 r.headAt hd n,
    s.keyStop a (atKv d) (atBase d 2) (atLdkv d) j0 r.headAt hd m,
    s.keyStop a (atKv d) (atBase d 3) (atLdkv d) j0 r.headAt hd m]

/-- The step at hand of a started tile. -/
def State.attnNext (s : State) (a : At) (r : AttnRun) : StepKind :=
  match r.op with
  | .fwd => s.fwdNext a r
  | .merge =>
    match s.mergeStop a r with
    | some x => .stop x
    | none => .step (s.mergeRow a r) r
  | op =>
    if r.tileDone then .end_
    else match s.bwdStop a r with
      | some x => .stop x
      | none =>
        let (s, r) := if op = .bwdQ then s.bwdQStep a r else s.bwdKvStep a r
        .step s.tick r

/-- The end of a tile, and the command's next tile or its end. -/
def State.closeTile (s : State) (a : At) (q : Queued) (r : AttnRun) : State :=
  match s.endStop a r with
  | some x => s.stopAt a 0x34 x
  | none =>
    let s := s.endTile a r
    s.updateHead a .tensor (match r.after with
      | some r' => some { q with granted := false, flight := .attn r' }
      | none => none)

/-- One step of a command whose claim is granted (R254). A command that is not ready gives its claim back. -/
def State.attnStep (s : State) (a : At) (q : Queued) (r : AttnRun) : State :=
  let start : Option Stop := if r.started || r.op ≠ .fwd then none
    else s.keyStop a (atQStored r.desc) (atBase r.desc 0) (atLdq r.desc) r.tileRows.1 r.headAt (atHd r.desc) r.tileRows.2
  match start with
  | some x => s.stopAt a 0x34 x
  | none =>
    let (s, r) := if r.started then (s, r) else s.startTile a r
    match s.attnNext a r with
    | .notReady => s.updateHead a .tensor (some { q with granted := false, flight := .attn r })
    | .stop x => s.stopAt a 0x34 x
    | .end_ => s.closeTile a q r
    | .step s r =>
      if r.tileDone then s.closeTile a q r
      else s.updateHead a .tensor (some { q with granted := false, flight := .attn r })

/-- ATTN_STEP: one step of the slot's attention command, where its claim is granted (R254). -/
def execAttnStep (a : At) (s : State) : Outcome State Fault Refusal :=
  .next (match s.claimRuns a .tensor with
    | none => s
    | some _ => match s.attnHead a with
      | none => s
      | some (q, r) => s.guarded a 0x0802 0x34 (fun s => s.attnStep a q r))

/-! ### Waits on pages (R280) -/

/-- The page that the slot's command waits on, with its command. -/
def State.pageWait (s : State) (a : At) : Option (Queued × AttnRun × PageDesc) :=
  match s.attnHead a with
  | some (q, r) =>
    match r.waitFrom, r.queue with
    | some _, p :: _ =>
      let still := match p.ringSlot with | some k => (mapGet {} (s.set (atSet r.desc)).ring k).pending | none => false
      if p.pending && still then some (q, r, p) else none
    | _, _ => none
  | none => none

/-- ATTN_FETCH_TIMEOUT, with the wait in µs (R280, R286). -/
def State.fetchTimeout (s : State) (a : At) (r : AttnRun) (p : PageDesc) : State :=
  s.pageFault a 0x0504 (atSet r.desc) p.page ((s.time - r.waitFrom.getD s.time) / 1100)

/-- PAGE_FETCH_DEADLINE: the grace of a pending page ends (R280, R284). -/
def execPageFetchDeadline (a : At) (s : State) : Outcome State Fault Refusal :=
  .next (match s.pageWait a with
    | none => s
    | some (q, r, p) =>
      let i := atSet r.desc
      let ctl := (s.at_ a).attn
      if r.late then s
      else if p.silOk && ctl.silOnDeadline then
        let s := (s.stat i 1 1).postEachSecond (0x0505 * 4096 + i)
          { code := 0x0505, sev := 0, die := a.core / 24, cls := 0, index := a.core, ctx := (s.at_ a).id.ctx,
            detail := pageDetail a.core i p.page ((s.time - r.waitFrom.getD s.time) / 1100) }
        s.putAttn a q (r.takeSil p)
      else
        let s := s.stat i 4 1
        if ctl.maxWaitMs = 0 then s.fetchTimeout a r p else s.putAttn a q { r with late := true })

/-- PAGE_WAIT_LIMIT: a wait reaches max_wait_ms and the command faults (R280). -/
def execPageWaitLimit (a : At) (s : State) : Outcome State Fault Refusal :=
  .next (match s.pageWait a with
    | none => s
    | some (_, r, p) => if r.late then s.fetchTimeout a r p else s)

end Sys2Proof.Machine
end

