-- ==== Sys2Proof/Machine/Links.lean ====
section
/-!
DEFINITION. Levee links: flits, training, cable faults, recalibration, routing and exported windows (R397 to
R414, R423), and the refusals of ports (R534).
-/
namespace Sys2Proof.Machine
open Host

/-! ### Ports and refusals (R531, R534) -/

/-- The number of a port among the refusal counters: PF0 0, VF k, the management port 16, levee link j 32 + j,
JTAG 17. -/
def portNum : Port → Nat
  | .pf0 => 0
  | .vf k => k
  | .mgmt => 16
  | .levee j => 32 + j
  | .jtag => 17

/-- The kind and number of a port in the detail of R536. -/
def portDetail : Port → Nat
  | .pf0 => 0
  | .vf k => 2 ^ 60 + k % 64 * 2 ^ 54
  | .mgmt => 2 * 2 ^ 60
  | .levee j => 3 * 2 ^ 60 + j % 64 * 2 ^ 54
  | .jtag => 4 * 2 ^ 60

/-- A request outside the port-authority table is counted, and reported at most once a second per port; `value` is its
opcode or access class (R534, R536). DESIGN CHOICE (log entry 51). -/
def State.refuse (s : State) (p : Port) (value : Nat) : State :=
  let n := portNum p
  let s := { s with refusals := mapSet 0 s.refusals n (satAdd 32 (mapGet 0 s.refusals n) 1) }
  s.postEachSecond (0x0906 * 4096 + n)
    { code := 0x0906, sev := 1, die := 0x12, cls := 7, detail := portDetail p + value % 2 ^ 32 }

/-- A function answers memory accesses: it exists, it is not in D3hot, and the device is ready (R462, R492,
R494). -/
def State.fnOpen (s : State) (fn : Nat) : Bool :=
  !s.host.retry && !mapGet false s.host.d3hot fn && (fn = 0 || (s.host.vfEnable && decide (fn < 16)))

/-- A function's pages beside the HUB, EVENT and SEC blocks answer: neither the recovery ROM nor a start-up that has
stopped at its memories serves them (R524, R554). -/
def State.serves (s : State) (fn : Nat) : Bool := s.fnOpen fn && !s.boot.recovery && !s.boot.stopped

/-! ### Links (R397, R406 to R412) -/

/-- The die of a link (R397). DEDUCED (log entry 50). -/
def linkDie (j : Nat) : Nat := 0x0C + j / 16

/-- The link exists on the variant and its die is in service (R4, R397, R507). -/
def State.linkFitted (s : State) (j : Nat) : Bool := decide (j < 64) && s.dieUp (linkDie j)

/-- A link event (R423). The field `count` has no stated meaning: it is a free value. DESIGN CHOICE (log entry 46). -/
def State.linkEvent (s : State) (j code sev reason : Nat) : State :=
  let v := s.link j
  (s.post { code := code, sev := sev, die := linkDie j, cls := 3, index := j,
            detail := j % 64 * 2 ^ 58 + v.farPkg % 4096 * 2 ^ 44 + v.width % 4 * 2 ^ 42 + reason % 256 * 2 ^ 24
              + Config.freeNat s.freeCtr % 2 ^ 24 }).tick

/-- Training starts again from step 1 of R406; an up link counts as lost until it is back.
DESIGN CHOICE (log entry 46). -/
def Link.restart (v : Link) : Link :=
  { v with state := 1, width := 0, lanesGood := 0, polInverted := 0, orderReversed := false, crossed := false,
           retrainReq := false, idRefused := false, lost := v.lost || decide (v.state = 4 ∨ v.state = 5) }

/-- A link retrains in service, keeping its replay buffer (R400, R409). -/
def State.retrain (s : State) (j : Nat) : State :=
  let v := s.link j
  if v.state = 4 || v.state = 5 then s.setLink j { v.restart with recalReq := false } else s

/-- Full training from step 1 at the request of the runtime or of the lantern (R407, R411). -/
def State.fullTrain (s : State) (j : Nat) : State :=
  let v := s.link j
  s.setLink j { v.restart with weakLanes := 0, droppedLanes := 0, recalReq := false }

def laneGood : LaneObs → Bool
  | .good => true
  | .inverted => true
  | .open_ => false
  | .shorted => false

def laneFlipped : LaneObs → Bool
  | .inverted => true
  | .good => false
  | .open_ => false
  | .shorted => false

def maskOf (a b c d : Bool) : Nat := bit a 0 + bit b 1 + bit c 2 + bit d 3

/-- Lanes in use for a number of good lanes, as the width code of R410. -/
def widthCode (n : Nat) : Nat := if n ≥ 4 then 3 else if n ≥ 2 then 2 else if n = 1 then 1 else 0

/-- LINK_TRAIN: steps 1 to 4 of R406, with the cable faults of R407. A link with no good lane stays in training until
the attempt times out. DEDUCED (log entry 47). -/
def State.linkTrain (s : State) (j : Nat) (o : LinkObs) : State :=
  let v := s.link j
  let lane (i : Nat) (x : LaneObs) : Bool := laneGood x && !v.droppedLanes.testBit i
  let good := maskOf (lane 0 o.lane0) (lane 1 o.lane1) (lane 2 o.lane2) (lane 3 o.lane3)
  let inv := maskOf (laneFlipped o.lane0 && lane 0 o.lane0) (laneFlipped o.lane1 && lane 1 o.lane1)
    (laneFlipped o.lane2 && lane 2 o.lane2) (laneFlipped o.lane3 && lane 3 o.lane3)
  let n := ([0, 1, 2, 3].filter (fun i => good.testBit i)).length
  let w := min (widthCode n) (widthCode o.farWidth)
  if o.txToTx then (s.setLink j { v with state := 6, crossed := true }).linkEvent j 0x0705 1 1
  else if o.loopback then (s.setLink j { v with state := 6, crossed := true }).linkEvent j 0x0705 1 2
  else if n = 0 then s.setLink j { v with state := 2, lanesGood := 0 }
  else
    let v := { v with lanesGood := good, polInverted := inv, orderReversed := o.reversed, width := w, state := 3 }
    let s := s.setLink j v
    let s := if o.reversed || decide (inv ≠ 0) then s.linkEvent j 0x0704 0 0 else s
    if w < max 1 v.minWidth then (s.setLink j { v with state := 6 }).linkEvent j 0x0703 1 2
    else if w < 3 then s.linkEvent j 0x0703 1 1
    else s

def execLinkTrain (link : Nat) (obs : LinkObs) (s : State) : Outcome State Fault Refusal :=
  .next (
    let v := s.link link
    if s.linkFitted link && !s.lanternDown (24 + link / 16) && v.enable && v.cable && decide (s.hub.phase ≥ 3) && !s.boot.recovery
      && decide (v.state ≤ 2)
    then s.linkTrain link obs else s)

/-- A training attempt that found no lane times out and starts again (R406). -/
def execLinkTrainAttemptTimeout (link : Nat) (s : State) : Outcome State Fault Refusal :=
  .next (if (s.link link).state = 2 then s.setLink link { s.link link with state := 1 } else s)

/-- The check of R408: the far ID is reached over other links. -/
def State.routedElsewhere (s : State) (j far : Nat) : Bool :=
  let r := s.routeTo far
  r.valid && !r.mask.testBit j && !(s.upLinks r.mask).isEmpty

/-- LINK_IDENT_COMPLETE: steps 5 and 6 of R406, with the identity faults of R407 and R408. DEDUCED (log entry 47). -/
def execLinkIdentComplete (link : Nat) (farAssigned : Bool) (farPkg : BitVec 12) (farLink : BitVec 6) (s : State) :
    Outcome State Fault Refusal :=
  .next (
    let v := s.link link
    if decide (v.state ≠ 3) || !s.hub.pkgAssigned then s
    else
      let v := { v with farPkg := farPkg.toNat, farLink := farLink.toNat }
      if !farAssigned then
        if v.idRefused then s
        else (s.setLink link { v with idRefused := true }).linkEvent link 0x0706 1 1
      else if farPkg.toNat = s.hub.pkgId then (s.setLink link { v with state := 6 }).linkEvent link 0x0706 1 2
      else if s.routedElsewhere link farPkg.toNat then
        (s.setLink link { v with state := 6 }).linkEvent link 0x0706 1 3
      else (s.setLink link { v with state := 4, lost := false, idRefused := false }).linkEvent link 0x0701 0 0)

/-- A lane loses lock: the link retrains, and a lane that fails again is dropped (R409). DEDUCED (log entry 47). -/
def execLaneLockLost (link lane : Nat) (s : State) : Outcome State Fault Refusal :=
  .next (
    let v := s.link link
    if decide (lane < 4) && (v.state = 4 || v.state = 5) then
      let v := if v.weakLanes.testBit lane then { v with droppedLanes := v.droppedLanes ||| 2 ^ lane }
        else { v with weakLanes := v.weakLanes ||| 2 ^ lane }
      (s.setLink link v).retrain link
    else s)

/-- Uncorrectable codewords are counted; more than 1 in 10^6 over 1 ms retrains the link (R409, R411). -/
def execFecRateWindow (link codewords uncorrectable : Nat) (s : State) : Outcome State Fault Refusal :=
  .next (
    let v := s.link link
    if v.state = 4 || v.state = 5 then
      let s := s.setLink link { v with uncorrectable := satAdd 16 v.uncorrectable uncorrectable }
      if uncorrectable * 1000000 > codewords then s.retrain link else s
    else s)

/-- A link that was up is not back within 2 ms (R423). -/
def execLinkLossTimeout (link : Nat) (s : State) : Outcome State Fault Refusal :=
  .next (
    let v := s.link link
    if v.lost && decide (v.state ≠ 4) then
      (s.setLink link { v with lost := false, state := if v.state = 6 || v.state = 7 then v.state else 0 }).linkEvent
        link 0x0702 1 0
    else s)

/-- A cable removed takes its link down; a refitted one lets a faulted link train again (R407, R567). -/
def execCablePresenceChange (link : Nat) (present : Bool) (s : State) : Outcome State Fault Refusal :=
  .next (
    let v := s.link link
    if !s.linkFitted link || v.cable = present then s
    else
      let s := s.setLink link { v with cable := present }
      if v.state = 7 then s else s.fullTrain link)

/-- A flit fails its CRC: it is discarded and negatively acknowledged (R400). -/
def execFlitCrcFail (link : Nat) (s : State) : Outcome State Fault Refusal :=
  .next (
    let v := s.link link
    if v.state = 4 || v.state = 5 then s.setLink link { v with naksSent := v.naksSent + 1 } else s)

/-- A negative acknowledgement arrives: the sender resends from the failed sequence on. How many flits that takes is a
free value of 1 to 1,024. After 16 failed resends of one flit in a row the link retrains (R400, R409, R411).
DESIGN CHOICE (log entry 48). -/
def execFlitNakReceived (link : Nat) (seq : BitVec 12) (s : State) : Outcome State Fault Refusal :=
  .next (
    let v := s.link link
    if v.state = 4 || v.state = 5 then
      let n := if v.nakCount ≠ 0 && v.nakSeq = seq.toNat then v.nakCount + 1 else 1
      let sent := 1 + Config.freeNat s.freeCtr % 1024
      let v := { v with replays := satAdd 16 v.replays sent, nakSeq := seq.toNat, nakCount := n }
      if n > 16 then ((s.setLink link { v with nakCount := 0 }).retrain link).tick
      else (s.setLink link v).tick
    else s)

/-! ### Link control (R411, R412) -/

/-- Another link of the die is being recalibrated (R412). -/
def State.dieRecal (s : State) (j : Nat) : Bool :=
  (List.range 16).any (fun i => decide ((s.link (j / 16 * 16 + i)).state = 5))

/-- Every valid route entry naming the link names another up link (R412). -/
def State.alternates (s : State) (j : Nat) : Bool :=
  s.levee.routes.all (fun e => !(e.2.valid && e.2.mask.testBit j) || (s.upLinks e.2.mask).any (fun i => decide (i ≠ j)))

/-- Steps 1 and 2 of R412 for a requested recalibration: refused, begun, or still waiting for another link of the
die. -/
def State.recalStart (s : State) (j : Nat) : State :=
  let v := s.link j
  if !v.recalReq then s
  else if v.state ≠ 4 then (s.setLink j { v with recalReq := false }).linkEvent j 0x0707 0 1
  else if s.dieRecal j then s
  else if !v.recalForce && !s.alternates j then (s.setLink j { v with recalReq := false }).linkEvent j 0x0707 0 1
  else s.setLink j { v with state := 5 }

def State.recalRequest (s : State) (j : Nat) : State :=
  let v := s.link j
  if !s.linkFitted j || v.state = 5 then s else (s.setLink j { v with recalReq := true }).recalStart j

def execLinkRecalReq (link : Nat) (s : State) : Outcome State Fault Refusal :=
  .next (if s.serves 0 then s.recalRequest link else s)

/-- Steps 3 and 4 of R412; then the next request that waits on the die begins. -/
def execLinkRecalDrained (link : Nat) (s : State) : Outcome State Fault Refusal :=
  .next (
    let v := s.link link
    if v.state ≠ 5 then s
    else
      let s := (s.setLink link { v with state := 4, recalReq := false }).linkEvent link 0x0707 0 0
      (List.range 16).foldl (fun s i => s.recalStart (link / 16 * 16 + i)) s)

/-- A request for full training: it starts at once unless the link is disabled (R411). -/
def State.retrainRequest (s : State) (j : Nat) : State :=
  let v := s.link j
  if !s.linkFitted j then s
  else if v.enable then s.fullTrain j
  else s.setLink j { v with retrainReq := true }

def execLinkRetrainReq (link : Nat) (s : State) : Outcome State Fault Refusal :=
  .next (if s.serves 0 then s.retrainRequest link else s)

/-- A write of LNK_CTRL (R411): the fields are written, a cleared enable holds the link disabled, a set one lets
it train, and the request bits act as requests. -/
def State.linkCtrl (s : State) (j : Nat) (w : Nat) : State :=
  let v := s.link j
  if !s.linkFitted j then s
  else
    let v := { v with enable := w.testBit 31, minWidth := fieldOf w 27 2, recalForce := w.testBit 26 }
    let v := if !v.enable then
        { v with state := 7, width := 0, recalReq := false, lost := v.lost || decide (v.state = 4 ∨ v.state = 5) }
      else if v.state = 7 then { v.restart with state := 0 } else v
    let s := s.setLink j v
    let s := if w.testBit 29 then s.retrainRequest j else s
    if w.testBit 30 then s.recalRequest j else s

def execLinkEnableWrite (link : Nat) (v : Lane) (s : State) : Outcome State Fault Refusal :=
  .next (if s.serves 0 then s.linkCtrl link v.toNat else s)

/-- LNK_STATE, LNK_CTRL, LNK_PEER and LNK_ERR as read (R410, R411). -/
def Link.stateWord (v : Link) : Nat :=
  v.state % 16 * 2 ^ 28 + v.width % 4 * 2 ^ 26 + v.lanesGood % 16 * 2 ^ 22 + v.polInverted % 16 * 2 ^ 18
    + bit v.orderReversed 17 + bit v.crossed 16
def Link.ctrlWord (v : Link) : Nat :=
  bit v.enable 31 + bit v.recalReq 30 + bit v.retrainReq 29 + v.minWidth % 4 * 2 ^ 27 + bit v.recalForce 26
def Link.peerWord (v : Link) : Nat := v.farLink % 64 * 2 ^ 24 + v.farPkg % 4096
def Link.errWord (v : Link) : Nat := v.replays % 65536 * 65536 + v.uncorrectable % 65536

/-! ### Package ID and routing (R402 to R404) -/

/-- HUB_PKG_ID is written (R402): `assigned` only while every link is down or in ident_wait, the ID only while
`assigned` is 0. -/
def State.writePkgId (s : State) (w : Nat) : State :=
  let idle := (List.range 64).all (fun j => let t := (s.link j).state; t = 0 || t = 3)
  let h := s.hub
  { s with hub := { h with
      pkgId := if h.pkgAssigned then h.pkgId else fieldOf w 0 12
      pkgAssigned := if idle then w.testBit 31 else h.pkgAssigned } }

def execHubPkgIdWrite (v : Lane) (s : State) : Outcome State Fault Refusal :=
  .next (if s.fnOpen 0 then s.writePkgId v.toNat else s)

/-- The hop limit of an entry (R403). -/
def Route.limit (r : Route) : Nat := if r.hopLimit = 0 then 8 else r.hopLimit

/-- PACKET_FORWARD: a packet for another package is passed on, or discarded (R404). -/
def execPacketForward (src dst : BitVec 12) (ctx : BitVec 12) (hops : Nat) (s : State) : Outcome State Fault Refusal :=
  .next (
    let d := dst.toNat
    let v := s.levee
    if !s.hub.pkgAssigned || d = s.hub.pkgId then s
    else if s.reaches d ctx.toNat && hops + 1 ≤ (s.routeTo d).limit then
      let l := s.flowLink src.toNat d ctx.toNat
      { s with levee := { v with forwarded := mapSet 0 v.forwarded l (mapGet 0 v.forwarded l + 1) } }
    else { s with levee := { v with discarded := v.discarded + 1 } })

/-- A request of a context to another package gets no answer within 100 ms (R404). DEDUCED (log entry 49). -/
def execRemoteRequestTimeout (req : Nat) (s : State) : Outcome State Fault Refusal :=
  .next (
    let r : RemoteReq := mapGet {} s.levee.requests req
    if !r.live then s
    else
      let s := { s with levee := { s.levee with requests := mapSet {} s.levee.requests req {} } }
      (s.post { code := 0x070B, sev := 2, die := r.die, cls := r.cls, index := r.index, ctx := req,
                detail := req % 4096 * 2 ^ 52 + r.dest % 2 ^ 32 }).faultJob req 0x070B)

/-! ### Exported windows (R413, R414) -/

/-- First address and length of the local range that a window exports. -/
def ExportWin.range (w : ExportWin) (i : Nat) : Nat × Nat :=
  if w.kind = 0 then (w.base, w.count * extentBytes) else (0xF01280000000 + i * 0x100000, w.count * 8)

/-- The window permits an access of `len` bytes at `addr` by a source package (R414). -/
def ExportWin.permits (w : ExportWin) (i src addr len accessBit : Nat) : Bool :=
  let (b, n) := w.range i
  w.valid && decide (b ≤ addr) && decide (addr + len ≤ b + n) && w.access.testBit accessBit
    && (w.anyPackage || w.source = src) && (w.kind = 0 || (accessBit = 2 && addr % 8 = 0))

/-- The window that carries out an access. -/
def State.windowFor (s : State) (src addr len accessBit : Nat) : Option ExportWin :=
  (s.levee.windows.find? (fun e => e.2.permits e.1 src addr len accessBit)).map (·.2)

/-- SEM.POST of a count on a semaphore by another package (R414, R131). -/
def State.remotePost (s : State) (ctx i count : Nat) : State :=
  let m := s.sem ctx i
  if m.poison then s
  else if m.value + count ≤ 0xFFFFFFFF then s.semValue ctx i (m.value + count)
  else if s.compat ctx then s.semValue ctx i 0xFFFFFFFF
  else (s.post { code := 0x010A, sev := 2, die := 0x12, cls := 7, ctx := ctx, detail := i % 65536 * 2 ^ 32 }).faultJob
    ctx 0x010A

/-- An access that passed its window meets memory as the window's polder (R413, R414): it waits, fails, or acts. -/
def State.windowAccess (s : State) (link : Nat) (w : ExportWin) (write : Bool) (addr len : Nat)
    (act : State → State) : State :=
  let who : Who := { ctx := 0, polder := w.polder, die := linkDie link, cls := 3, index := link }
  let uses := s.usesOf who write addr len
  match s.checkRange who write addr len with
  | some f =>
    let (code, detail) := f.event 0
    s.post { code := code, sev := 2, die := who.die, cls := 3, index := link, detail := detail }
  | none =>
    if !write && s.heldOver addr len then s
    else match (uses.filter (fun u => !(s.dike w.polder u.1).open_)).head? with
      | some u => s.setDike w.polder u.1 { s.dike w.polder u.1 with holding := true }
      | none => act (s.charge w.polder uses)

/-- DEDUCED (log entry 49). -/
def State.setAnswer (s : State) (bs : List Byte) : State := { s with levee := { s.levee with answer := some bs } }

/-- A remote access that no window permits is counted as a refusal of its link (R414). DESIGN CHOICE (log entry 51). -/
def State.notExported (s : State) (link : Nat) : State :=
  let s := { s with levee := { s.levee with answer := none } }
  (s.refuse (.levee link) (Config.freeNat s.freeCtr)).tick

/-- REMOTE_ACCESS_IN (R414). -/
def execRemoteAccessIn (link : Nat) (src : BitVec 12) (acc : RemoteAccess) (s : State) : Outcome State Fault Refusal :=
  .next (
    if (s.link link).state ≠ 4 then s
    else match acc with
      | .read addr len =>
        let a := addr.toNat % 2 ^ 52
        match s.windowFor src.toNat a len 0 with
        | none => s.notExported link
        | some w => s.windowAccess link w false a len (fun s => s.setAnswer (s.memBytes a len))
      | .write addr data =>
        let a := addr.toNat % 2 ^ 52
        match s.windowFor src.toNat a data.length 1 with
        | none => s.notExported link
        | some w => s.windowAccess link w true a data.length (fun s => (s.write 0 a data).setAnswer [])
      | .amoAdd addr operand =>
        let a := addr.toNat % 2 ^ 52
        match s.windowFor src.toNat a 8 2 with
        | none => s.notExported link
        | some w =>
          if w.kind = 0 then
            if a % 8 ≠ 0 then s.notExported link
            else s.windowAccess link w true a 8 (fun s =>
              let old := s.memBytes a 8
              (s.write 0 a (toBytes 8 (ofBytes old + operand.toNat))).setAnswer old)
          else
            let i := w.base % 65536 + (a - 0xF01280000000) % 0x100000 / 8
            let old := (s.sem w.ctx (i % 65536)).value
            (s.remotePost w.ctx (i % 65536) (operand.toNat % 2 ^ 32)).setAnswer (toBytes 8 old))

end Sys2Proof.Machine
end

