-- ==== Sys2Proof/Machine/Coll.lean ====
section
/-!
DEFINITION. Collectives (R415 to R421): the five commands, the ring reduction with its wire formats, and the
completion, time-out and abort of a collective.
-/
namespace Sys2Proof.Machine
open Host

def State.group (s : State) (g : Nat) : CollGroup := mapGet {} s.levee.groups g
def State.setGroup (s : State) (g : Nat) (v : CollGroup) : State :=
  { s with levee := { s.levee with groups := mapSet {} s.levee.groups g v } }

/-! ### The command block (R417) -/

def cbGroup (b : List Byte) : Nat := recField b 0 2 % 1024
def cbFmt (b : List Byte) : Nat := recField b 2 1 % 16
def cbWire (b : List Byte) : Nat := recField b 2 1 / 16
def cbRed (b : List Byte) : Nat := recField b 3 1 % 4
def cbAverage (b : List Byte) : Bool := (recField b 3 1).testBit 2
def cbRoot (b : List Byte) : Nat := recField b 4 2
def cbSrc (b : List Byte) : Nat := recField b 8 8
def cbDst (b : List Byte) : Nat := recField b 16 8
def cbRows (b : List Byte) : Nat := recField b 24 4
def cbRowBytes (b : List Byte) : Nat := recField b 28 4
def cbSrcPitch (b : List Byte) : Nat := recField b 32 4
def cbDstPitch (b : List Byte) : Nat := recField b 36 4
def cbSrcStep (b : List Byte) : Nat := recField b 40 8
def cbDstStep (b : List Byte) : Nat := recField b 48 8
def cbTimeout (b : List Byte) : Nat := let t := recField b 56 4; if t = 0 then 10000 else t

/-- All-reduce and reduce-scatter are the reductions (R416). -/
def isReduction (minor : Nat) : Bool := decide (minor < 2)

/-- An address of the engines' own package (R417, R419). DEDUCED (log entry 52). -/
def State.collLocal (s : State) (g : Nat) : Bool := s.remoteOf g = none

/-- A field of the block breaks its range, for a group of `n` members (R417). DEDUCED (log entry 52). -/
def State.blockBad (s : State) (minor n : Nat) (b : List Byte) : Bool :=
  let red := isReduction minor
  (red && !(cbFmt b ≤ 1)) || (red && !([0, 1, 5, 9].contains (cbWire b))) || (!red && decide (cbWire b ≠ 0))
    || (red && decide (cbRed b = 3)) || (red && cbAverage b && decide (cbRed b ≠ 0))
    || (minor = 4 && decide (cbRoot b ≥ n))
    || decide (cbSrc b % 16 ≠ 0) || decide (cbDst b % 16 ≠ 0) || decide (cbRows b = 0)
    || decide (cbRowBytes b % 16 ≠ 0) || decide (cbSrcPitch b % 16 ≠ 0) || decide (cbDstPitch b % 16 ≠ 0)
    || decide (cbSrcPitch b < cbRowBytes b) || decide (cbDstPitch b < cbRowBytes b)
    || !s.collLocal (cbSrc b) || !s.collLocal (cbDst b)

/-! ### Issue (R416) -/

def collUse : Use := { dst := .none_, src1 := .s, src2 := .none_, src3 := .none_, imm := [(16, 15)] }

/-- The stops of a collective at issue: its word, the block's address and reading, and the block's checks.
DEDUCED (log entry 52). -/
def State.collStop (s : State) (a : At) (f : Fields) (minor : Nat) : Option Stop :=
  let sl := s.at_ a
  let g := (sl.rs f.src1).toNat
  let b := s.devRead g 64
  let gr := s.group (cbGroup b)
  firstStop [
    badField sl.id.profile collUse f,
    stopIf (g % 64 ≠ 0) (.coll 0x0708 0 0),
    mustWait sl (some .dma) [],
    s.devStop (s.whoAt a) false g 64,
    stopIf (!gr.live || gr.ctx ≠ sl.id.ctx || s.blockBad minor gr.members.length b) (.coll 0x0708 (cbGroup b) gr.issued)]

/-- A collective joins those of its group (R416, R418). -/
def State.collIssue (s : State) (a : At) (f : Fields) (minor : Nat) : State :=
  s.run a 0x3D 8 (fun s => s.collStop a f minor) (fun s =>
    let sl := s.at_ a
    let g := (sl.rs f.src1).toNat
    let b := s.devRead g 64
    let gr := s.group (cbGroup b)
    let r : CollRun := { minor := minor, core := a.core, slot := a.slot, stage := sl.stage, task := sl.task,
                         group := cbGroup b, ctx := sl.id.ctx, polder := sl.id.polder, seq := gr.issued, block := b,
                         post := postOf f }
    let s := ((s.devSpend (s.whoAt a) false g 64).passFree g 64).setGroup r.group { gr with issued := gr.issued + 1 }
    { s with levee := { s.levee with colls := s.levee.colls ++ [r] } })

def execCollAllreduce (a : At) (f : Fields) (s : State) : Outcome State Fault Refusal := .next (s.collIssue a f 0)
def execCollRedscat (a : At) (f : Fields) (s : State) : Outcome State Fault Refusal := .next (s.collIssue a f 1)
def execCollAllgather (a : At) (f : Fields) (s : State) : Outcome State Fault Refusal := .next (s.collIssue a f 2)
def execCollAlltoall (a : At) (f : Fields) (s : State) : Outcome State Fault Refusal := .next (s.collIssue a f 3)
def execCollBcast (a : At) (f : Fields) (s : State) : Outcome State Fault Refusal := .next (s.collIssue a f 4)

/-! ### The ring (R101, R102, R419) -/

/-- A block group as the wire carries it: its decoded values, its bytes, and whether it went as BF16 in place of
its narrow format (R102). -/
structure WireGroup where
  vals : List Fv
  size : Nat
  escaped : Bool
  deriving DecidableEq, Repr

/-- A group encoded for the wire and decoded again (R101, R102). DEDUCED (log entry 53). -/
def wireGroup (w : Nat) (vs : List Fv) : WireGroup :=
  let q := quantRow w none vs
  let narrow := isBlockFmt w
  let c := if narrow && decide (q.sat ≠ 0) then 1 else w
  let q := if c = w then q else quantRow c none vs
  let rd (i : Nat) : Nat := (q.bytes.getD i 0).toNat
  { vals := (decodeRow c rd vs.length).map (·.val)
    size := if c = w then q.bytes.length else 2 * groupElems w
    escaped := decide (c ≠ w) }

/-- Two values reduced: the sum rounded once, or the larger or the smaller, a NaN giving NaN (R419, R89).
DEDUCED (log entry 53). -/
def reduce2 (red : Nat) (x y : Fv) : Fv :=
  if red = 0 then (x.add y).r32
  else if x.isNan || y.isNan then .nan
  else if red = 1 then Fv.maxv x y
  else if x.lt y then x else y

/-- What a member sent of one group of a reduction: bytes, and whether it went as BF16. DEDUCED (log entry 53). -/
structure SentGroup where
  bytes : Nat := 0
  escapes : Nat := 0
  deriving DecidableEq, Repr

/-- The reducing hops over the members' values, in ring order from the first sender: the partial that reaches
each next member, and what member `me` sent. The first list is the partial so far, and `who` its holder. -/
def ringHops (w red n me : Nat) (next : Nat → Nat) (vals : Nat → List Fv) :
    Nat → Nat → List Fv → SentGroup → List Fv × SentGroup
  | 0, _, part, sent => (part, sent)
  | k + 1, who, part, sent =>
    let g := wireGroup w part
    let sent := if who = me then { bytes := sent.bytes + g.size, escapes := sent.escapes + (if g.escaped then 1 else 0) }
      else sent
    let to_ := next who
    ringHops w red n me next vals k to_ (g.vals.zip (vals to_) |>.map (fun p => reduce2 red p.1 p.2)) sent

/-- One group reduced over a ring of `n` members with the given owner (R419): the owner's result, averaged where
asked, and what this member sent. Odd channels run against the ring order. DESIGN CHOICE (log entry 13). -/
def ringGroup (w red n me owner : Nat) (against avg : Bool) (vals : Nat → List Fv) : List Fv × SentGroup :=
  let next (x : Nat) : Nat := if against then (x + n - 1) % n else (x + 1) % n
  let first := next owner
  let (sum, sent) := ringHops w red n me next vals (n - 1) first (vals first) {}
  let inv := Fv.ofLane (BitVec.ofNat 32 (Fv.div32 (Fv.ofInt 1) (Fv.ofInt n)))
  (if avg then sum.map (fun x => (x.mul inv).r32) else sum, sent)

/-- Elements of one group of a wire format, at least 1. -/
def wireElems (w : Nat) : Nat := max 1 (groupElems w)

/-- A row of data cut into the wire's groups; a format without blocks takes a row of 16 elements at a time. -/
def wireStep (w : Nat) : Nat := if isBlockFmt w then wireElems w else 16

/-- Elements of data as FP32 values. -/
def dataVals (fmt : Nat) (bs : List Byte) : List Fv :=
  let rd (i : Nat) : Nat := (bs.getD i 0).toNat
  (decodeRow fmt rd (bs.length / (elemBits fmt / 8))).map (·.val)

/-- Results rounded to the data format. -/
def dataBytes (fmt : Nat) (vs : List Fv) : List Byte := (quantRow fmt none vs).bytes

/-- What a collective leaves at this member: the blocks written, as (block, bytes), the block groups it sent as
BF16, and the bytes it sent by channel. -/
structure CollOut where
  blocks : List (Nat × List Byte) := []
  escapes : Nat := 0
  sent : List (Nat × Nat) := []
  deriving DecidableEq, Repr

/-- Groups of one row range reduced: each of the given groups with its number, its channel and its owner. The
result holds the bytes in order. `scatter` sends no result around. -/
def reduceRow (w fmt red n me channels total first : Nat) (avg scatter : Bool) (fixedOwner : Option Nat)
    (rows : List (List Fv)) : List Byte × CollOut :=
  let width := (rows.getD 0 []).length
  let step := wireStep w
  let res := (List.range (ceilDiv width step)).map (fun g =>
    let cut := Config.ringCut n channels total (first + g)
    let ch := cut % max 1 channels
    let owner := match fixedOwner with | some o => o | none => cut / max 1 channels % max 1 n
    let against := ch % 2 = 1
    let vals (i : Nat) : List Fv := ((rows.getD i []).drop (g * step)).take step
    let (sum, sent) := ringGroup w red n me owner against avg vals
    if scatter then (sum, ch, sent)
    else
      let e := wireGroup w sum
      let lastOf := if against then (owner + 1) % n else (owner + n - 1) % n
      let sent := if me = lastOf then sent
        else { bytes := sent.bytes + e.size, escapes := sent.escapes + (if me = owner && e.escaped then 1 else 0) }
      (e.vals, ch, sent))
  (res.flatMap (fun r => dataBytes fmt r.1),
   { escapes := (res.map (·.2.2.escapes)).sum
     sent := res.foldl (fun l r => addUse l r.2.1 r.2.2.bytes) [] })

/-- The whole of a reduction at this member (R419). `data i` is member i's packed source. -/
def reduceAll (r : CollRun) (n me channels : Nat) (data : Nat → List Byte) : CollOut :=
  let b := r.block
  let fmt := cbFmt b
  let w := cbWire b
  let rb := cbRowBytes b
  let scatter := decide (r.minor = 1)
  let blocks := if scatter then n else 1
  let perRow := ceilDiv (rb / (elemBits fmt / 8)) (wireStep w)
  let total := blocks * cbRows b * perRow
  (List.range blocks).foldl (fun o k =>
    let rowsOut := (List.range (cbRows b)).map (fun y =>
      let at_ := (k * cbRows b + y) * rb
      reduceRow w fmt (cbRed b) n me channels total ((k * cbRows b + y) * perRow) (cbAverage b) scatter
        (if scatter then some k else none)
        ((List.range n).map (fun i => dataVals fmt (((data i).drop at_).take rb))))
    let bytes := rowsOut.flatMap (·.1)
    { blocks := if !scatter || k = me then o.blocks ++ [(0, bytes)] else o.blocks
      escapes := o.escapes + (rowsOut.map (·.2.escapes)).sum
      sent := (rowsOut.flatMap (·.2.sent)).foldl (fun l e => addUse l e.1 e.2) o.sent }) {}

/-- Bytes sent, spread over the channels. -/
def overChannels (channels bytes : Nat) : List (Nat × Nat) :=
  (List.range channels).map (fun c => (c, ceilDiv bytes (max 1 channels)))

/-- What a collective that moves bytes leaves at this member (R416): by operation 2 all-gather, 3 all-to-all, 4
broadcast. All-to-all is sent member by member: its bytes are in `toPeer` of `collSends`. -/
def moveAll (r : CollRun) (n me channels : Nat) (data : Nat → List Byte) : CollOut :=
  let b := r.block
  let blk := cbRows b * cbRowBytes b
  if r.minor = 2 then
    { blocks := (List.range n).map (fun i => (i, data i)), sent := overChannels channels ((n - 1) * blk) }
  else if r.minor = 3 then
    { blocks := (List.range n).map (fun i => (i, ((data i).drop (me * blk)).take blk)) }
  else
    let root := cbRoot b
    { blocks := [(0, data root)]
      sent := (overChannels channels blk).filter (fun e =>
        decide (me ≠ (if e.1 % 2 = 1 then (root + 1) % n else (root + n - 1) % n))) }

/-! ### Completion (R416 to R421) -/

/-- Blocks of a member's source (R416). -/
def srcBlocks (minor n : Nat) : Nat := if minor = 1 || minor = 3 then n else 1

/-- Rows of a buffer of `blocks` blocks, as addresses. -/
def rowAddrs (base step pitch rows blocks : Nat) : List Nat :=
  (List.range blocks).flatMap (fun k => (List.range rows).map (fun y => (base + k * step + y * pitch) % 2 ^ 52))

def CollRun.srcRows (r : CollRun) (n : Nat) : List Nat :=
  rowAddrs (cbSrc r.block) (cbSrcStep r.block) (cbSrcPitch r.block) (cbRows r.block) (srcBlocks r.minor n)

/-- Rows written for the blocks of a result. -/
def CollRun.dstRows (r : CollRun) (k : Nat) : List Nat :=
  rowAddrs (cbDst r.block + k * cbDstStep r.block) 0 (cbDstPitch r.block) (cbRows r.block) 1

/-- The engines' die: the link die of the first channel's link (R419, R421). -/
def State.collWho (s : State) (r : CollRun) (gr : CollGroup) : Who :=
  let next := gr.members.getD ((gr.rank + 1) % max 1 gr.members.length) 0
  { ctx := r.ctx, polder := r.polder, die := linkDie (s.flowLink s.hub.pkgId next r.ctx), cls := 3,
    index := s.flowLink s.hub.pkgId next r.ctx, profile := (s.job r.ctx).profile }

/-- Bytes this member sends, by levee dike (R387, R421). -/
def State.collSends (s : State) (r : CollRun) (gr : CollGroup) (o : CollOut) : List (Nat × Nat) :=
  let n := max 1 gr.members.length
  let dikeTo (p : Nat) : Nat := 0x30 + s.flowLink s.hub.pkgId p r.ctx / 16
  let ring := o.sent.foldl (fun l e =>
    let to_ := gr.members.getD (if e.1 % 2 = 1 then (gr.rank + n - 1) % n else (gr.rank + 1) % n) 0
    addUse l (dikeTo to_) e.2) []
  if r.minor = 3 then
    (List.range n).foldl (fun l i =>
      if i = gr.rank then l else addUse l (dikeTo (gr.members.getD i 0)) (cbRows r.block * cbRowBytes r.block)) ring
  else ring

def State.dropColl (s : State) (r : CollRun) : State :=
  { s with levee := { s.levee with colls := s.levee.colls.filter (fun x => decide (x ≠ r)) } }

/-- The oldest collective of a context on a group. -/
def State.oldestColl (s : State) (ctx g : Nat) : Option CollRun :=
  s.levee.colls.find? (fun r => decide (r.ctx = ctx) && decide (r.group = g))

/-- A collective fails at this member: the event, and a job fault (R418, R423). -/
def State.collFail (s : State) (r : CollRun) (code : Nat) : State :=
  let gr := s.group r.group
  let w := s.collWho r gr
  (((s.dropColl r).post { code := code, sev := 2, die := w.die, cls := 3, index := w.index, ctx := r.ctx,
                          detail := collDetail r.ctx r.group r.seq }).faultJob r.ctx code)

/-- Escaped groups are counted in the slot that issued, or in its job once the slot is gone (R97, R102).
DEDUCED (log entry 53). -/
def State.countEscapes (s : State) (r : CollRun) (n : Nat) : State :=
  let sl := s.slot r.core r.slot
  if sl.id.resident && sl.id.ctx = r.ctx && sl.stage = r.stage && sl.task = r.task then
    s.count { core := r.core, slot := r.slot } { wireEscapes := n }
  else
    let j := s.job r.ctx
    s.setJob r.ctx { j with stats := j.stats.add { wireEscapes := n } }

/-- The completion of a collective whose members have all joined alike (R416, R419, R421). -/
def State.collFinish (s : State) (r : CollRun) (gr : CollGroup) (data : Nat → List Byte) : State :=
  let n := gr.members.length
  let o := if isReduction r.minor then reduceAll r n gr.rank gr.channels data else moveAll r n gr.rank gr.channels data
  let who := s.collWho r gr
  let rb := cbRowBytes r.block
  let writes := o.blocks.flatMap (fun e => (r.dstRows e.1).zip (chunksOf rb (cbRows r.block) e.2))
  let bad := firstStop (writes.map (fun w => (s.checkRange who true w.1 rb).map .access))
  let uses := s.collSends r gr o
  let uses := (r.srcRows n).foldl (fun l x => (s.usesOf who false x rb).foldl (fun l u => addUse l u.1 u.2) l) uses
  let uses := writes.foldl (fun l w => (s.usesOf who true w.1 rb).foldl (fun l u => addUse l u.1 u.2) l) uses
  match bad with
  | some (.access f) =>
    let (code, detail) := f.event r.ctx
    ((s.dropColl r).post { code := code, sev := 2, die := who.die, cls := 3, index := who.index, ctx := r.ctx,
                           detail := detail }).faultJob r.ctx code
  | _ =>
    match s.shut who uses with
    | some i => s.setDike r.polder i { s.dike r.polder i with holding := true }
    | none =>
      let s := writes.foldl (fun s w => s.write r.ctx w.1 w.2) (s.spend who uses)
      let s := (s.countEscapes r o.escapes).dropColl r
      match r.post with
      | some i => s.semPost1 r.ctx i none
      | none => s

/-- What a member joined with agrees with this member (R418). -/
def PeerJoin.agrees (p : PeerJoin) (r : CollRun) : Bool :=
  let b := r.block
  p.minor = r.minor && p.dataFmt = cbFmt b && p.wireFmt = cbWire b && p.red = recField b 3 1 % 8
    && p.rows = cbRows b && p.rowBytes = cbRowBytes b

/-- The engines of a link die run collectives: the die is in service, its lantern runs, and one of its four engines takes
work (R440, R448). -/
def State.collGoes (s : State) (d : Nat) : Bool :=
  s.dieUp d && !s.lanternDown (24 + (d - 0x0C)) && (List.range 4).any (fun e => s.unitOk (96 + 4 * (d - 0x0C) + e))

/-- COLL_COMPLETE: every other member has joined, in rank order. This member's source is read; where the members
agree the engines run the collective, otherwise each fails with COLL_MISMATCH (R418). -/
def execCollComplete (ctx group : Nat) (peers : List PeerJoin) (s : State) : Outcome State Fault Refusal :=
  .next (match s.oldestColl ctx group with
    | none => s
    | some r =>
      let gr := s.group group
      let n := gr.members.length
      let rb := cbRowBytes r.block
      if peers.length + 1 ≠ n || !s.collGoes (s.collWho r gr).die then s
      else if peers.any (fun p => !PeerJoin.agrees p r) then s.collFail r 0x0709
      else
        let who := s.collWho r gr
        let rows := r.srcRows n
        match firstStop (rows.map (fun x => (s.checkRange who false x rb).map .access)) with
        | some (.access f) =>
          let (code, detail) := f.event ctx
          ((s.dropColl r).post { code := code, sev := 2, die := who.die, cls := 3, index := who.index, ctx := ctx,
                                 detail := detail }).faultJob ctx code
        | _ =>
          if rows.any (fun x => s.heldOver x rb) then s
          else
            let own := rows.flatMap (fun x => s.memBytes x rb)
            let data (i : Nat) : List Byte :=
              if i = gr.rank then own
              else padTo 0 own.length (match peers[if i < gr.rank then i else i - 1]? with | some p => p.data | none => [])
            s.collFinish r gr data)

/-- COLL_JOIN_TIMEOUT: a member has not joined within timeout_ms of the first member's issue (R418). -/
def execCollJoinTimeout (ctx group : Nat) (s : State) : Outcome State Fault Refusal :=
  .next (match s.oldestColl ctx group with | some r => s.collFail r 0x070A | none => s)

/-- COLL_ABORT_IN: another member's job was torn down or cancelled (R418). -/
def execCollAbortIn (ctx group : Nat) (s : State) : Outcome State Fault Refusal :=
  .next (match s.oldestColl ctx group with | some r => s.collFail r 0x070C | none => s)

end Sys2Proof.Machine
end

