-- ==== Sys2Proof/Machine/Control.lean ====
section
/-!
DEFINITION. The control of a core's context slots (R40 to R44, R60, R66, R140): the registers by which a lantern
places and frees a context, the filling of the instruction cache, and completion posts (R131).
-/
namespace Sys2Proof.Machine
open Host

/-! ### Instruction cache (R60) -/

/-- A line enters a core's cache of 1,024 lines; a full cache gives up one, which one is free.
DESIGN CHOICE (log entry 84). -/
def State.fillLineOf (s : State) (c : Nat) (line : Nat × Nat) : State :=
  let k := s.core c
  if k.icache.length ≥ 1024 then
    (s.setCore c { k with icache := k.icache.eraseIdx (Config.freeNat s.freeCtr % 1024) ++ [line] }).tick
  else s.setCore c { k with icache := k.icache ++ [line] }

/-- ICACHE_FILL: a missing line of a slot that waits for it arrives from the code object's home, and the context can
issue. DESIGN CHOICE (log entry 84). -/
def execIcacheFill (a : At) (s : State) : Outcome State Fault Refusal :=
  .next (
    let sl := s.at_ a
    if sl.held ≠ some .icacheMiss || !sl.id.resident || sl.code = 0 then s
    else
      let has (n : Nat) : Bool := (s.core a.core).icache.contains (sl.code, n)
      let n := if has (sl.pc / 256) then (sl.pc + 8) / 256 else sl.pc / 256
      let g := (s.code sl.code).addr + 256 + n * 256
      match s.devStop (s.whoAt a) false g 256 with
      | some (.access (.later _)) => s
      | some (.wait _) => s
      | some (.dike p i) => s.setDike p i { s.dike p i with holding := true }
      | some x => s.stopAt a 0 x
      | none =>
        let s := (s.devSpend (s.whoAt a) false g 256).fillLineOf a.core (sl.code, n)
        s.setAt a { s.at_ a with held := none })

/-! ### Completion posts (R131) -/

/-- COMPLETION_POST: the oldest due post of a slot, once the writes before it are visible (R124, R131). -/
def execCompletionPost (a : At) (s : State) : Outcome State Fault Refusal :=
  .next (
    let sl := s.at_ a
    match sl.posts with
    | [] => s
    | i :: rest =>
      if s.writesHeld sl.id.ctx then s
      else (s.setAt a { sl with posts := rest }).semPost1 sl.id.ctx i (some a))

/-! ### CORE_CTX_ID and CORE_CTX_ALLOT (R40 to R44, R48) -/

/-- CORE_CTX_ID_WRITE: a lantern places or frees a context (R40 to R42). -/
def execCoreCtxIdWrite (core slot : Nat) (v : Lane) (start : TaskStart) (s : State) : Outcome State Fault Refusal :=
  .next (if core ≥ 192 || slot ≥ 4 then s else s.writeCtxId core slot v.toNat start)

/-- CORE_CTX_ALLOT_WRITE (R43, R44). -/
def execCoreCtxAllotWrite (core slot : Nat) (v : Lane) (s : State) : Outcome State Fault Refusal :=
  .next (if core ≥ 192 || slot ≥ 4 then s else s.writeAllot core slot v.toNat)

end Sys2Proof.Machine
end

