-- ==== Sys2Proof/Machine/Queues.lean ====
section
/-!
DEFINITION. The queues of the host interface (R480 to R491): enabling and stopping, doorbells, the taking of SQ
entries, completions, and interrupts (R490, R502).
-/
namespace Sys2Proof.Machine
open Host

def State.setHost (s : State) (h : HostIf) : State := { s with host := h }
def State.queue (s : State) (q : Nat) : Queue := mapGet {} s.host.queues q
def State.setQueue (s : State) (q : Nat) (v : Queue) : State :=
  s.setHost { s.host with queues := mapSet {} s.host.queues q v }

/-- The polder of a VF (R385). -/
def State.vfPolder (s : State) (k : Nat) : Nat :=
  if k < 8 then fieldOf s.hub.vfPolder0 (4 * k) 4 else fieldOf s.hub.vfPolder1 (4 * (k - 8)) 4

/-- A function may act in a polder (R385). -/
def State.fnMayUse (s : State) (fn polder : Nat) : Bool := fn = 0 || s.vfPolder fn = polder

/-! ### Host memory (R478) -/

/-- The hub as an agent of context 0. -/
def hubWho : Who := { ctx := 0, polder := 0, die := 0x12, cls := 7, index := 0 }

/-! ### Interrupts (R490, R502) -/

def State.msix (s : State) (fn v : Nat) : MsixVec := mapGet {} s.host.msix (fn * 2048 + v)
def State.setMsix (s : State) (fn v : Nat) (x : MsixVec) : State :=
  s.setHost { s.host with msix := mapSet {} s.host.msix (fn * 2048 + v) x }

/-- A vector is raised: sent, or left pending while it is masked or its function is in D3hot (R462, R490). -/
def State.raise (s : State) (fn v : Nat) : State :=
  let x := s.msix fn v
  if x.masked || mapGet false s.host.d3hot fn then s.setMsix fn v { x with pending := true }
  else s.setMsix fn v { x with sent := x.sent + 1 }

/-- An entry has been written (R490). -/
def State.signal (s : State) (q : Nat) : State :=
  let v := s.queue q
  if !v.irqEn then s
  else if v.unsignalled + 1 ≥ max 1 v.coCount || v.coTime = 0 then
    (s.setQueue q { v with unsignalled := 0 }).raise v.fn v.vector
  else s.setQueue q { v with unsignalled := v.unsignalled + 1 }

def execMsixCoalesceTimer (q : Nat) (s : State) : Outcome State Fault Refusal :=
  .next (
    let v := s.queue q
    if v.unsignalled = 0 then s else (s.setQueue q { v with unsignalled := 0 }).raise v.fn v.vector)

/-! ### Rings (R480 to R483) -/

def Queue.sqBase (v : Queue) : Nat := v.sqHi % 2 ^ 20 * 2 ^ 32 + v.sqLo / 4096 * 4096
def Queue.cqBase (v : Queue) : Nat := v.cqHi % 2 ^ 20 * 2 ^ 32 + v.cqLo / 4096 * 4096
def Queue.sqSize (v : Queue) : Nat := 2 ^ v.sqLog2
def Queue.cqSize (v : Queue) : Nat := 2 ^ v.cqLog2
def ringKey (hi base : Nat) : Nat := if hi.testBit 31 then base else hostKey base

/-- The words of a queue entry as read (R480). -/
def Queue.word (v : Queue) (w : Nat) : Nat :=
  match w with
  | 0 => v.sqLo
  | 1 => v.sqHi
  | 2 => v.cqLo
  | 3 => v.cqHi
  | 4 => bit v.enable 31 + bit v.kind 30 + v.sqLog2 * 2 ^ 25 + v.cqLog2 * 2 ^ 20 + bit v.irqEn 19 + v.vector
  | 5 => v.localIx * 16 + v.fn
  | 6 => bit v.running 31 + v.error * 2 ^ 28 + v.inFlight % 65536
  | 7 => v.coCount * 65536 + v.coTime
  | _ => 0

/-- An entry of a PF0 ring in host memory passes through the coherent cache (R477, R478).
DESIGN CHOICE (log entry 54). -/
def State.ringTouch (s : State) (write : Bool) (v : Queue) (hi base len : Nat) : State :=
  if v.fn = 0 && !hi.testBit 31 then s.fillHost write base len else s

/-- A ring base is acceptable: a device name lies in a pinned object of the owner's polder (R482).
DESIGN CHOICE (log entry 54). -/
def State.ringOk (s : State) (fn hi base : Nat) : Bool :=
  if hi.testBit 31 then
    let h := s.home (base / extentBytes)
    let o := s.objOf (base / extentBytes)
    decide (base < hostBase) && decide (h.state ≠ 0) && (o.pin || s.objHoldsCode o) && s.fnMayUse fn o.polder
  else true

/-- Another event queue of the function is running (R481). -/
def State.secondEvent (s : State) (q fn : Nat) : Bool :=
  s.host.queues.any (fun e => decide (e.1 ≠ q) && e.2.kind && e.2.running && decide (e.2.fn = fn))

/-- The error of an enable, 0 where it may start (R480 to R482). -/
def State.enableError (s : State) (q : Nat) (v : Queue) : Nat :=
  let log (n : Nat) : Bool := decide (4 ≤ n) && decide (n ≤ 16)
  if (!v.kind && !log v.sqLog2) || !log v.cqLog2 || (decide (v.fn ≠ 0) && decide (v.vector ≥ 64))
      || !s.ringOk v.fn v.sqHi v.sqBase || !s.ringOk v.fn v.cqHi v.cqBase then 4
  else if v.kind && s.secondEvent q v.fn then 5
  else 0

/-- A queue stops: it takes no more, and `running` clears once what it took has completed (R483, R491). -/
def State.stopQueue (s : State) (q : Nat) : State :=
  let v := s.queue q
  if !v.running then s
  else if v.inFlight = 0 then s.setQueue q { v with running := false, stopping := false }
  else s.setQueue q { v with stopping := true }

/-- A queue error: the queue stops and QUEUE_ERROR is posted (R483, R496). -/
def State.queueError (s : State) (q err value : Nat) : State :=
  let v := s.queue q
  ((s.setQueue q { v with error := err }).stopQueue q).post
    { code := 0x0130, sev := 1, die := 0x12, cls := 7,
      detail := q % 4096 * 2 ^ 52 + v.fn % 16 * 2 ^ 48 + err % 8 * 2 ^ 45 + value % 65536 }

/-- A queue starts, or keeps the error of its enable (R481). -/
def State.startQueue (s : State) (q : Nat) : State :=
  let v := s.queue q
  let e := s.enableError q v
  if e ≠ 0 then s.setQueue q { v with error := e }
  else s.setQueue q { v with running := true, stopping := false, error := 0, head := 0, tail := 0, written := 0,
                             read := 0, inFlight := 0, owed := 0, unsignalled := 0, dropped := 0, held := [] }

/-- A write of a word of a queue entry by its owner (R480, R481, R491). -/
def State.queueWrite (s : State) (q w x : Nat) : State :=
  let v := s.queue q
  if w = 7 then s.setQueue q { v with coCount := fieldOf x 16 16, coTime := fieldOf x 0 16 }
  else if w = 4 then
    if v.running then
      if x.testBit 31 then s else (s.setQueue q { v with enable := false }).stopQueue q
    else
      let s := s.setQueue q { v with
        enable := x.testBit 31, kind := x.testBit 30, sqLog2 := fieldOf x 25 5, cqLog2 := fieldOf x 20 5,
        irqEn := x.testBit 19, vector := fieldOf x 0 11 }
      if x.testBit 31 then s.startQueue q else s
  else if v.running then s
  else match w with
    | 0 => s.setQueue q { v with sqLo := x / 4096 * 4096 % 2 ^ 32 }
    | 1 => s.setQueue q { v with sqHi := bit (x.testBit 31) 31 + x % 2 ^ 20 }
    | 2 => s.setQueue q { v with cqLo := x / 4096 * 4096 % 2 ^ 32 }
    | 3 => s.setQueue q { v with cqHi := bit (x.testBit 31) 31 + x % 2 ^ 20 }
    | _ => s

/-- The queue behind a number in a function's view: PF0 numbers all queues, a VF its local ones (R467, R481).
DEDUCED (log entry 55). -/
def State.queueOf (s : State) (fn q : Nat) : Option Nat :=
  if fn = 0 then if q < 4096 then some q else none
  else (s.host.queues.find? (fun e => decide (e.2.fn = fn) && decide (e.2.localIx = q))).map (·.1)

/-- A write of QUEUE_OWNER by PF0, while the queue is not enabled (R481). DEDUCED (log entry 55). -/
def State.ownerWrite (s : State) (q x : Nat) : State :=
  let v := s.queue q
  let fn := fieldOf x 0 4
  let l := fieldOf x 4 8
  let repeats := decide (fn ≠ 0)
    && s.host.queues.any (fun e => decide (e.1 ≠ q) && decide (e.2.fn = fn) && decide (e.2.localIx = l))
  if v.enable || repeats || q ≥ 4096 then s else s.setQueue q { v with fn := fn, localIx := l }

def execQueueOwnerWrite (q : Nat) (v : Lane) (s : State) : Outcome State Fault Refusal :=
  .next (if s.serves 0 then s.ownerWrite q v.toNat else s)

/-- A queue's entry written by a function that owns it. -/
def State.ownWrite (s : State) (fn q w x : Nat) : State :=
  match s.queueOf fn q with
  | some g => if s.serves fn && decide ((s.queue g).fn = fn) then s.queueWrite g w x else s
  | none => s

def execQueueEnable (fn q : Nat) (v : Lane) (s : State) : Outcome State Fault Refusal :=
  .next (s.ownWrite fn q 4 (v.toNat % 2 ^ 31 + 2 ^ 31))

def execQueueDisable (fn q : Nat) (s : State) : Outcome State Fault Refusal :=
  .next (match s.queueOf fn q with
    | some g => s.ownWrite fn q 4 ((s.queue g).word 4 % 2 ^ 31)
    | none => s)

/-! ### Doorbells (R483) -/

/-- The SQ tail as the host gives it. DEDUCED (log entry 55). -/
def State.sqTail (s : State) (q x : Nat) : State :=
  let v := s.queue q
  let t := x % 65536
  if !v.running || v.stopping || v.kind then s
  else if t ≥ v.sqSize then s.queueError q 1 t
  else s.setQueue q { v with tail := t }

/-- The next entry that the host will read. -/
def State.cqHead (s : State) (q x : Nat) : State :=
  let v := s.queue q
  let h := x % 65536
  if !v.running then s
  else
    let n := v.cqSize
    let step := (h + n - v.read % n) % n
    if h ≥ n || v.read + step > v.written then s.queueError q 2 h
    else s.setQueue q { v with read := v.read + step }

def execDbSqTail (fn q : Nat) (v : Lane) (s : State) : Outcome State Fault Refusal :=
  .next (match s.queueOf fn q with
    | some g => if s.serves fn then s.sqTail g v.toNat else s
    | none => s)

def execDbCqHead (fn q : Nat) (v : Lane) (s : State) : Outcome State Fault Refusal :=
  .next (match s.queueOf fn q with
    | some g => if s.serves fn then s.cqHead g v.toNat else s
    | none => s)

/-! ### Completions (R486 to R488) -/

/-- A completion as R487 lays it out, without its phase and SQ head. -/
structure Done where
  status : Nat := 0
  detail : Nat := 0
  result : Nat := 0
  data : List Byte := []
  deriving DecidableEq, Repr

/-- A CQ entry written (R487); the final one of a command counts it as completed. DEDUCED (log entry 57). -/
def State.complete (s : State) (r : Reply) (interim : Bool) (d : Done) : State :=
  let v := s.queue r.q
  if !v.running then s
  else
    let phase := v.written / v.cqSize % 2 = 0
    let bs := toBytes 2 r.id ++ toBytes 2 v.head ++ toBytes 1 d.status ++ toBytes 1 (bit phase 0 + bit interim 1)
      ++ toBytes 2 d.detail ++ toBytes 8 d.result ++ padTo 0 48 d.data
    let s := s.write 0 (ringKey v.cqHi v.cqBase + v.written % v.cqSize * 64) bs
    let s := s.ringTouch true v v.cqHi (v.cqBase + v.written % v.cqSize * 64) 64
    let left := if interim then v.inFlight else v.inFlight - 1
    let v := { v with written := v.written + 1, owed := v.owed - 1, inFlight := left }
    let v := if v.stopping && left = 0 then { v with running := false, stopping := false } else v
    (s.setQueue r.q v).signal r.q

/-- A final completion. -/
def State.finish (s : State) (r : Reply) (status detail result : Nat) : State :=
  s.complete r false { status := status, detail := detail, result := result }

/-! ### Taking an entry (R484 to R486) -/

/-- An SQ entry that the device has taken. -/
structure Sqe where
  op : Nat
  target : Nat
  desc : Nat
  arg0 : Nat
  arg1 : Nat
  deriving DecidableEq, Repr

/-- What stands at the head of an SQ. -/
inductive Front where
  | nothing
  | unreadable
  | entry (bs : List Byte)
  deriving DecidableEq, Repr

/-- The head entry, where the queue runs, its ring can be read and the queue manager runs (R483, R486, R440).
DEDUCED (log entry 56). -/
def State.front (s : State) (q : Nat) : Front :=
  let v := s.queue q
  if !v.running || v.stopping || v.kind || v.head = v.tail || !s.hub.running || s.lanternDown 32 || s.lanternDown 33
  then .nothing
  else
    let a := ringKey v.sqHi v.sqBase + v.head * 64
    if v.sqHi.testBit 31 then
      match s.checkRange hubWho false a 64 with
      | none => if s.heldOver a 64 then .nothing else .entry (s.memBytes a 64)
      | some (.later _) => .nothing
      | some _ => .unreadable
    else if s.host.speed = 0 then .nothing
    else .entry (s.memBytes a 64)

/-- What a command does once it begins, with the place of its completions and its fields. -/
abbrev Body : Type := State → Reply → Sqe → State

/-- A command of queue `q` that function `fn` gave as `bs` begins. -/
def Body.begin (body : Body) (q fn : Nat) (bs : List Byte) (s : State) : State :=
  body s { q := q, id := recField bs 2 2, fn := fn }
    { op := recField bs 0 1, target := recField bs 4 2 % 4096, desc := recField bs 8 8, arg0 := recField bs 16 8,
      arg1 := recField bs 24 8 }

/-- The device takes the head entry where the CQ has room for `need` completions. It carries it out, or holds it before
phase P7, PROGRESS apart (R486, R494). -/
def State.takeFront (s : State) (q : Nat) (is : Nat → Bool) (need : Nat) (body : Body) : State :=
  match s.front q with
  | .nothing => s
  | .unreadable => s.queueError q 3 0
  | .entry bs =>
    let v := s.queue q
    let op := recField bs 0 1
    let hold := !s.hub.jobOpen && decide (op ≠ 5)
    let ordered := (recField bs 1 1).testBit 0
    let room := v.cqSize - (v.written - v.read) - v.owed
    if !is op || (!hold && ordered && decide (v.inFlight ≠ 0)) || room < need then s
    else
      let s := s.ringTouch false v v.sqHi (v.sqBase + v.head * 64) 64
      let v := { v with head := (v.head + 1) % v.sqSize, inFlight := v.inFlight + 1, owed := v.owed + need }
      if hold then s.setQueue q { v with held := v.held ++ [(v.fn, bs)] }
      else body.begin q v.fn bs (s.setQueue q v)

/-- The oldest held command of a queue begins once phase P7 is reached; an ordered one, once all that is in flight is held
behind it (R486, R494). -/
def State.startHeld (s : State) (q : Nat) (is : Nat → Bool) (x : Nat × List Byte) (rest : List (Nat × List Byte))
    (body : Body) : State :=
  let v := s.queue q
  if !is (recField x.2 0 1) || !s.hub.running || s.lanternDown 32 || s.lanternDown 33
    || ((recField x.2 1 1).testBit 0 && decide (v.inFlight ≠ rest.length + 1)) then s
  else body.begin q x.1 x.2 (s.setQueue q { v with held := rest })

/-- A command of queue `q` with an opcode that `is` accepts: what was held before phase P7 goes first (R494).
DEDUCED (log entry 56). -/
def State.takeIf (s : State) (q : Nat) (is : Nat → Bool) (need : Nat) (body : Body) : State :=
  match if s.hub.jobOpen then (s.queue q).held else [] with
  | x :: rest => s.startHeld q is x rest body
  | [] => s.takeFront q is need body

def State.take (s : State) (q op need : Nat) (body : Body) : State :=
  s.takeIf q (fun x => decide (x = op)) need body

/-- A command that only PF0 may issue: a VF's is denied and counted (R485, R531). -/
def State.pfOnly (s : State) (r : Reply) (e : Sqe) (body : State → State) : State :=
  if r.fn = 0 then body s else (s.refuse (.vf r.fn) e.op).finish r 0x0A 0 0

/-- A descriptor read: none where it cannot be read; a read that waits leaves nothing to decide (R484, R488). -/
def State.readDesc (s : State) (a n : Nat) : Option (List Byte) :=
  if hostBase ≤ a && a + n ≤ hostEnd then if s.host.speed = 0 then none else some (s.memBytes a n)
  else if a + n ≤ 2 ^ 52 && !(a ≥ regBase) then
    match s.checkRange hubWho false a n with
    | none => some (s.memBytes a n)
    | some _ => none
  else none

/-- The opcodes of R485. -/
def opcodes : List Nat :=
  [0x01, 0x02, 0x03, 0x04, 0x05, 0x06, 0x10, 0x11, 0x18, 0x19, 0x1A, 0x1B, 0x1C, 0x20, 0x21, 0x28, 0x29, 0x30, 0x31,
   0x38, 0x39, 0x3A, 0x3B, 0x40, 0x48]

/-- ENTRY_BAD: any other opcode completes with it (R485). -/
def execEntryBad (q : Nat) (s : State) : Outcome State Fault Refusal :=
  .next (s.takeIf q (fun x => !opcodes.contains x) 1 (fun s r _ => s.finish r 0x0B 0 0))

end Sys2Proof.Machine
end

