-- ==== Sys2Proof/Machine/EventLog.lean ====
section
/-!
DEFINITION. The event log, the warden journal, the event queues and the EVENT block (R451 to R453, R489, R508,
R509, R577).
-/
namespace Sys2Proof.Machine
open Host

/-- An event record (R451). -/
def Ev.record (e : Ev) : List Byte :=
  toBytes 8 e.time ++ toBytes 4 e.seq ++ toBytes 2 e.code
    ++ toBytes 2 (e.die % 32 * 2048 + e.cls % 8 * 256 + e.index % 256)
    ++ toBytes 2 (e.sev % 16 * 4096 + e.ctx % 4096) ++ toBytes 2 e.boot ++ toBytes 4 0 ++ toBytes 8 e.detail

def State.setEv (s : State) (v : Events) : State := { s with ev := v }

/-! ### Event queues (R489) -/

/-- A record written to an event queue, or dropped where the ring is full; then the tail block: the number of
records written, and of those dropped. -/
def State.deliverTo (s : State) (q : Nat) (e : Ev) : State :=
  let v := s.queue q
  let n := v.cqSize
  let full := decide (v.written - v.read ≥ n)
  let s := if full then
      (s.setQueue q { v with dropped := v.dropped + 1 }).postEachSecond (0x0131 * 4096 + q)
        { code := 0x0131, sev := 1, die := 0x12, cls := 7, detail := q % 4096 * 2 ^ 52 + v.fn % 16 * 2 ^ 48 + 1 }
    else ((s.write 0 (ringKey v.cqHi v.cqBase + v.written % n * 32) e.record).ringTouch true v v.cqHi
        (v.cqBase + v.written % n * 32) 32).setQueue q { v with written := v.written + 1 }
  let w := s.queue q
  let s := s.write 0 (ringKey w.sqHi w.sqBase) (toBytes 8 w.written ++ toBytes 8 w.dropped)
  let s := s.ringTouch true w w.sqHi w.sqBase 16
  if full then s else s.signal q

/-- The event queues that receive a record: those of the function that submitted its context. -/
def State.deliver (s : State) (e : Ev) : State :=
  let qs := s.host.queues.filter (fun x => x.2.kind && x.2.running && !x.2.stopping
    && ((decide (e.ctx ≠ 0) && decide (x.2.fn = e.fn)) || (x.2.fn = 0 && decide (e.sev ≥ 1))))
  qs.foldl (fun s x => s.deliverTo x.1 e) s

/-! ### Numbering (R453) -/

/-- The first unnumbered record of an event takes its number. -/
def renumber (e : Ev) : List Ev → List Ev
  | [] => []
  | j :: l => if j.seq = 0xFFFFFFFF && j.code = e.code && j.time = e.time then e :: l else j :: renumber e l

/-- A numbered record goes to the ring, and to the journal where its severity asks for it and it is not there
yet. -/
def State.logRecord (s : State) (e : Ev) (journaled : Bool) : State :=
  let v := { s.ev with log := mapSet {} s.ev.log (e.seq % 65536) e }
  let v := if journaled then { v with journal := renumber e v.journal, journalWait := renumber e v.journalWait }
    else if e.sev ≥ 2 then v.journalAdd e else v
  (s.setEv v).deliver e

/-- One sequence number is used up; past 0xFFFF_FFFF the record with sequence 0 is SEQ_WRAPPED.
DEDUCED (log entry 58). -/
def State.nextSeq (s : State) : State :=
  let v := s.ev
  if v.next < 0xFFFFFFFF then s.setEv { v with next := v.next + 1 }
  else
    let s := s.setEv { v with next := 1, wraps := v.wraps + 1 }
    s.logRecord { code := 0x0815, sev := 0, die := 0x12, cls := 7, time := s.time, boot := v.bootCount % 65536, seq := 0,
                  detail := (v.wraps + 1) % 2 ^ 64 } false

/-- An event is numbered, logged and delivered. -/
def State.numberEvent (s : State) (e : Ev) (journaled : Bool) : State :=
  (s.logRecord { e with seq := s.ev.next } journaled).nextSeq

/-- EVENT_POST: the oldest detected event takes its place in the log, while the hub and its event lantern run. -/
def execEventPost (s : State) : Outcome State Fault Refusal :=
  .next (match s.ev.detected with
    | [] => s
    | e :: rest =>
      if !s.hub.running || s.lanternDown 34 then s
      else (s.setEv { s.ev with detected := rest }).numberEvent e false)

/-- The events that the warden held are numbered when the hub starts, a dropped one leaving its number unused.
DEDUCED (log entry 58). -/
def State.numberEarly (s : State) : State :=
  s.ev.early.foldl (fun s x => match x with
    | .held e => s.numberEvent e false
    | .journaled e => s.numberEvent e true
    | .dropped => s.nextSeq) (s.setEv { s.ev with early := [] })

/-! ### The EVENT block (R508, R509) -/

/-- The data registers latch a record, or show none. -/
def Events.show_ (v : Events) (r : Option Ev) : Events :=
  match r with
  | some e => { v with valid := true, data := e.record }
  | none => { v with valid := false, data := [] }

/-- The selection in the package log. -/
def Events.latchLog (v : Events) : Events :=
  let d := (v.next + 2 ^ 32 - v.select % 2 ^ 32) % 2 ^ 32
  if d = 0 || d ≥ 2 ^ 31 then v.show_ none
  else if d ≤ 65536 then v.show_ (some (mapGet {} v.log (v.select % 65536)))
  else
    let sel := (v.next + 2 ^ 32 - 65536) % 2 ^ 32
    { v.show_ (some (mapGet {} v.log (sel % 65536))) with select := sel, skipped := true }

/-- How far a journal record stands after a selection, by boot and then by sequence, each modulo its width (R577);
none for one that stands before it. DEDUCED (log entry 58). -/
def journalDist (boot seq b q : Nat) : Option Nat :=
  let db := (b + 65536 - boot % 65536) % 65536
  let dq := (q + 2 ^ 32 - seq % 2 ^ 32) % 2 ^ 32
  if db = 0 then if dq < 2 ^ 31 then some dq else none
  else if db < 32768 then some (db * 2 ^ 33 + q) else none

/-- The journal record nearest after a selection, at a distance of at least `lo`. DEDUCED (log entry 58). -/
def Events.nearest (v : Events) (lo : Nat) : Option (Nat × Ev) :=
  v.journal.foldl (fun best e =>
    match journalDist v.bootSel v.select e.boot e.seq with
    | none => best
    | some d =>
      if d < lo then best
      else match best with
        | some (b, _) => if d < b then some (d, e) else best
        | none => some (d, e)) none

/-- The selection in the journal, moved on to the record at a distance of at least `lo`; `skipped` is set where
the move passes a record that the journal has overwritten. -/
def Events.latchJournal (v : Events) (lo : Nat) : Events :=
  match v.nearest lo with
  | none => v.show_ none
  | some (d, e) =>
    let passed := v.journalLost.any (fun l => match journalDist v.bootSel v.select l.1 l.2 with
      | some x => decide (lo ≤ x) && decide (x < d)
      | none => false)
    { v.show_ (some e) with select := e.seq, bootSel := e.boot, skipped := v.skipped || passed }

def Events.latch (v : Events) : Events := if v.source then v.latchJournal 0 else v.latchLog

/-- The selection advances to the next record (R509). -/
def Events.advance (v : Events) : Events :=
  if v.source then v.latchJournal 1 else { v with select := (v.select + 1) % 2 ^ 32 }.latchLog

def State.eventSelect (s : State) (x : Nat) : State := s.setEv { s.ev with select := x % 2 ^ 32 }.latch

def execEventSelectWrite (v : Lane) (s : State) : Outcome State Fault Refusal :=
  .next (if s.fnOpen 0 then s.eventSelect v.toNat else s)

def State.eventCtrl (s : State) (x : Nat) : State :=
  if s.ev.source = x.testBit 31 then s else s.setEv { s.ev with source := x.testBit 31 }.latch

def execEventCtrlWrite (v : Lane) (s : State) : Outcome State Fault Refusal :=
  .next (if s.fnOpen 0 then s.eventCtrl v.toNat else s)

/-- A data register. -/
def Events.dataWord (v : Events) (i : Nat) : Nat := recField v.data (4 * i) 4

/-- The host's last read answered with a register value. -/
def State.answerReg (s : State) (x : Nat) : State := s.setHost { s.host with value := x }

/-- EVENT_DATA7 read, alone or as the upper half of a 64-bit read: the selection advances (R509). A narrower read
returns its bytes and advances nothing (R499). -/
def execEventData7Read (width : Nat) (s : State) : Outcome State Fault Refusal :=
  .next (
    let v := s.ev
    if !s.fnOpen 0 then s
    else if width = 8 then (s.answerReg (v.dataWord 6 + 2 ^ 32 * v.dataWord 7)).setEv v.advance
    else if width = 4 then (s.answerReg (v.dataWord 7)).setEv v.advance
    else s.answerReg (v.dataWord 7 % 2 ^ (8 * width)))

end Sys2Proof.Machine
end

