-- ==== Sys2Proof/Machine/Tiers.lean ====
section
/-!
DEFINITION. Memory tiers (chapter 10): free slices, objects, sluice moves and copies, afterglow images and the
hot-channel monitor.
-/
namespace Sys2Proof.Machine
open Host

def recNat (bs : List Byte) (i n : Nat) : Nat := recField bs i n

/-! ### Identifiers (R572) -/

/-- The first number at or after `x` that is not used, within [lo, hi], wrapping round. DESIGN CHOICE (log entry 45). -/
def nextUnused (used : Nat → Bool) (lo hi : Nat) : Nat → Nat → Option Nat
  | 0, _ => none
  | k + 1, x => if used x then nextUnused used lo hi k (if x ≥ hi then lo else x + 1) else some x

/-- A free identifier: which one the device gives is a free value. `count` bounds those in use.
DESIGN CHOICE (log entry 45). -/
def State.pickId (s : State) (used : Nat → Bool) (lo hi count : Nat) : Option Nat :=
  nextUnused used lo hi (min (hi - lo + 1) (count + 1)) (lo + Config.freeNat s.freeCtr % (hi - lo + 1))

/-! ### Free slices (R23, R25, R287, R292, R297) -/

/-- Slices of the host pool. -/
def State.poolSlices (s : State) : Nat := (s.host.pool.map (fun r => r.2 / 65536)).sum

/-- The slices that an object's homes may take in a tier: the package-wide or a die-local part of the stacks, the
DDR tier, the host pool. -/
def State.slicePart (s : State) (o : Obj) (tier : Nat) : Nat × Nat :=
  if tier = 0 then
    let b := s.stackSplit / 65536
    if o.interleave = 0 then (0, b)
    else
      let d := s.hub.dielocal * 2 ^ 30 / 65536
      (b + o.die * d, b + (o.die + 1) * d)
  else if tier = 1 then (0, s.ddrBytes / 65536)
  else (0, s.poolSlices)

/-- Slices that a move still holds at its source, after the flip and before step 6: they are not free (R299). -/
def State.heldSources (s : State) (tier : Nat) : List (Nat × Nat) :=
  s.sluices.filterMap (fun e =>
    if !e.2.cmd.isEmpty && e.2.phase = 6 && e.2.srcTier = tier then some (e.2.srcSlice, e.2.srcSlicesM1 + 1) else none)

/-- Slices in use in a tier: homes, move targets, and in the stacks the hub's frames (R25). -/
def State.slicesUsed (s : State) (tier : Nat) : List (Nat × Nat) :=
  (if tier = 0 then [(0, 13 * 32)] else []) ++ s.slicesTaken tier ++ s.heldSources tier

/-- A run of `k` slices in one frame within [lo, hi) that meets none of those in use, from `p` on.
DESIGN CHOICE (log entry 45). -/
def findRun (used : List (Nat × Nat)) (lo hi k : Nat) : Nat → Nat → Option Nat
  | 0, _ => none
  | n + 1, p =>
    if p + k > hi then findRun used lo hi k n lo
    else if p % 32 + k > 32 then findRun used lo hi k n (p / 32 * 32 + 32)
    else match used.find? (fun u => decide (u.1 < p + k) && decide (p < u.1 + u.2)) with
      | some u => findRun used lo hi k n (u.1 + u.2)
      | none => some p

/-- Free slices for a home in a tier; which ones the hub takes is a free value. DESIGN CHOICE (log entry 45). -/
def State.freeSlices (s : State) (o : Obj) (tier k : Nat) : Option Nat :=
  let (lo, hi) := s.slicePart o tier
  let used := s.slicesUsed tier
  if lo + k > hi then none
  else findRun used lo hi k (4 * used.length + 64) (lo + Config.freeNat s.freeCtr % (hi - lo))

/-- The salt a home takes (R320): that of its object's polder, for a package-wide stack home or a DDR home. -/
def State.saltFor (s : State) (o : Obj) (tier : Nat) : Nat :=
  if (tier = 0 && o.interleave = 0) || tier = 1 then (s.polder o.polder).salt else 0

/-- `slices_m1` of an entry that holds no slices: a mark of the model, since the field has no such code.
DESIGN CHOICE (log entry 60). -/
def noSlices : Nat := 32

/-! ### Objects (R290, R291) -/

/-- Bytes of the tier's name range in force. -/
def State.nameEnd (s : State) (a : Nat) : Nat := if a < stackEnd then stackEnd else ddrBase + s.ddrBytes

/-- The names of an object lie in one name range, and a stack name in the part that its interleave and die select;
the names of the hub's frames are taken. An interleave or a die that no field value names selects no part. -/
def State.namesFit (s : State) (a n inter die : Nat) : Bool :=
  let e := a + n * extentBytes
  if a < stackEnd then
    decide (e ≤ stackEnd) && decide (a ≥ 13 * extentBytes)
      && (if inter = 0 then decide (e ≤ s.stackSplit)
          else decide (inter > 1) || decide (die > 7) || decide (s.stackSplit + die * (s.hub.dielocal * 2 ^ 30) ≤ a)
            && decide (e ≤ s.stackSplit + (die + 1) * (s.hub.dielocal * 2 ^ 30)))
  else decide (ddrBase ≤ a) && decide (e ≤ s.nameEnd a)

def odExtents (b : List Byte) : Nat := recField b 8 4
def odTier (b : List Byte) : Nat := recField b 12 1
def odInter (b : List Byte) : Nat := recField b 13 1
def odDie (b : List Byte) : Nat := recField b 14 1
def odPolder (b : List Byte) : Nat := recField b 15 1
def odGlow (b : List Byte) : Nat := recField b 16 1
def odMotion (b : List Byte) : Nat := recField b 17 1
def odFmt (b : List Byte) : Nat := recField b 19 1

/-- FP32, finite and at least +0. -/
def bound32Ok (w : Nat) : Bool := decide (w < 0x7F800000)

/-- The DDR tier is absent: TBX-20D, or a tier die out of service (R305, R306). -/
def State.ddrAbsent (s : State) : Bool := s.variant = .tbx20d || (s.die 0x10).out || (s.die 0x11).out

/-- The names of an object descriptor begin in the DDR range. -/
def odDdr (b : List Byte) : Bool := decide (ddrBase ≤ recField b 0 8) && decide (recField b 0 8 < ddrEnd)

/-- An attribute names an absent unit: DDR names or homes on TBX-20D or with a tier die out of service, or a
compute die out of service (R5, R305, R507). -/
def State.objAbsent (s : State) (b : List Byte) : Bool :=
  ((decide (odTier b = 1) || odDdr b) && s.ddrAbsent)
    || (odInter b = 1 && decide (odDie b < 8) && (s.die (odDie b)).out)

/-- The field that names the absent unit: the names, the tier or the die. -/
def State.absentField (s : State) (b : List Byte) : Nat :=
  if odDdr b && s.ddrAbsent then 0 else if odTier b = 1 && s.ddrAbsent then 12 else 14

/-- The first field of an object descriptor that breaks R290, by its offset. -/
def State.objBad (s : State) (b : List Byte) : Option Nat :=
  let glow := decide (odGlow b ≠ 0)
  let base := recField b 0 8
  let used := (List.range (odExtents b)).any (fun i => decide ((s.home (base / extentBytes + i)).state ≠ 0))
  firstOf [
    (decide (base % extentBytes ≠ 0) || decide (base ≥ ddrEnd), 0),
    (decide (odExtents b = 0) || decide (odExtents b > 1048576), 8),
    (!s.namesFit base (odExtents b) (odInter b) (odDie b), 0),
    (decide (odTier b > 2) || (odTier b = 2 && !s.host.cxlMode), 12),
    (decide (odInter b > 1), 13),
    (if odInter b = 1 then decide (odDie b > 7) else decide (odDie b ≠ 0), 14),
    (decide (odPolder b > 15), 15),
    (decide (odGlow b > 2) || (glow && odTier b = 2), 16),
    (glow && decide (odMotion b > 2), 17),
    (glow && decide (recField b 18 1 > 16), 18),
    (glow && !([0, 1, 3].contains (odFmt b)), 19),
    (decide (recField b 20 1 > 1), 20),
    (decide (recField b 21 3 ≠ 0), 21),
    (odGlow b = 2 && !bound32Ok (recField b 24 4), 24),
    (glow && decide (recField b 28 2 = 0), 28),
    (glow && decide (recField b 30 2 = 0), 30),
    (glow && (decide (recField b 32 4 = 0) || decide (recField b 32 4 > 65536)), 32),
    (glow && decide (odMotion b ≠ 0) && decide (recField b 36 8 ≥ ddrEnd), 36),
    ((b.drop 48).any (· ≠ 0), 48),
    (used, 0)]

/-- Homes taken for the extents of an object without afterglow; none where the slices do not cover them. -/
def State.takeHomes (s : State) (id : Nat) (o : Obj) (first : Nat) : Nat → Option State
  | 0 => some s
  | n + 1 =>
    match s.freeSlices o o.homeTier 32 with
    | none => none
    | some p =>
      let h : Home := { slice := p, slicesM1 := 31, salt := s.saltFor o o.homeTier, tier := o.homeTier, state := 2,
                        object := id }
      ((s.setHome first h).tick).takeHomes id o (first + 1) n

/-- The extents of an object with afterglow, empty until they are written (R291, R293). -/
def State.emptyHomes (s : State) (id : Nat) (o : Obj) (first n : Nat) : State :=
  (List.range n).foldl (fun s i =>
    s.setHome (first + i) { slicesM1 := noSlices, tier := o.homeTier, state := 1, object := id }) s

/-- The object that a descriptor describes. -/
def objOfDesc (b : List Byte) (fn : Nat) : Obj :=
  { nameBase := recField b 0 8, extents := odExtents b, homeTier := odTier b, interleave := odInter b, die := odDie b,
    polder := odPolder b, glowMode := odGlow b, desc := b, pin := decide (recField b 20 1 = 1), fn := fn }

/-- OBJ_CREATE (R290, R291, R485). -/
def execObjCreate (q : Nat) (s : State) : Outcome State Fault Refusal :=
  .next (s.take q 0x18 1 (fun s r e =>
    match s.readDesc e.desc 64 with
    | none => s.finish r 0x0D 0 0
    | some b =>
      if s.objAbsent b then s.finish r 0x0F (s.absentField b) 0
      else match s.objBad b with
        | some off => s.finish r 0x0C off 0
        | none =>
          if !s.fnMayUse r.fn (odPolder b) then (s.refuse (.vf r.fn) e.op).finish r 0x02 15 0
          else match s.pickId (fun i => decide ((s.obj i).extents ≠ 0)) 1 1048575 s.objs.length with
            | none => s.finish r 0x15 0 0
            | some id =>
              let o := objOfDesc b r.fn
              let s := s.tick
              let first := o.nameBase / extentBytes
              let done := if o.glowMode = 0 then s.takeHomes id o first o.extents
                else some (s.emptyHomes id o first o.extents)
              match done with
              | none => s.finish r 0x15 12 0
              | some s => (s.setObj id o).finish r 0 0 id))

/-- An object's names unallocated and its ID freed (R573). DEDUCED (log entry 59). -/
def State.destroyObj (s : State) (id : Nat) : State :=
  let s := (s.obj id).span.foldl (fun s x =>
    let s := s.setHome x {}
    { s with mem := { s.mem with lost := mapSet false s.mem.lost x false, glow := mapSet 0 s.mem.glow x 0,
                                 undo := mapClear s.mem.undo (x * extentBytes) extentBytes } }) s
  s.setObj id {}

/-- An extent of the object is moving. -/
def State.objMoving (s : State) (o : Obj) : Bool := o.span.any (fun x => decide ((s.home x).state = 3))

/-- A job that has ended frees its ID once its last quarantined object is released (R374, R393). -/
def State.settleJobId (s : State) (j : Nat) : State :=
  if (s.job j).state = 4 && !s.objs.any (fun e => decide (e.2.job = j)) then s.setJob j {} else s

/-- OBJ_DESTROY (R301, R485): refused while a move of the object is under way or a code object in it is loaded.
DEDUCED (log entry 59). -/
def execObjDestroy (q : Nat) (s : State) : Outcome State Fault Refusal :=
  .next (s.take q 0x19 1 (fun s r e =>
    let id := e.arg1
    let o := s.obj id
    if o.extents = 0 then s.finish r 0x0E 0 0
    else if r.fn ≠ 0 && o.fn ≠ r.fn then (s.refuse (.vf r.fn) e.op).finish r 0x0A 0 0
    else if s.objMoving o || s.objHoldsCode o then s.finish r 0x15 0 0
    else ((s.destroyObj id).settleJobId o.job).finish r 0 0 0))

/-! ### Release (R393) -/

/-- One extent of a released object returns to service; none where fresh slices cannot be taken. -/
def State.returnExtent (s : State) (o : Obj) (x : Nat) : Option State :=
  let h := s.home x
  let clean (s : State) : State := { s with mem := { s.mem with lost := mapSet false s.mem.lost x false } }
  if mapGet false s.mem.lost x then
    if o.glowMode ≠ 0 then
      some (clean (s.setHome x { h with state := 1, slicesM1 := noSlices }))
    else match s.freeSlices o o.homeTier 32 with
      | none => none
      | some p =>
        let s := (s.setHome x { h with slice := p, slicesM1 := 31, state := 2, tier := o.homeTier,
                                       salt := s.saltFor o o.homeTier }).tick
        some (clean { s with mem := { s.mem with
          bytes := mapClear s.mem.bytes (s.keyOf (x * extentBytes)) extentBytes
          poison := mapClear s.mem.poison (x * extentBytes / 64) (extentBytes / 64) } })
  else some (s.setHome x { h with state := if h.slicesM1 = noSlices then 1 else 2 })

def State.returnAll (s : State) (o : Obj) : List Nat → Option State
  | [] => some s
  | x :: xs => match s.returnExtent o x with
    | none => none
    | some s => s.returnAll o xs

/-- RELEASE (R393, R485): an object that a teardown quarantined returns to service or is destroyed.
DEDUCED (log entry 59). -/
def execRelease (q : Nat) (s : State) : Outcome State Fault Refusal :=
  .next (s.take q 0x06 1 (fun s r e =>
    let id := e.arg0
    let o := s.obj id
    if o.extents = 0 then s.finish r 0x0E 0 0
    else if r.fn ≠ 0 && o.fn ≠ r.fn then (s.refuse (.vf r.fn) e.op).finish r 0x0A 0 0
    else if o.job = 0 || (s.job o.job).state ≠ 4 then s.finish r 0x0E 0 0
    else if e.arg1 % 2 = 1 then ((s.destroyObj id).settleJobId o.job).finish r 0 0 0
    else match s.returnAll o o.span with
      | none => s.finish r 0x15 0 0
      | some s => ((s.setObj id { o with job := 0 }).settleJobId o.job).finish r 0 0 0))

/-! ### Sluices (R298 to R306, R316, R317) -/

def State.sluice (s : State) (h : Nat) : Sluice := mapGet {} s.sluices h
def State.setSluice (s : State) (h : Nat) (v : Sluice) : State := { s with sluices := mapSet {} s.sluices h v }
def Sluice.live (v : Sluice) : Bool := !v.cmd.isEmpty

def slSrc (v : Sluice) : Nat := recField v.cmd 0 8
def slCount (v : Sluice) : Nat := recField v.cmd 8 4
def slCopy (v : Sluice) : Bool := recField v.cmd 12 1 = 1
def slTier (v : Sluice) : Nat := recField v.cmd 13 1
def slPost (v : Sluice) : Bool := (recField v.cmd 14 1).testBit 0
def slDeadlined (v : Sluice) : Bool := (recField v.cmd 14 1).testBit 1
def slPolder (v : Sluice) : Nat := recField v.cmd 15 1 % 16
def slDest (v : Sluice) : Nat := recField v.cmd 16 8
def slDeadline (v : Sluice) : Nat := recField v.cmd 24 4
def slSem (v : Sluice) : Nat := recField v.cmd 28 2
def slCtx (v : Sluice) : Nat := recField v.cmd 30 2 % 4096

/-- The tier die whose sluices serve a command: handles alternate between the dies in service (a choice of the model);
none where no tier die has a sluice that works. DEDUCED (log entry 44). -/
def State.sluiceDie (s : State) (h : Nat) : Option Nat :=
  let d := 0x10 + h % 2
  let works (d : Nat) : Bool := s.dieUp d && (List.range 4).any (fun i => s.unitOk (80 + 4 * (d - 0x10) + i))
  if works d then some d else if works (0x21 - d) then some (0x21 - d) else none

/-- The sluice, 4 × die + number, that serves a command: the handle picks it among those that take work (a choice of
the model). DEDUCED (log entry 44). -/
def State.sluiceUnit (s : State) (h : Nat) : Nat :=
  let k := (s.sluiceDie h).getD 0x10 - 0x10
  let i := ((List.range 4).map (fun i => (h / 2 + i) % 4)).find? (fun i => s.unitOk (80 + 4 * k + i))
  4 * k + i.getD 0

/-- Bytes that a command's sluice has copied are counted (R512). -/
def State.countCopied (s : State) (h n : Nat) : State :=
  let u := s.sluiceUnit h
  if (s.sluiceDie h).isNone then s else s.bump (tierReg (u / 4) (0x20 + 4 * (u % 4))) 52 n

/-- The agent of a sluice command's copying. -/
def State.sluiceWho (s : State) (h : Nat) (v : Sluice) : Who :=
  { ctx := slCtx v, polder := slPolder v, die := (s.sluiceDie h).getD 0x12, cls := 5, index := s.sluiceUnit h,
    profile := (s.job (slCtx v)).profile }

/-- The dike of a tier die's sluices (R387). -/
def State.sluiceDike (s : State) (h : Nat) : Nat := 0x35 + ((s.sluiceDie h).getD 0x10 - 0x10)

/-- A sluice command ends (R298, R299): its post, its completion, its cancel; a ring fetch is done. -/
def State.endSluice (s : State) (h status : Nat) : State :=
  let v := s.sluice h
  let s := s.setSluice h {}
  let s := if slPost v then s.semPost1 (slCtx v) (slSem v) none else s
  let count := if slCopy v then v.copied else v.moved
  let data := toBytes 8 status ++ toBytes 8 count ++ toBytes 8 v.skipped
  let s := match v.reply with
    | some r => s.complete r false { result := h, data := data }
    | none => s
  let s := match v.cancelReq with | some r => s.finish r 0 0 0 | none => s
  let s := match v.waiting with | some r => s.finish r 0x08 0 0 | none => s
  match v.ring with
  | none => s
  | some (i, k, frame) =>
    let st := s.set i
    let r : RingSlot := mapGet {} st.ring k
    if st.live && r.frame = frame + 1 && r.pending then
      let s := s.setSet i { st with ring := mapSet {} st.ring k { r with pending := status ≠ 0 } }
      if status = 0 then s.setFrame st.csd frame { s.frame st.csd frame with ringTag := k + 1 } else s
    else s

/-- Status of a move that has come to its end. -/
def Sluice.status (v : Sluice) : Nat := if v.cancelReq ≠ none then 2 else if v.skipped ≠ 0 then 1 else 0

/-- A command that waits for a sluice of the die: it has not begun its extent. -/
def Sluice.waits (v : Sluice) : Bool := v.live && decide (v.phase = 1) && decide (v.state = 0)

/-- The place of a command in a sluice's order (R317): copies with deadlines by deadline, then copies, then moves.
DEDUCED (log entry 63). -/
def Sluice.rank (v : Sluice) : Nat :=
  if slCopy v then if slDeadlined v then slDeadline v else 2 ^ 32 else 2 ^ 32 + 1

/-- No other command that waits on the die comes before this one (R317); one held by its dike does not count.
DEDUCED (log entry 63). -/
def State.sluiceTurn (s : State) (h : Nat) : Bool :=
  let v := s.sluice h
  !s.sluices.any (fun e => decide (e.1 ≠ h) && decide (s.sluiceDie e.1 = s.sluiceDie h) && e.2.waits
    && (s.dike (slPolder e.2) (s.sluiceDike e.1)).open_ && decide (e.2.rank < v.rank))

/-- The tier lantern of the command's die runs. -/
def State.tierLantern (s : State) (h : Nat) : Bool :=
  match s.sluiceDie h with
  | some d => !s.lanternDown (28 + (d - 0x10))
  | none => false

/-- The extent a move has come to. -/
def Sluice.extent (v : Sluice) : Nat := slSrc v / extentBytes + v.at_

/-- The move goes on to its next extent, or ends. -/
def State.nextExtent (s : State) (h : Nat) (v : Sluice) : State :=
  let s := s.setSluice h { v with at_ := v.at_ + 1, phase := 1 }
  if v.at_ + 1 ≥ slCount v || v.cancelReq ≠ none then s.endSluice h v.status else s

/-- Bytes that the copy of a marked extent counts, by dike: the sluice's, and those of both homes (R387). -/
def State.moveUses (s : State) (h : Nat) (v : Sluice) : List (Nat × Nat) :=
  let x := v.extent
  let m := s.home x
  let n := (v.srcSlicesM1 + 1) * 65536
  let who := s.sluiceWho h v
  let rd := s.usesOf who false (x * extentBytes) n
  let wr := (s.setHome x { m with slice := m.destSlice, tier := m.destTier }).usesOf who true (x * extentBytes) n
  wr.foldl (fun l u => addUse l u.1 u.2) (addUse rd (s.sluiceDike h) n)

/-- Dikes of a polder that are shut, for the tokens of context 0 too where a command names a polder. -/
def State.firstShut (s : State) (polder : Nat) (uses : List (Nat × Nat)) : Option Nat :=
  ((uses.filter (fun u => !(s.dike polder u.1).open_)).head?).map (·.1)

/-- Step 2 of R299 for the extent that a move has come to: its target is taken and its entry shows the move. -/
def State.markExtent (s : State) (h : Nat) (v : Sluice) (p : Nat) : State :=
  let x := v.extent
  let m := s.home x
  let s := { s.tick with mem := { s.mem with bias := mapSet false s.mem.bias x false } }
  (s.setHome x { m with state := 3, destTier := slTier v, destSlice := p, destSlicesM1 := m.slicesM1 }).setSluice h
    { v with phase := 3, srcSlice := m.slice, srcSlicesM1 := m.slicesM1, srcTier := m.tier }

/-- What is admitted goes on to `t`; a dike that is shut holds it back (R386). -/
def State.heldOr (s : State) (polder : Nat) (shut : Option Nat) (t : State) : State :=
  match shut with
  | some i => s.setDike polder i { s.dike polder i with holding := true }
  | none => t

/-- An extent that can move is marked, unless a dike holds its copy back (R386). -/
def State.beginExtent (s : State) (h : Nat) (v : Sluice) (p : Nat) : State :=
  let t := s.markExtent h v p
  let uses := t.moveUses h (t.sluice h)
  s.heldOr (slPolder v) (s.firstShut (slPolder v) uses) (t.charge (slPolder v) uses)

/-- SLUICE_MARK: steps 1 and 2 of R299 for the next extent, once the dikes admit its copy (R386); a host-bias extent is
first flipped (R475). -/
def execSluiceMark (handle : Nat) (s : State) : Outcome State Fault Refusal :=
  .next (
    let v := s.sluice handle
    if !v.waits || slCopy v || !s.tierLantern handle || !s.sluiceTurn handle then s
    else
      let x := v.extent
      let m := s.home x
      let o := s.obj m.object
      let ok := decide (m.state = 2) && !o.pin && !s.objHoldsCode o && decide (m.tier ≠ slTier v)
        && !(o.glowMode ≠ 0 && slTier v = 2)
      let dest := if ok then s.freeSlices o (slTier v) (m.slicesM1 + 1) else none
      match dest with
      | none => s.nextExtent handle { v with skipped := v.skipped + 1 }
      | some p => s.beginExtent handle v p)

/-- SLUICE_DRAINED: step 3 of R299 is done, and the copy begins. -/
def execSluiceDrained (handle : Nat) (s : State) : Outcome State Fault Refusal :=
  .next (
    let v := s.sluice handle
    if !v.live || v.phase ≠ 3 then s else s.setSluice handle { v with phase := 4 })

/-- Writes that waited at an extent reach its new home (R299, R300). -/
def State.releaseHeld (s : State) (x : Nat) : State :=
  let mine := s.mem.held.filter (fun h => decide (h.extent = x))
  let s := { s with mem := { s.mem with held := s.mem.held.filter (fun h => decide (h.extent ≠ x)) } }
  mine.foldl (fun s h => s.store h.ctx h.addr h.bytes) s

/-- A flip makes the bias of the extents that do not move, and completes with its last one (R474, R475). A flip that
a host access asked for is counted. -/
def State.flipNow (s : State) (f : BiasFlip) : State :=
  let (wait, now) := f.extents.partition (fun x => decide ((s.home x).state = 3))
  let s := { s with mem := { s.mem with bias := now.foldl (fun m x => mapSet false m x f.toHost) s.mem.bias } }
  let s := if f.reply = none then
      s.setHost { s.host with autoFlips := satAdd 16 s.host.autoFlips now.length } else s
  if !wait.isEmpty then s.setHost { s.host with flips := s.host.flips ++ [{ f with extents := wait }] }
  else match f.reply with
    | some r => s.finish r 0 0 0
    | none => s

/-- The flips that wait go on. DEDUCED (log entry 65). -/
def State.settleFlips (s : State) : State :=
  s.host.flips.foldl State.flipNow (s.setHost { s.host with flips := [] })

/-- The bytes of an extent copied from one place to another; the source keeps them (R299). -/
def State.carry (s : State) (src dst : Nat) : State :=
  if src = dst then s
  else
    let mine := s.mem.bytes.filter (fun e => decide (src ≤ e.1) && decide (e.1 < src + extentBytes))
    let bytes := mine.foldl (fun m e => mapSet 0 m (e.1 - src + dst) e.2) (mapClear s.mem.bytes dst extentBytes)
    { s with mem := { s.mem with bytes := bytes } }

/-- Steps 4 and 5 of R299: the entry of the extent that a move has come to flips, and held writes are released. -/
def State.flipExtent (s : State) (h : Nat) (v : Sluice) : State :=
  let x := v.extent
  let m := s.home x
  let o := s.obj m.object
  let salt := if m.destTier = 1 || (m.destTier = 0 && o.interleave = 0) then (s.polder o.polder).salt else m.salt
  let key := s.keyOf (x * extentBytes)
  let s := s.setHome x { slice := m.destSlice, slicesM1 := m.destSlicesM1, salt := salt, tier := m.destTier,
                         state := 2, object := m.object }
  let s := s.carry key (s.keyOf (x * extentBytes))
  let s := s.countCopied h ((m.slicesM1 + 1) * 65536)
  ((s.releaseHeld x).setSluice h { v with phase := 6, moved := v.moved + 1 }).settleFlips

/-- SLUICE_COPY_DONE: steps 4 and 5 of R299. -/
def execSluiceCopyDone (handle : Nat) (s : State) : Outcome State Fault Refusal :=
  .next (
    let v := s.sluice handle
    if !v.live || v.phase ≠ 4 then s else s.flipExtent handle v)

/-- SLUICE_SOURCE_FREE: step 6 of R299, then the next extent. -/
def execSluiceSourceFree (handle : Nat) (s : State) : Outcome State Fault Refusal :=
  .next (
    let v := s.sluice handle
    if !v.live || v.phase ≠ 6 then s else s.nextExtent handle v)

/-- A move of an extent is reverted: resident at its source, held writes released there, MOVE_ABANDONED posted for the
owning job (R301). DEDUCED (log entry 115). -/
def State.revertExtent (s : State) (x owner : Nat) : State :=
  let m := s.home x
  if m.state ≠ 3 then s
  else
    let s := s.setHome x { m with state := 2, destTier := 0, destSlice := 0, destSlicesM1 := 0 }
    let s := (s.releaseHeld x).settleFlips
    s.post { code := 0x0321, sev := 0, die := 0x12, cls := 7, ctx := owner,
             detail := owner % 4096 * 2 ^ 52 + x * extentBytes }

/-- The commands whose current extent was reverted skip it. -/
def State.skipReverted (s : State) : State :=
  s.sluices.foldl (fun s e =>
    let v := s.sluice e.1
    if v.live && (v.phase = 3 || v.phase = 4) && decide ((s.home v.extent).state ≠ 3) then
      s.nextExtent e.1 { v with skipped := v.skipped + 1 }
    else s) s

/-! ### Copies (R303) -/

/-- Why a 16-byte unit cannot be carried. -/
inductive CopyStop where
  | unmapped
  | quarantined
  | poisoned
  | codeWrite
  deriving DecidableEq, Repr

def CopyStop.code : CopyStop → Nat
  | .unmapped => 0x0301
  | .quarantined => 0x0322
  | .poisoned => 0x080B
  | .codeWrite => 0x010C

/-- The stop of an access of a copy, and the address it names. -/
def copyStop (f : AccFail) : Option (CopyStop × Nat) :=
  match f with
  | .unmapped a => some (.unmapped, a)
  | .quarantined a => some (.quarantined, a)
  | .poisoned a => some (.poisoned, a)
  | .codeWrite a => some (.codeWrite, a)
  | .absent _ => some (.unmapped, 0)
  | _ => none

/-- Bytes that can be carried from the start of a range up to its first bad place, in whole 16-byte units, with
the stop. -/
def State.carriable (s : State) (who : Who) (write : Bool) (a len : Nat) : Nat × Option CopyStop :=
  match s.checkRange who write a len with
  | some f => match copyStop f with
    | some (c, x) => ((max a x - a) / 16 * 16, some c)
    | none => (len, none)
  | none => (len, none)

/-- A wait that a copy meets: a moving destination or source data held there, a die in reset, the host link. -/
def State.copyWaits (s : State) (who : Who) (src dst len : Nat) : Bool :=
  (blocksOf extentBytes dst len).any (fun x => decide (dst < hostBase) && decide ((s.home x).state = 3))
    || s.heldOver src len
    || (match s.checkRange who false src len with | some (.later _) => true | _ => false)
    || (match s.checkRange who true dst len with | some (.later _) => true | _ => false)

/-- A copy carries its units, in order, up to the first that it cannot carry (R303). DESIGN CHOICE (log entry 62). -/
def State.copyRun (s : State) (h : Nat) (v : Sluice) : State :=
  let who := s.sluiceWho h v
  let src := slSrc v
  let dst := slDest v
  let n := slCount v
  let (nr, sr) := s.carriable who false src n
  let (nw, sw) := s.carriable who true dst n
  let m := min nr nw
  let uses := (s.usesOf who false src m).foldl (fun l u => addUse l u.1 u.2) (addUse (s.usesOf who true dst m) (s.sluiceDike h) m)
  match s.firstShut (slPolder v) uses with
  | some i => s.setDike (slPolder v) i { s.dike (slPolder v) i with holding := true }
  | none =>
    let bs := s.memBytes src m
    let s := (s.charge (slPolder v) uses).write (slCtx v) dst bs
    let s := (s.countCopied h m).setSluice h { v with copied := m }
    if m ≥ n then s.endSluice h 0
    else
      let (c, a) := if nr ≤ nw then (sr, src + m) else (sw, dst + m)
      let code := match c with | some c => c.code | none => 0x0301
      let s := s.post { code := code, sev := 2, die := who.die, cls := 5, index := who.index, ctx := slCtx v,
                        detail := slCtx v % 4096 * 2 ^ 52 + a % 2 ^ 52 }
      (s.endSluice h 3).faultJob (slCtx v) code

/-- SLUICE_COPY: a sluice, or a region lantern's DMA where no tier die serves (R303, R305, R306), carries out a copy
command. DESIGN CHOICE (log entry 62). -/
def execSluiceCopy (handle : Nat) (s : State) : Outcome State Fault Refusal :=
  .next (
    let v := s.sluice handle
    if !v.waits || !slCopy v || !(s.sluiceTurn handle)
      || ((s.sluiceDie handle) ≠ none && !s.tierLantern handle)
      || s.copyWaits (s.sluiceWho handle v) (slSrc v) (slDest v) (slCount v) then s
    else s.copyRun handle v)

/-! ### MOVE (R298, R485, R486) -/

/-- The first field of a sluice command that breaks R298. -/
def moveBad (b : List Byte) : Option Nat :=
  let v : Sluice := { cmd := b }
  let copy := slCopy v
  firstOf [
    (decide (recField b 12 1 > 1), 12),
    (if copy then decide (slSrc v % 16 ≠ 0) else decide (slSrc v % extentBytes ≠ 0), 0),
    (if copy then decide (slCount v % 16 ≠ 0) || decide (slCount v > 2 ^ 31)
      else decide (slCount v = 0) || decide (slCount v > 65536), 8),
    (if copy then decide (slTier v ≠ 0) else decide (slTier v > 2), 13),
    (decide (recField b 14 1 > 3), 14),
    (decide (recField b 15 1 > 15), 15),
    (if copy then decide (slDest v % 16 ≠ 0) else decide (slDest v ≠ 0), 16),
    (decide (recField b 30 2 > 4095), 30)]

/-- The context a command names is refused: no such job, or it is ending; a VF names only its own (R392, R485). -/
def State.targetBad (s : State) (fn ctx : Nat) : Option Nat :=
  let j := s.job ctx
  if ctx = 0 then none
  else if !j.live || j.state = 4 then some 0x0E
  else if fn ≠ 0 && j.fn ≠ fn then some 0x0A
  else if j.faulted || j.state = 3 then some 0x08
  else none

/-- A function may give this sluice command: a VF only in its own polder, over extents of objects that it created (R485). -/
def State.mayMove (s : State) (fn : Nat) (v : Sluice) : Bool :=
  let xs := if slCopy v then blocksOf extentBytes (slSrc v) (slCount v) ++ blocksOf extentBytes (slDest v) (slCount v)
    else blocksOf extentBytes (slSrc v) (slCount v * extentBytes)
  fn = 0 || s.fnMayUse fn (slPolder v) && xs.all (fun x => decide ((s.home x).state = 0) || decide ((s.objOf x).fn = fn))

def execMove (q : Nat) (s : State) : Outcome State Fault Refusal :=
  .next (s.take q 0x1A 2 (fun s r e =>
    let stop (s : State) (status detail : Nat) : State :=
      let v := s.queue r.q
      (s.setQueue r.q { v with owed := v.owed - 1 }).finish r status detail 0
    match s.readDesc e.desc 32 with
    | none => stop s 0x0D 0
    | some b =>
      let v : Sluice := { cmd := b, reply := some r, fn := r.fn }
      match moveBad b with
      | some off => stop s 0x0C off
      | none =>
        if !slCopy v && !s.tierUp then stop s 0x0F 0
        else if !s.mayMove r.fn v then stop (s.refuse (.vf r.fn) e.op) 0x0A 0
        else match s.targetBad r.fn (slCtx v) with
          | some st => stop (if st = 0x0A then s.refuse (.vf r.fn) e.op else s) st 0
          | none => (s.complete r true { result := s.nextHandle }).addSluice v))

/-! ### Afterglow (R309 to R314) -/

/-- A finite element of bounded mode after coding: within the bound of what was written, and otherwise exact; a
zero, an infinity and a NaN stay as they are (R314). -/
def boundElem (c : FpFmt) (b : Fv) (old cand : Nat) : Nat :=
  let x := c.decode old
  let y := c.decode cand
  if x.isFin && y.isFin && !x.isZero && ((y.sub x).abs).le b then cand else old

/-- DESIGN CHOICE (log entry 60). -/
def glowFmt (c : Nat) : FpFmt := if c = 0 then fp32 else if c = 1 then bf16 else fp16

/-- The bytes of an extent after bounded coding. DESIGN CHOICE (log entry 60). -/
def State.boundBytes (s : State) (o : Obj) (x : Nat) : List Byte :=
  let c := glowFmt (odFmt o.desc)
  let n := c.width / 8
  let b := fp32.decode (recField o.desc 24 4)
  (List.range (extentBytes / n)).flatMap (fun i =>
    let at_ := x * extentBytes + i * n
    toBytes n (boundElem c b (ofBytes (s.memBytes at_ n)) (Config.freeNat (s.freeCtr + i) % 2 ^ c.width)))

/-- The old image of an extent stands: what its collected writes replaced comes back. DEDUCED (log entry 61). -/
def State.undoGlow (s : State) (x : Nat) : State :=
  let lo := x * extentBytes
  let mine := s.mem.undo.filter (fun e => decide (lo ≤ e.1) && decide (e.1 < lo + extentBytes))
  { s with mem := { s.mem with
      bytes := mine.foldl (fun m e => mapSet 0 m e.1 (BitVec.ofNat 8 (e.2 - 1))) s.mem.bytes
      undo := mapClear s.mem.undo lo extentBytes
      glow := mapSet 0 s.mem.glow x 0 } }

/-- HOST_MEM_REFUSED, at most once a second (R470, R496). -/
def State.hostRefused (s : State) (path reason fn name : Nat) : State :=
  s.postEachSecond (0x0330 * 4096)
    { code := 0x0330, sev := 1, die := 0x12, cls := 7,
      detail := path * 2 ^ 62 + reason * 2 ^ 59 + fn * 2 ^ 55 + name % 2 ^ 52 }

/-- The mark that a host write leaves on an afterglow extent in place of a context. -/
def hostMark (path fn : Nat) : Nat := 8192 + 16 * path + fn

/-- The writer of an image that found no slices: the host's write is refused, a context's job faults, and the device's
own is dropped (R312). DEDUCED (log entry 61). -/
def State.glowFailed (s : State) (w extent : Nat) : State :=
  if w = 0 then s
  else if w ≥ 8192 then s.hostRefused ((w - 8192) / 16) 4 (w % 16) (extent * extentBytes)
  else
    (s.post { code := 0x0323, sev := 2, die := 0x12, cls := 7, ctx := w,
              detail := w * 2 ^ 52 + extent * extentBytes }).faultJob w 0x0323

/-- AFTERGLOW_IMAGE_SWITCH (R312, R313, R320): the collected writes of an extent become its image, in freshly taken
slices. How many slices the image needs is a free value; 32 stores it uncoded. DESIGN CHOICE (log entry 60). -/
def execAfterglowImageSwitch (extent : Nat) (s : State) : Outcome State Fault Refusal :=
  .next (
    let w := mapGet 0 s.mem.glow extent
    let m := s.home extent
    let o := s.obj m.object
    if w = 0 || !(m.state = 1 || m.state = 2) then s
    else
      let k := 1 + Config.freeNat s.freeCtr % 32
      let s := s.tick
      match s.freeSlices o m.tier k with
      | none => (s.undoGlow extent).glowFailed (w - 1) extent
      | some p =>
        let lo := extent * extentBytes
        let s := s.tick
        let (s, bytes) := if o.glowMode = 2 && k < 32 then
            ({ s with freeCtr := s.freeCtr + extentBytes }, mapPut 0 s.mem.bytes lo (s.boundBytes o extent))
          else (s, s.mem.bytes)
        let s := { s with mem := { s.mem with
          bytes := bytes, undo := mapClear s.mem.undo lo extentBytes, glow := mapSet 0 s.mem.glow extent 0 } }
        s.setHome extent { m with slice := p, slicesM1 := k - 1, state := 2, salt := s.saltFor o m.tier })

/-! ### Hot channels (R318) -/

/-- HOT_CHANNEL_WINDOW: one window of a group of channels or stacks. DEDUCED (log entry 64). -/
def execHotChannelWindow (group : Nat) (counts : List Nat) (busyPercent : Nat) (polder : BitVec 4) (s : State) :
    Outcome State Fault Refusal :=
  .next (
    let sum := counts.sum
    let top := counts.foldl max 0
    let hot := decide (top * counts.length > 4 * sum) && decide (busyPercent ≥ 25)
    let n := if hot then mapGet 0 s.mem.hot group + 1 else 0
    let s := { s with mem := { s.mem with hot := mapSet 0 s.mem.hot group n } }
    if n < 8 then s
    else
      let member := counts.findIdx (fun c => decide (c = top))
      let die := if group < 16 then group / 2 else if group = 16 then member / 2 else 0x10 + member / 4
      let index := if group < 16 then group else if group = 16 then member else 0x10 + member
      s.postEachSecond (0x0320 * 4096 + group)
        { code := 0x0320, sev := 1, die := die, cls := 2, index := index,
          detail := die * 2 ^ 56 + group % 256 * 2 ^ 48 + member % 16 * 2 ^ 44 + polder.toNat * 2 ^ 40
            + min (top * 256 * counts.length / sum) 0xFFFFFFFF })

end Sys2Proof.Machine
end

