-- ==== Sys2Proof/Machine/HostMem.lean ====
section
/-!
DEFINITION. Host access to device memory, bias, the host pool, the HDM decoders and the CXL link (R457 to R479),
power states and VF Enable (R462, R492), and the queue commands that load routes, export windows, groups, cache
sets, code objects and tables (R141, R191, R269, R403, R413, R415).
-/
namespace Sys2Proof.Machine
open Host

/-! ### Host access to device memory (R468 to R472) -/

def bar2Bytes : Nat := 2 ^ 34

/-- The name that a host address reaches: through the BAR2 window of PF0 (R468), or through a committed decoder
(R469). -/
def State.hostName (s : State) (path : HostPath) (fn a : Nat) : Option Nat :=
  match path with
  | .bar2 => if fn = 0 && s.serves 0 && decide (a < bar2Bytes) then some (s.host.bar2 * bar2Bytes + a) else none
  | .cxlMem =>
    if !s.host.cxlMode || s.host.retry then none
    else match s.host.decoders.find? (fun e => e.2.committed && decide (e.2.base ≤ a) && decide (a < e.2.base + e.2.size)) with
      | some (k, d) => some (a - d.base + (if k = 0 then 0 else ddrBase))
      | none => none

def pathNum : HostPath → Nat
  | .cxlMem => 0
  | .bar2 => 1

/-- The frame of the event-log ring, after the 12 frames of the home table (R25). DEDUCED (log entry 67). -/
def logFrame : Nat := 12

/-- Why a host access to one extent is refused, as the reason of R496 (R470, R494). DEDUCED (log entry 66). -/
def State.hostRefusal (s : State) (write : Bool) (a : Nat) : Option Nat :=
  let x := a / extentBytes
  let h := s.home x
  let stack := decide (a < stackEnd)
  firstOf [
    (!stack && !(decide (ddrBase ≤ a) && decide (a < ddrBase + s.ddrBytes) && s.variant != .tbx20d), 2),
    (if stack then !s.host.active1 else !s.host.active2, 3),
    (decide (x < logFrame) || (decide (x = logFrame) && write), 0),
    (decide (x ≠ logFrame) && decide (h.state = 0), 0),
    (decide (h.state = 4), 1),
    (write && s.readOnly x, 5)]

/-- Bytes of the event-log ring as the host reads them (R453, R509). DEDUCED (log entry 67). -/
def State.logBytes (s : State) (off n : Nat) : List Byte :=
  (List.range n).map (fun i =>
    let at_ := off + i
    ((mapGet {} s.ev.log (at_ / 32)).record).getD (at_ % 32) 0)

/-- A CXL.mem access to a device-bias extent first flips it where auto_flip is 1; the flip of a moving extent waits
(R472, R475). DEDUCED (log entry 65). -/
def State.autoFlip (s : State) (path : HostPath) (x : Nat) : State :=
  if path = .cxlMem && s.host.autoFlip && decide (x ≠ logFrame) && !mapGet false s.mem.bias x
      && !s.host.flips.any (fun f => f.extents.contains x) then
    s.flipNow { reply := none, toHost := true, extents := [x] }
  else s

/-- A host access counts against the dikes of the object's polder, which never hold it (R387, R470). -/
def State.hostCharge (s : State) (write : Bool) (a n : Nat) : State :=
  let p := (s.objOf (a / extentBytes)).polder
  s.charge p (addUse (s.usesOf hubWho write a n) 0x34 n)

/-- The part of a host read that lies in one extent: the bytes, and whether they carry poison. DEDUCED (log entry 66). -/
def State.hostReadPart (s : State) (path : HostPath) (fn a n : Nat) : State × List Byte × Bool :=
  let x := a / extentBytes
  match s.hostRefusal false a with
  | some r => (s.hostRefused (pathNum path) r fn a, List.replicate n 0xFF, decide (r ≠ 2))
  | none =>
    if x = logFrame then (s, s.logBytes (a % extentBytes) n, false)
    else if (s.home x).state = 1 then ((s.autoFlip path x).hostCharge false a n, List.replicate n 0, false)
    else match s.dieFail a n with
      | some _ => (s, List.replicate n 0xFF, true)
      | none => ((s.autoFlip path x).hostCharge false a n, s.memBytes a n, (s.poisonIn a n).isSome)

/-- The pieces of a range by extent. -/
def extentPieces (a n : Nat) : List (Nat × Nat) :=
  (blocksOf extentBytes a n).map (fun x =>
    let lo := max a (x * extentBytes)
    (lo, min (a + n) ((x + 1) * extentBytes) - lo))

/-- A die that serves the range is in reset: the access waits (R549). -/
def State.hostWaits (s : State) (a n : Nat) : Bool :=
  (extentPieces a n).any (fun p => match s.dieFail p.1 p.2 with
    | some (.later _) => true
    | _ => false)

/-- HOST_MEM_READ (R468 to R472). -/
def execHostMemRead (path : HostPath) (fn : Nat) (addr : Word) (len : Nat) (s : State) : Outcome State Fault Refusal :=
  .next (match s.hostName path fn addr.toNat with
    | none => s
    | some a =>
      if s.host.speed = 0 || s.hostWaits a len then s
      else
        let (s, bs, bad) := (extentPieces a len).foldl (fun (acc : State × List Byte × Bool) p =>
          let (s', b, q) := acc.1.hostReadPart path fn p.1 p.2
          (s', acc.2.1 ++ b, acc.2.2 || q)) (s, [], false)
        s.setHost { s.host with data := bs, poisoned := bad })

/-- The part of a host write that lies in one extent. -/
def State.hostWritePart (s : State) (path : HostPath) (fn a : Nat) (bs : List Byte) : State :=
  match s.hostRefusal true a with
  | some r => s.hostRefused (pathNum path) r fn a
  | none =>
    if (s.dieFail a bs.length).isSome && (s.home (a / extentBytes)).state ≠ 1 then s
    else ((s.autoFlip path (a / extentBytes)).hostCharge true a bs.length).write (hostMark (pathNum path) fn) a bs

/-- HOST_MEM_WRITE (R468 to R472). -/
def execHostMemWrite (path : HostPath) (fn : Nat) (addr : Word) (data : List Byte) (s : State) :
    Outcome State Fault Refusal :=
  .next (match s.hostName path fn addr.toNat with
    | none => s
    | some a =>
      if s.host.speed = 0 || s.hostWaits a data.length then s
      else (extentPieces a data.length).foldl (fun s p =>
        s.hostWritePart path fn p.1 ((data.drop (p.1 - a)).take p.2)) s)

/-! ### Bias, pool, decoders (R469, R474, R475, R479) -/

/-- The extents of a bias command that the bias table holds. DEDUCED (log entry 65). -/
def biasExtents (first n : Nat) : List Nat :=
  let x := first / extentBytes
  ((List.range (min n 0x200000)).map (· + x)).filter (fun e =>
    decide (e * extentBytes < stackEnd) || (decide (ddrBase ≤ e * extentBytes) && decide (e * extentBytes < ddrEnd)))

/-- DEDUCED (log entry 65). -/
def execBiasSet (q : Nat) (s : State) : Outcome State Fault Refusal :=
  .next (s.take q 0x1B 1 (fun s r e => s.pfOnly r e (fun s =>
    s.flipNow { reply := some r, toHost := e.arg1.testBit 32, extents := biasExtents e.arg0 (e.arg1 % 2 ^ 32) })))

/-- HOST_POOL_ADD (R479, R485). -/
def execHostPoolAdd (q : Nat) (s : State) : Outcome State Fault Refusal :=
  .next (s.take q 0x1C 1 (fun s r e => s.pfOnly r e (fun s =>
    let b := e.arg0
    let n := e.arg1
    let p := s.host.pool
    if b = 0 || b % extentBytes ≠ 0 then s.finish r 0x0C 16 0
    else if n = 0 || n % extentBytes ≠ 0 then s.finish r 0x0C 24 0
    else if p.any (fun x => decide (x.1 < b + n) && decide (b < x.1 + x.2)) then s.finish r 0x0C 16 0
    else if p.length ≥ 64 || (p.map (·.2)).sum + n > 4 * 2 ^ 40 then s.finish r 0x15 0 0
    else (s.setHost { s.host with pool := p ++ [(b, n)] }).finish r 0 0 0)))

/-- HDM_DECODER_COMMIT (R458, R463, R469): base and size in multiples of 256 MiB. DEDUCED (log entry 69). -/
def execHdmDecoderCommit (dec : Nat) (base size : Nat) (ways : Nat) (s : State) : Outcome State Fault Refusal :=
  .next (
    let range := if dec = 0 then stackEnd else s.ddrBytes
    let absent := decide (dec > 1) || (decide (dec = 1) && s.variant = .tbx20d)
    if !s.serves 0 || absent then s
    else
      let g := 2 ^ 28
      let n := size / g * g
      let ok := s.host.cxlMode && decide (ways = 1) && decide (n ≤ range)
      let d : Decoder := if ok then { base := base / g * g, size := n, committed := true } else { notCommitted := true }
      s.setHost { s.host with decoders := mapSet {} s.host.decoders dec d })

/-! ### The CXL link (R457, R459, R460) -/

/-- The lanes in use for a number of good lanes, and the speed codes of R460; fewer than four lanes, or no speed, is
the link down. -/
def linkWidth (n : Nat) : Nat := if n ≥ 16 then 16 else if n ≥ 8 then 8 else if n ≥ 4 then 4 else 0
def linkSpeed (n : Nat) : Nat := if n ≥ 5 then 5 else if n ≥ 3 then n else 0

/-- CXL_LINK_RETRAIN (R459): once the port has trained. DEDUCED (log entry 70). -/
def execCxlLinkRetrain (width : Nat) (speed : Nat) (s : State) : Outcome State Fault Refusal :=
  .next (
    let h := s.host
    if h.retry then s
    else
      let down := decide (linkWidth width = 0) || decide (linkSpeed speed = 0)
      let w := if down then 0 else linkWidth width
      let v := if down then 0 else linkSpeed speed
      let n := satAdd 16 h.retrains 1
      let s := s.setHost { h with width := w, speed := v, retrains := n }
      if !down && (decide (w < h.width) || decide (v < h.speed)) then
        s.post { code := 0x0720, sev := 1, die := 0x12, cls := 7, detail := w * 2 ^ 56 + v * 2 ^ 52 + n * 2 ^ 36 }
      else s)

/-- HOST_ACCESS_TIMEOUT (R459, R496): an access of a slot still waits 1 s after the link went down. -/
def execHostAccessTimeout (a : At) (s : State) : Outcome State Fault Refusal :=
  .next (match (s.at_ a).held with
    | some (.hostLink x) =>
      let ctx := (s.at_ a).id.ctx
      if s.host.speed = 0 then
        ((s.coreEvent a 0x0721 2 (ctx % 4096 * 2 ^ 52 + x % 2 ^ 52)).stopSlot a).faultJob ctx 0x0721
      else s
    | _ => s)

/-- CXL_CACHE_SNOOP (R477): the host snoops a line. A modified line is answered with its data, a clean one without,
and a line not held with a miss. After a data snoop the line is shared, after an invalidating one it is gone.
DESIGN CHOICE (log entry 68). -/
def execCxlCacheSnoop (line : Nat) (kind : SnoopKind) (s : State) : Outcome State Fault Refusal :=
  .next (
    let st := mapGet 0 s.host.lines line
    let bytes := if st = 3 then (s.memBytes (hostKey (64 * line)) 64) else []
    let next := match kind with
      | .data => if st = 0 then 0 else 1
      | .invalidate => 0
      | .current => st
    s.setHost { s.host with lines := mapSet 0 s.host.lines line next, snoop := if st = 0 then none else some bytes })

/-! ### Configuration space (R462, R492) -/

/-- Pending vectors of a function that are not masked are sent (R462, R490). -/
def State.sendPending (s : State) (fn : Nat) : State :=
  s.host.msix.foldl (fun s e =>
    let x := e.2
    if e.1 / 2048 = fn && x.pending && !x.masked then
      s.setMsix fn (e.1 % 2048) { x with pending := false, sent := x.sent + 1 } else s) s

/-- The function answers configuration requests (R492, R494). -/
def State.fnThere (s : State) (fn : Nat) : Bool := !s.host.retry && (fn = 0 || (s.host.vfEnable && decide (fn < 16)))

/-- PM_POWER_STATE_WRITE (R462): D0 or D3hot; interrupts that were held are sent in D0. -/
def execPmPowerStateWrite (fn : Nat) (d3hot : Bool) (s : State) : Outcome State Fault Refusal :=
  .next (
    if !s.fnThere fn then s
    else
      let s := s.setHost { s.host with d3hot := mapSet false s.host.d3hot fn d3hot }
      if d3hot then s else s.sendPending fn)

/-- VF_ENABLE_SET (R492). -/
def execVfEnableSet (s : State) : Outcome State Fault Refusal :=
  .next (if s.host.retry then s else s.setHost { s.host with vfEnable := true })

/-! ### Routes, windows, groups (R403, R413, R415) -/

/-- DEDUCED (log entry 71). -/
def routeOf (b : List Byte) : Route :=
  { mask := recField b 0 8, valid := (recField b 8 1).testBit 0, hopLimit := recField b 9 1 % 16 }

/-- ROUTE_LOAD (R403): the entry of the package's own ID is ignored. DEDUCED (log entry 71). -/
def execRouteLoad (q : Nat) (s : State) : Outcome State Fault Refusal :=
  .next (s.take q 0x38 1 (fun s r e => s.pfOnly r e (fun s =>
    if e.arg0 + e.arg1 > 4096 then s.finish r 0x0C 16 0
    else match s.readDesc e.desc (16 * e.arg1) with
      | none => s.finish r 0x0D 0 0
      | some b =>
        let rs := (List.range e.arg1).foldl (fun m i =>
          let p := e.arg0 + i
          if s.hub.pkgAssigned && p = s.hub.pkgId then m else mapSet {} m p (routeOf (b.drop (16 * i)))) s.levee.routes
        ({ s with levee := { s.levee with routes := rs } } : State).finish r 0 0 0)))

def windowOf (b : List Byte) : ExportWin :=
  { base := recField b 0 8, count := recField b 8 4, kind := recField b 12 1, access := recField b 13 1 % 8,
    polder := recField b 14 1 % 16, valid := (recField b 15 1).testBit 0, anyPackage := (recField b 15 1).testBit 1,
    ctx := recField b 16 2 % 4096, source := recField b 18 2 % 4096 }

/-- The first field of a window entry that breaks R413. -/
def windowBad (b : List Byte) : Option Nat :=
  let w := windowOf b
  firstOf [
    (decide (w.kind > 1), 12),
    (decide (w.kind = 0) && decide (w.base % extentBytes ≠ 0), 0),
    (decide (w.count = 0) || (decide (w.kind = 1) && decide (w.count > 65536)), 8)]

/-- The first bad field of a list of window entries in force, by its offset in the list. DEDUCED (log entry 71). -/
def windowsBad (b : List Byte) (n : Nat) : Option Nat :=
  firstOf ((List.range n).map (fun i =>
    let x := (b.drop (32 * i)).take 32
    match windowBad x with
    | some off => ((windowOf x).valid, 32 * i + off)
    | none => (false, 0)))

/-- EXPORT_LOAD (R413, R572). DEDUCED (log entry 71). -/
def execExportLoad (q : Nat) (s : State) : Outcome State Fault Refusal :=
  .next (s.take q 0x39 1 (fun s r e => s.pfOnly r e (fun s =>
    if e.arg0 + e.arg1 > 256 then s.finish r 0x0C 16 0
    else match s.readDesc e.desc (32 * e.arg1) with
      | none => s.finish r 0x0D 0 0
      | some b =>
        match windowsBad b e.arg1 with
        | some off => s.finish r 0x0C off 0
        | none =>
          let ws := (List.range e.arg1).foldl (fun m i => mapSet {} m (e.arg0 + i) (windowOf (b.drop (32 * i))))
            s.levee.windows
          ({ s with levee := { s.levee with windows := ws } } : State).finish r 0 0 0)))

/-- The first member of a group that repeats, is not this package at the rank, or has no valid route (R415). -/
def State.memberBad (s : State) (ms : List Nat) (rank : Nat) : Option Nat :=
  firstOf ((List.range ms.length).map (fun i =>
    let m := ms.getD i 0
    ((ms.take i).contains m || (if i = rank then !s.hub.pkgAssigned || m ≠ s.hub.pkgId
      else !(s.routeTo m).valid), 32 + 2 * i)))

/-- GROUP_CREATE (R415, R485, R572). DEDUCED (log entry 71). -/
def execGroupCreate (q : Nat) (s : State) : Outcome State Fault Refusal :=
  .next (s.take q 0x3A 1 (fun s r e =>
    match s.readDesc e.desc 32 with
    | none => s.finish r 0x0D 0 0
    | some b =>
      let ctx := recField b 16 2 % 4096
      let n := recField b 10 2
      let rank := recField b 12 2
      let ch := recField b 14 1
      let ix := recField b 8 2 % 1024
      match s.targetBad r.fn ctx with
      | some st => (if st = 0x0A then s.refuse (.vf r.fn) e.op else s).finish r st 0 0
      | none =>
        match firstOf [
            (decide (ctx = 0) || decide (ctx ≠ e.target), 16),
            (decide (n < 2) || decide (n > 4096), 10),
            (decide (rank ≥ n), 12),
            (decide (ch = 0) || decide (ch > 16), 14),
            ((s.group ix).live, 8)] with
        | some off => s.finish r 0x0C off 0
        | none =>
          match s.readDesc (e.desc + 32) (2 * n) with
          | none => s.finish r 0x0D 0 0
          | some l =>
            let ms := (List.range n).map (fun i => recField l (2 * i) 2)
            match s.memberBad ms rank with
            | some off => s.finish r 0x0C off 0
            | none =>
              (s.setGroup ix { live := true, tag := recField b 0 8, members := ms, rank := rank, channels := ch,
                               ctx := ctx, fn := r.fn }).finish r 0 0 ix))

/-- GROUP_DESTROY (R485): refused while a collective of the group is under way. DEDUCED (log entry 71). -/
def execGroupDestroy (q : Nat) (s : State) : Outcome State Fault Refusal :=
  .next (s.take q 0x3B 1 (fun s r e =>
    let g := s.group e.arg1
    if e.arg1 ≥ 1024 || !g.live then s.finish r 0x0E 0 0
    else if r.fn ≠ 0 && g.fn ≠ r.fn then (s.refuse (.vf r.fn) e.op).finish r 0x0A 0 0
    else if s.levee.colls.any (fun c => decide (c.group = e.arg1)) then s.finish r 0x15 0 0
    else (s.setGroup e.arg1 {}).finish r 0 0 0))

/-! ### Cache sets (R268, R269) -/

/-- CACHESET_CREATE (R268, R269, R485). DEDUCED (log entry 71). -/
def execCachesetCreate (q : Nat) (s : State) : Outcome State Fault Refusal :=
  .next (s.take q 0x20 1 (fun s r e =>
    match s.targetBad r.fn e.target with
    | some st => (if st = 0x0A then s.refuse (.vf r.fn) e.op else s).finish r st 0 0
    | none =>
      match s.pickId (fun i => (s.set i).live) 0 255 s.sets.length with
      | none => s.finish r 0x10 0 0
      | some i =>
        let s := s.tick
        if e.target = 0 then s.finish r 0x0E 0 0
        else if e.desc % 64 ≠ 0 then s.finish r 0x0C 8 0
        else match s.readDesc e.desc 128 with
          | none => s.finish r 0x0D 0 0
          | some c =>
            match csdBad c with
            | some off => s.finish r 0x11 off 0
            | none => match s.csdUnmapped c with
              | some off => s.finish r 0x11 off 0
              | none => (s.buildSet i e.target e.desc c).finish r 0 0 i))

/-- CACHESET_DESTROY (R269, R485). -/
def execCachesetDestroy (q : Nat) (s : State) : Outcome State Fault Refusal :=
  .next (s.take q 0x21 1 (fun s r e =>
    let v := s.set e.arg1
    if e.arg1 ≥ 256 || !v.live then s.finish r 0x0E 0 0
    else if r.fn ≠ 0 && (s.job v.ctx).fn ≠ r.fn then (s.refuse (.vf r.fn) e.op).finish r 0x0A 0 0
    else if s.setBusy e.arg1 then s.finish r 0x12 0 0
    else (s.dropSet e.arg1).finish r 0 0 0))

/-! ### Code objects (R140 to R142) -/

def chCode (h : List Byte) : Nat := recField h 8 8
def chConst (h : List Byte) : Nat := recField h 16 8
def chEntries (h : List Byte) : Nat := recField h 24 4
def chEntry (h : List Byte) (i : Nat) : Nat := recField h (64 + 8 * i) 8
/-- Where the constant section starts: the next 256-byte boundary after the code (R140). -/
def chConstAt (h : List Byte) : Nat := 256 + ceilDiv (chCode h) 256 * 256

/-- Reserved parts of a header are not 0: check 0x0B of R141. -/
def headReserved (h : List Byte) : Bool :=
  decide (recField h 7 1 ≠ 0)
    || (List.range 24).any (fun i =>
      if i < chEntries h then decide (fieldOf (chEntry h i) 48 16 ≠ 0) else decide (chEntry h i ≠ 0))

/-- The first check of R141 that a header fails, the digest and what follows it apart. DEDUCED (log entry 72). -/
def headBad (h : List Byte) : Option Nat :=
  let es := (List.range (min 24 (chEntries h))).map (chEntry h)
  firstOf [
    (decide (recField h 0 4 ≠ 0x32525448), 0x01),
    (decide (recField h 4 2 ≠ 1) && decide (recField h 4 2 ≠ 2), 0x02),
    (decide (recField h 6 1 > 2), 0x08),
    (decide (chCode h % 8 ≠ 0), 0x09),
    (decide (chEntries h = 0) || decide (chEntries h > 24), 0x0A),
    (headReserved h, 0x0B),
    (es.any (fun x => decide (x % 2 ^ 32 ≥ chCode h) || decide (x % 8 ≠ 0)), 0x03),
    (es.any (fun x => decide (fieldOf x 32 8 = 0) || decide (fieldOf x 32 8 > 48) || decide (fieldOf x 40 8 > 32)), 0x04)]

/-- The code object of a header. -/
def codeOf (h : List Byte) (addr fn : Nat) : CodeObj :=
  let v := recField h 4 2
  { addr := addr, version := v, profile := if v = 1 then 1 else recField h 6 1, codeBytes := chCode h,
    constBytes := chConst h,
    entries := (List.range (chEntries h)).map (fun i =>
      let x := chEntry h i
      (x % 2 ^ 32, fieldOf x 32 8, fieldOf x 40 8)),
    units := recField h 28 4, fn := fn }

/-- Both sections of a code object, one after the other, where the hub can read them. -/
def State.sections (s : State) (addr : Nat) (h : List Byte) : Option (List Byte) :=
  if chCode h > 2 ^ 45 || chConst h > 2 ^ 45 then none
  else match s.readDesc (addr + 256) (chCode h) with
    | none => none
    | some c => if chConst h = 0 then some c else (s.readDesc (addr + chConstAt h) (chConst h)).map (c ++ ·)

/-- CODE_LOAD (R140 to R142, R572). A VF loads only from objects that it created. DEDUCED (log entry 72). -/
def execCodeLoad (q : Nat) (s : State) : Outcome State Fault Refusal :=
  .next (s.take q 0x10 1 (fun s r e =>
    let a := e.desc
    if a % 4096 ≠ 0 then s.finish r 0x14 0x07 0
    else if r.fn ≠ 0 && a < hostBase && (s.objOf (a / extentBytes)).fn ≠ r.fn then
      (s.refuse (.vf r.fn) e.op).finish r 0x0A 0 0
    else match s.readDesc a 256 with
      | none => s.finish r 0x0D 0 0
      | some h =>
        match headBad h with
        | some n => s.finish r 0x14 n 0
        | none => match s.sections a h with
          | none => s.finish r 0x0D 0 0
          | some d =>
            if Config.shake256 d 32 ≠ (h.drop 32).take 32 then s.finish r 0x14 0x05 0
            else if recField h 4 2 = 1 && recField h 6 1 = 0 then s.finish r 0x14 0x06 0
            else match s.pickId (fun i => decide ((s.code i).version ≠ 0)) 1 65535 s.codes.length with
              | none => s.finish r 0x14 0xFF 0
              | some i =>
                let s := s.tick
                ({ s with codes := mapSet {} s.codes i (codeOf h a r.fn) } : State).finish r 0 0 i))

/-- The stage map of a live job names the code object (R142). -/
def State.codeNamed (s : State) (i : Nat) : Bool :=
  s.jobs.any (fun j => j.2.live && decide (j.2.state ≠ 4) && j.2.stages.any (fun g => decide (g.code = i)))

/-- Instruction lines of a code object invalidated everywhere (R60, R573). -/
def State.dropLines (s : State) (i : Nat) : State :=
  s.cores.foldl (fun s c =>
    let k := s.core c.1
    s.setCore c.1 { k with icache := k.icache.filter (fun l => decide (l.1 ≠ i)) }) s

/-- A code object unloaded. -/
def State.unload (s : State) (i : Nat) : State :=
  ({ s with codes := mapSet {} s.codes i {} } : State).dropLines i

/-- CODE_UNLOAD (R142, R485). -/
def execCodeUnload (q : Nat) (s : State) : Outcome State Fault Refusal :=
  .next (s.take q 0x11 1 (fun s r e =>
    let i := e.arg1
    let c := s.code i
    if c.version = 0 then s.finish r 0x0E 0 0
    else if r.fn ≠ 0 && c.fn ≠ r.fn then (s.refuse (.vf r.fn) e.op).finish r 0x0A 0 0
    else if s.codeNamed i then s.finish r 0x15 0 0
    else (s.unload i).finish r 0 0 0))

/-! ### Tables (R191) -/

/-- TABLE_RELOAD (R191, R485): the reloads of the regions named are requested. DEDUCED (log entry 73). -/
def execTableReload (q : Nat) (s : State) : Outcome State Fault Refusal :=
  .next (s.take q 0x48 1 (fun s r e => s.pfOnly r e (fun s =>
    (((List.range 16).filter (fun i => e.arg0.testBit i)).foldl State.tableRequest s).finish r 0 0 0)))

end Sys2Proof.Machine
end

