-- ==== Sys2Proof/Machine/Picture.lean ====
section
/-!
DEFINITION. The arithmetic of pictures: normalisation, chroma, colour, pyramids, crops and output elements of the
ingest pipeline (R326, R334 to R336). Every step is rounded to FP32.
-/
namespace Sys2Proof.Machine

def add32 (a b : Fv) : Fv := (a.add b).r32
def sub32 (a b : Fv) : Fv := (a.sub b).r32
def mul32 (a b : Fv) : Fv := (a.mul b).r32
def div32f (a b : Fv) : Fv := fp32.decode (a.div32 b)
def ratio32 (n : Int) (d : Nat) : Fv := div32f (.ofInt n) (.ofInt d)

/-- A decoded or raw picture: its size and depth, the subsampling of its chroma and the siting of a chroma sample in
half luma samples, its colour description (matrix 1 BT.601, 2 BT.709, 3 BT.2020), and its components by plane, x, y.
-/
structure Pic where
  w : Nat
  h : Nat
  depth : Nat
  sx : Nat
  sy : Nat
  siteX : Nat
  siteY : Nat
  rgb : Bool
  full : Bool
  matrix : Nat
  px : Nat → Nat → Nat → Nat

/-- The place nearest to `i` in a row of `n` (R335, R336: the edge is repeated). -/
def clampAt (i : Int) (n : Nat) : Nat := if i < 0 then 0 else min i.toNat (n - 1)

/-! ### Step 1: normalisation (R334) -/

def Pic.luma (p : Pic) (v : Nat) : Fv :=
  if p.full || p.rgb then ratio32 v (2 ^ p.depth - 1)
  else ratio32 ((v : Int) - 16 * 2 ^ (p.depth - 8)) (219 * 2 ^ (p.depth - 8))

def Pic.chroma (p : Pic) (v : Nat) : Fv :=
  if p.full then ratio32 ((v : Int) - 2 ^ (p.depth - 1)) (2 ^ p.depth - 1)
  else ratio32 ((v : Int) - 128 * 2 ^ (p.depth - 8)) (224 * 2 ^ (p.depth - 8))

/-! ### Step 2: chroma at every pixel (R334) -/

/-- The value between two neighbours, `f / d` of the way. -/
def between (a b : Fv) (f d : Nat) : Fv :=
  if f = 0 then a else add32 (mul32 a (ratio32 (d - f : Nat) d)) (mul32 b (ratio32 f d))

/-- The neighbours of luma place `x` in a subsampled row of `n`, and how far it lies between them. -/
def siteOf (x s site n : Nat) : Nat × Nat × Nat :=
  let u : Int := 2 * (x : Int) - site
  let k : Int := u / (2 * s : Nat)
  (clampAt k n, clampAt (k + 1) n, (u - k * (2 * s : Nat)).toNat)

/-- PRESUMED (log entry 76). -/
def Pic.chromaAt (p : Pic) (plane x y : Nat) : Fv :=
  let (x0, x1, fx) := siteOf x p.sx p.siteX (ceilDiv p.w p.sx)
  let (y0, y1, fy) := siteOf y p.sy p.siteY (ceilDiv p.h p.sy)
  let row (j : Nat) : Fv := between (p.chroma (p.px plane x0 j)) (p.chroma (p.px plane x1 j)) fx (2 * p.sx)
  between (row y0) (row y1) fy (2 * p.sy)

/-! ### Step 3: colour (R334) -/

/-- Kr and Kb of a matrix in ten-thousandths, from its standard. PRESUMED (log entry 76). -/
def matrixK (m : Nat) : Nat × Nat :=
  match m with
  | 1 => (2990, 1140)
  | 3 => (2627, 593)
  | _ => (2126, 722)

def clamp01 (v : Fv) : Fv := if v.lt .zero then .zero else if (Fv.ofInt 1).lt v then .ofInt 1 else v

/-- R, G and B of luma and chroma by a matrix, clamped to [0, 1]. PRESUMED (log entry 76). -/
def toRgb (m : Nat) (y cb cr : Fv) (c : Nat) : Fv :=
  let (kr, kb) := matrixK m
  let kg := 10000 - kr - kb
  match c with
  | 0 => clamp01 (add32 y (mul32 (ratio32 (2 * (10000 - kr) : Nat) 10000) cr))
  | 1 => clamp01 (sub32 (sub32 y (mul32 (ratio32 (2 * kb * (10000 - kb) : Nat) (10000 * kg)) cb))
      (mul32 (ratio32 (2 * kr * (10000 - kr) : Nat) (10000 * kg)) cr))
  | _ => clamp01 (add32 y (mul32 (ratio32 (2 * (10000 - kb) : Nat) 10000) cb))

/-- Luma of R, G and B by a matrix. -/
def lumaOf (m : Nat) (r g b : Fv) : Fv :=
  let (kr, kb) := matrixK m
  add32 (add32 (mul32 (ratio32 (kr : Nat) 10000) r) (mul32 (ratio32 (10000 - kr - kb : Nat) 10000) g))
    (mul32 (ratio32 (kb : Nat) 10000) b)

/-- Cb (1) or Cr (2) of R, G and B by a matrix, within [-1/2, 1/2]. -/
def chromaOf (m : Nat) (r g b : Fv) (c : Nat) : Fv :=
  let (kr, kb) := matrixK m
  let y := lumaOf m r g b
  if c = 1 then div32f (sub32 b y) (ratio32 (2 * (10000 - kb) : Nat) 10000)
  else div32f (sub32 r y) (ratio32 (2 * (10000 - kr) : Nat) 10000)

/-- A channel of the converted frame: R, G, B, or Y, Cb, Cr with chroma offset to [0, 1]. -/
def Pic.chan (p : Pic) (ycc : Bool) (c x y : Nat) : Fv :=
  let half := ratio32 1 2
  if p.rgb then
    let v (k : Nat) := p.luma (p.px k x y)
    if !ycc then v c
    else if c = 0 then lumaOf p.matrix (v 0) (v 1) (v 2)
    else add32 (chromaOf p.matrix (v 0) (v 1) (v 2) c) half
  else
    let l := p.luma (p.px 0 x y)
    if ycc then if c = 0 then l else add32 (p.chromaAt c x y) half
    else toRgb p.matrix l (p.chromaAt 1 x y) (p.chromaAt 2 x y) c

/-! ### Pyramid (R335) -/

/-- A plane of FP32 values and its size. -/
structure Plane where
  w : Nat
  h : Nat
  at_ : Nat → Nat → Fv

/-- The taps of a halving: the first offset from twice the output place, and the weights as FP32 codes (R335). -/
def halvingTaps (filter : Nat) : Int × List Nat :=
  match filter with
  | 0 => (0, [0x3F000000, 0x3F000000])
  | 1 => (-1, [0x3E000000, 0x3EC00000, 0x3EC00000, 0x3E000000])
  | _ => (-5, [0x3B71C56C, 0x3C76AE0A, 0xBD0B4226, 0xBD887925, 0x3E0AC1E6, 0x3EE48CA0,
               0x3EE48CA0, 0x3E0AC1E6, 0xBD887925, 0xBD0B4226, 0x3C76AE0A, 0x3B71C56C])

/-- A weighted sum in order, each step rounded. -/
def sum32 : List (Fv × Fv) → Fv
  | [] => .zero
  | [(w, v)] => mul32 w v
  | (w, v) :: l => add32 (mul32 w v) (sum32 l)

/-- One output of a halving from a row given by place. -/
def halveRow (filter n x : Nat) (row : Nat → Fv) : Fv :=
  let (o, ts) := halvingTaps filter
  sum32 ((ts.zipIdx).map (fun t => (fp32.decode t.1, row (clampAt (2 * (x : Int) + o + t.2) n)))).reverse

def Plane.halve (p : Plane) (filter : Nat) : Plane :=
  { w := ceilDiv p.w 2, h := ceilDiv p.h 2,
    at_ := fun x y => halveRow filter p.h y (fun j => halveRow filter p.w x (fun i => p.at_ i j)) }

def Plane.level (p : Plane) (filter : Nat) : Nat → Plane
  | 0 => p
  | l + 1 => (p.level filter l).halve filter

/-- The places of level 0 that a run of places of level `l` draws on, before clamping (R341). -/
def levelDraws (filter : Nat) : Nat → Int × Int → Int × Int
  | 0, r => r
  | l + 1, r =>
    let (o, ts) := halvingTaps filter
    levelDraws filter l (2 * r.1 + o, 2 * r.2 + o + ts.length - 1)

/-! ### Crops (R336) -/

/-- A box: its edges in level 0, output size and level. -/
structure CropBox where
  x0 : Fv
  y0 : Fv
  x1 : Fv
  y1 : Fv
  outW : Nat
  outH : Nat
  level : Nat

def cropBox (b : List Byte) : CropBox :=
  let f (i : Nat) := fp32.decode (recField b i 4)
  { x0 := f 0, y0 := f 4, x1 := f 8, y1 := f 12, outW := recField b 16 2, outH := recField b 18 2,
    level := recField b 20 1 }

/-- A box entry that breaks R336. -/
def boxBad (levels : Nat) (b : List Byte) : Bool :=
  let c := cropBox b
  !c.x0.lt c.x1 || !c.y0.lt c.y1 || !c.x1.isFin || !c.y1.isFin || !c.x0.isFin || !c.y0.isFin
    || c.outW = 0 || c.outW > 4096 || c.outH = 0 || c.outH > 4096 || c.level ≥ levels
    || (b.drop 21).any (· ≠ 0)

/-- The centre of output place `i` of `n` in the source level. -/
def cropCentre (a b : Fv) (n level i : Nat) : Fv :=
  let step := mul32 (add32 (.ofInt i) (ratio32 1 2)) (sub32 b a)
  sub32 (div32f (add32 a (div32f step (.ofInt n))) (.ofInt (2 ^ level : Nat))) (ratio32 1 2)

/-- How far the filter is stretched: the scale factor where the box shrinks, else 1. -/
def cropStretch (a b : Fv) (n level : Nat) : Fv :=
  let k := div32f (div32f (sub32 b a) (.ofInt n)) (.ofInt (2 ^ level : Nat))
  if (Fv.ofInt 1).lt k then k else .ofInt 1

/-- A kernel at a distance: box, bilinear, or Lanczos with a = 3. -/
def kernel (lanczos : Nat → Nat) (filter : Nat) (t : Fv) : Fv :=
  match filter with
  | 0 => if (ratio32 (-1) 2).le t && t.lt (ratio32 1 2) then .ofInt 1 else .zero
  | 1 => if t.abs.lt (.ofInt 1) then sub32 (.ofInt 1) t.abs else .zero
  | _ => if t.abs.lt (.ofInt 3) then fp32.decode (lanczos (fp32.round t)) else .zero

def kernelReach (filter : Nat) : Nat := match filter with | 0 => 1 | 1 => 1 | _ => 3

/-- The source places that an output place draws on. -/
def cropPlaces (filter : Nat) (c k : Fv) : Int × Int :=
  let r := (mul32 k (.ofInt (kernelReach filter))).toIntRne + 1
  (c.toIntRne - r, c.toIntRne + r)

/-- One output of a stretched filter over a row given by place, the weights normalised. -/
def cropRow (lanczos : Nat → Nat) (filter n : Nat) (c k : Fv) (row : Nat → Fv) : Fv :=
  let (lo, hi) := cropPlaces filter c k
  let ws := (List.range ((hi - lo).toNat + 1)).map (fun (i : Nat) =>
    let j := lo + (i : Int)
    (kernel lanczos filter (div32f (sub32 (.ofInt j) c) k), row (clampAt j n)))
  let ws := ws.filter (fun e => !e.1.isZero)
  div32f (sum32 ws.reverse) (sum32 ((ws.map (fun e => (e.1, Fv.ofInt 1))).reverse))

def Plane.crop (p : Plane) (lanczos : Nat → Nat) (filter : Nat) (b : CropBox) : Plane :=
  { w := b.outW, h := b.outH,
    at_ := fun x y =>
      let cx := cropCentre b.x0 b.x1 b.outW b.level x
      let cy := cropCentre b.y0 b.y1 b.outH b.level y
      cropRow lanczos filter p.h cy (cropStretch b.y0 b.y1 b.outH b.level) (fun j =>
        cropRow lanczos filter p.w cx (cropStretch b.x0 b.x1 b.outW b.level) (fun i => p.at_ i j)) }

/-! ### Step 4: output elements (R334) -/

/-- The code of an output element and whether it saturated: UINT8, BF16 or E4M3. -/
def outElem (fmt : Nat) (mean inv scale v : Fv) : Nat × Bool :=
  if fmt = 0xE then
    let i := (mul32 v (.ofInt 255)).toIntRne
    (if i < 0 then 0 else min i.toNat 255, false)
  else
    let x := mul32 (sub32 v mean) inv
    if fmt = 1 then (bf16.round x, false) else quantElem 3 scale x

end Sys2Proof.Machine
end

