-- ==== Sys2Proof/Machine/Media.lean ====
section
/-!
DEFINITION. Footage ingest (chapter 11): batch queues, sample requests, decoding on stream contexts, samples and
their records, the batch assembler and the decoded-sample cache.
-/
namespace Sys2Proof.Machine
open Host

/-! ### Media dies and stream contexts (R323, R327) -/

def State.setMedia (s : State) (m : Media) : State := { s with media := m }
def State.bq (s : State) (h : Nat) : BatchQ := mapGet {} s.media.queues h
def State.setBq (s : State) (h : Nat) (v : BatchQ) : State :=
  s.setMedia { s.media with queues := mapSet {} s.media.queues h v }
def State.enc (s : State) (h : Nat) : EncStream := mapGet {} s.media.encs h
def State.setEnc (s : State) (h : Nat) (v : EncStream) : State :=
  s.setMedia { s.media with encs := mapSet {} s.media.encs h v }
def State.stream (s : State) (k i : Nat) : StreamUse := mapGet .none_ s.media.streams (64 * k + i)
def State.setStream (s : State) (k i : Nat) (v : StreamUse) : State :=
  s.setMedia { s.media with streams := mapSet .none_ s.media.streams (64 * k + i) v }
def BatchQ.live (v : BatchQ) : Bool := !v.desc.isEmpty
def EncStream.live (v : EncStream) : Bool := !v.desc.isEmpty

/-- Media work of a context on a media die can run: on the die, or emulated for the compatibility profile on TBX-20C
(R145, R323, R350). -/
def State.mediaUp (s : State) (k ctx : Nat) : Bool :=
  s.dieUp (8 + k) || (s.variant = .tbx20c && (s.job ctx).profile)

/-- The lantern that runs ingest (0) or the engines (1) of a media die, or the hub's, is running (R12). -/
def State.mediaLantern (s : State) (k w : Nat) : Bool :=
  if s.variant = .tbx20c then true else s.dieUp (8 + k) && !s.lanternDown (16 + 2 * k + w)

/-- The agent of a context's media work. -/
def State.mediaWho (s : State) (k eng ctx polder : Nat) : Who :=
  { ctx := ctx, polder := polder, die := if s.variant = .tbx20c then 0x12 else 8 + k, cls := 4, index := 2 * k + eng,
    profile := (s.job ctx).profile }

/-- An access of an agent of a context that is no core: it waits, fails as a job fault, or acts (R34, R437). -/
def State.agentDo (s : State) (who : Who) (write : Bool) (g n : Nat) (act : State → State) : State :=
  match s.devStop who write g n with
  | none => act (s.devSpend who write g n)
  | some (.dike p i) => s.setDike p i { s.dike p i with holding := true }
  | some (.access (.later _)) => s
  | some (.access f) =>
    let (code, detail) := f.event who.ctx
    (s.post { code := code, sev := 2, die := who.die, cls := who.cls, index := who.index, ctx := who.ctx,
              detail := detail }).faultJob who.ctx code
  | some _ => s

/-- The first emulated use of a unit class by a context, outside a core (R146). DEDUCED (log entry 83). -/
def State.emulateFor (s : State) (ctx cls : Nat) : State :=
  let j := s.job ctx
  if j.emulated.contains cls then s
  else (s.post { code := 0x0110, sev := 0, die := 0x12, cls := 7, ctx := ctx, detail := cls * 2 ^ 32 }).setJob ctx
    { j with emulated := j.emulated ++ [cls] }

/-- A context's media work goes on: its job neither suspends nor ends (R348, R371). -/
def State.jobGoes (s : State) (ctx : Nat) : Bool :=
  let j := s.job ctx
  j.live && decide (j.state = 0) && !j.faulted

/-- A free stream context of a media die; which one is taken is a free value. -/
def State.freeStream (s : State) (k : Nat) : Option Nat :=
  s.pickId (fun i => decide (s.stream k i ≠ .none_)) 0 63 64

/-- A media event (R349, R372). DEDUCED (log entry 83). -/
def State.mediaEv (s : State) (k ctx code sev detail : Nat) : Ev :=
  { code := code, sev := sev, die := if s.variant = .tbx20c then 0x12 else 8 + k, cls := 1,
    index := 16 + 2 * k, ctx := ctx, detail := k % 4 * 2 ^ 62 + detail }

def State.mediaEvent (s : State) (k ctx code sev detail : Nat) : State := s.post (s.mediaEv k ctx code sev detail)

def ingestDetail (reason id : Nat) : Nat := reason % 64 * 2 ^ 56 + id % 2 ^ 48

/-! ### The batch-queue descriptor (R331) -/

def bqDie (b : List Byte) : Nat := recField b 0 1 % 4
def bqFill (b : List Byte) : Bool := (recField b 1 1).testBit 0
def bqReplace (b : List Byte) : Bool := (recField b 1 1).testBit 1
def bqSlots (b : List Byte) : Nat := recField b 2 2
def bqParallel (b : List Byte) : Nat := recField b 4 2
def bqFactor (b : List Byte) : Nat := let f := recField b 6 1; if f = 0 then 20 else f
def bqPolder (b : List Byte) : Nat := recField b 7 1 % 16
def bqReqRing (b : List Byte) : Nat := recField b 8 8
def bqReqEntries (b : List Byte) : Nat := recField b 16 4
def bqReqSem (b : List Byte) : Nat := recField b 20 2
def bqBatchSem (b : List Byte) : Nat := recField b 22 2
def bqBatchRing (b : List Byte) : Nat := recField b 24 8
def bqBatchEntries (b : List Byte) : Nat := recField b 32 4
def bqFreeSem (b : List Byte) : Nat := recField b 36 2
def bqFirstDeadline (b : List Byte) : Nat := let m := recField b 38 2; if m = 0 then 1000 else m
def bqPool (b : List Byte) : Nat := recField b 40 8
def bqBuffers (b : List Byte) : Nat := recField b 48 4
def bqKib (b : List Byte) : Nat := recField b 52 4
def bqCache (b : List Byte) : Nat := recField b 56 8
/-- Bytes of a batch-ring entry. -/
def bqEntryBytes (b : List Byte) : Nat := ceilDiv (64 + 32 * bqSlots b) 64 * 64
def bqBuffer (b : List Byte) (i : Nat) : Nat := bqPool b + i * bqKib b * 1024

def inRange (x lo hi : Nat) : Bool := decide (lo ≤ x) && decide (x ≤ hi)

/-- The cache descriptor of a queue breaks R345 or cannot be read. -/
def State.cacheBad (s : State) (b : List Byte) : Bool :=
  bqCache b ≠ 0 && (match s.readDesc (bqCache b) 32 with
    | none => true
    | some c => decide (recField c 0 8 % extentBytes ≠ 0) || decide (recField c 8 8 % extentBytes ≠ 0)
        || !inRange (recField c 24 4) 1 16777216)

/-- The first field of a batch-queue descriptor that breaks R331. -/
def State.bqBad (s : State) (b : List Byte) : Option Nat :=
  firstOf [
    (decide (recField b 0 1 > 3), 0),
    (decide (recField b 1 1 > 3), 1),
    (!inRange (bqSlots b) 1 4096, 2),
    (!inRange (bqParallel b) 1 32, 4),
    (decide (recField b 7 1 > 15), 7),
    (decide (bqReqRing b % 128 ≠ 0), 8),
    (!inRange (bqReqEntries b) 1 65536, 16),
    (decide (bqBatchRing b % 64 ≠ 0), 24),
    (!inRange (bqBatchEntries b) 1 1024, 32),
    (decide (bqPool b % extentBytes ≠ 0), 40),
    (!inRange (bqBuffers b) 1 65536, 48),
    (decide (bqKib b = 0) || decide (bqKib b % 4 ≠ 0), 52),
    (s.cacheBad b, 56)]

/-- No media die is fitted and no emulated one stands in for it: the package has none, and the context is not a live one
of the compatibility profile (R5, R323, R350). -/
def State.noMedia (s : State) (ctx : Nat) : Bool :=
  s.variant = .tbx20c && !((s.job ctx).live && (s.job ctx).profile)

/-- BATCHQ_CREATE (R323, R331, R485). DEDUCED (log entry 83). -/
def execBatchqCreate (q : Nat) (s : State) : Outcome State Fault Refusal :=
  .next (s.take q 0x28 1 (fun s r e =>
    if s.noMedia e.target then s.finish r 0x0F 0 0
    else match s.targetBad r.fn e.target with
    | some st => (if st = 0x0A then s.refuse (.vf r.fn) e.op else s).finish r st 0 0
    | none =>
      if e.target = 0 then s.finish r 0x0E 0 0
      else match s.readDesc e.desc 64 with
        | none => s.finish r 0x0D 0 0
        | some b =>
          match s.bqBad b with
          | some off => s.finish r 0x0C off 0
          | none =>
            if !s.mediaUp (bqDie b) e.target then s.finish r 0x0F 0 0
            else if !s.fnMayUse r.fn (bqPolder b) then (s.refuse (.vf r.fn) e.op).finish r 0x02 7 0
            else
              let h := s.nextHandle
              let s := if s.variant = .tbx20c then s.emulateFor e.target 0 else s
              (({ s with nextHandle := h + 1 } : State).setBq h { desc := b, ctx := e.target, fn := r.fn }).finish r 0 0 h))

/-- The stream context of a request given back. -/
def State.dropStream (s : State) (k : Nat) (i : Option Nat) : State :=
  match i with
  | some i => s.setStream k i .none_
  | none => s

/-- A queue ends at once: its requests, buffers and stream contexts are given back. DEDUCED (log entry 80). -/
def State.dropBq (s : State) (h : Nat) : State :=
  let v := s.bq h
  let s := v.reqs.foldl (fun s r => s.dropStream (bqDie v.desc) r.stream) (s.setBq h {})
  let s := match v.waiting with | some r => s.finish r 0x08 0 0 | none => s
  match v.cancelReq with | some r => s.finish r 0 0 0 | none => s

/-- BATCHQ_DESTROY (R323, R485). DEDUCED (log entries 80 and 83). DEDUCED (log entry 80). -/
def execBatchqDestroy (q : Nat) (s : State) : Outcome State Fault Refusal :=
  .next (s.take q 0x29 1 (fun s r e =>
    let v := s.bq e.arg1
    if !v.live then s.finish r (if s.variant = .tbx20c then 0x0F else 0x0E) 0 0
    else if r.fn ≠ 0 && v.fn ≠ r.fn then (s.refuse (.vf r.fn) e.op).finish r 0x0A 0 0
    else (s.dropBq e.arg1).finish r 0 0 0))

/-! ### Sample requests (R332) -/

def rqId (b : List Byte) : Nat := recField b 0 6
def rqSrc (b : List Byte) : Nat := recField b 8 8
def rqOff (b : List Byte) : Nat := recField b 24 8
def rqLen (b : List Byte) : Nat := recField b 32 8
def rqCodec (b : List Byte) : Nat := recField b 40 1
/-- DESIGN CHOICE (log entry 75). -/
def rqRaw (b : List Byte) : Nat := recField b 41 1
def rqFirst (b : List Byte) : Nat := recField b 44 4
def rqCount (b : List Byte) : Nat := recField b 48 2
def rqStep (b : List Byte) : Nat := recField b 50 1
def rqLevels (b : List Byte) : Nat := recField b 51 1
def rqFilter (b : List Byte) : Nat := recField b 52 1
def rqColour (b : List Byte) : Nat := recField b 53 1
def rqFmt (b : List Byte) : Nat := recField b 54 1
def rqFlags (b : List Byte) : Nat := recField b 55 1
def rqBoxes (b : List Byte) : Nat := recField b 56 2
def rqCellW (b : List Byte) : Nat := recField b 58 1
def rqCellH (b : List Byte) : Nat := recField b 59 1
def rqCellT (b : List Byte) : Nat := recField b 60 1
def rqMvLog (b : List Byte) : Nat := recField b 61 1
def rqBoxList (b : List Byte) : Nat := recField b 64 8
def rqMv (b : List Byte) : Nat := recField b 72 8
def rqPerFrame (b : List Byte) : Bool := (rqFlags b).testBit 0
def rqCacheEn (b : List Byte) : Bool := (rqFlags b).testBit 1
def rqCausal (b : List Byte) : Bool := (rqFlags b).testBit 2
def rqMvEn (b : List Byte) : Bool := (rqFlags b).testBit 3
def rqOverride (b : List Byte) : Bool := (rqFlags b).testBit 4
def rqIsRaw (b : List Byte) : Bool := rqCodec b = 4
/-- Samples of a request (R333). -/
def rqSamples (b : List Byte) : Nat := if rqBoxes b > 256 then 1 else max 1 (rqBoxes b)
/-- Frames that are decoded, up to the last one emitted. -/
def rqDecoded (b : List Byte) : Nat := rqFirst b + (rqCount b - 1) * rqStep b + 1
/-- Display index of the k-th emitted frame. -/
def rqFrame (b : List Byte) (k : Nat) : Nat := rqFirst b + k * rqStep b

/-- The entry of box `i` for the k-th emitted frame (R336). -/
def State.boxOf (s : State) (b : List Byte) (i k : Nat) : List Byte :=
  s.memBytes (rqBoxList b % 2 ^ 52 + 32 * ((if rqPerFrame b then k * rqBoxes b else 0) + i)) 32

/-- Entries of a request's box list. -/
def rqBoxEntries (b : List Byte) : Nat := if rqPerFrame b then rqCount b * rqBoxes b else rqBoxes b

/-- The box list breaks R336, or the output sizes of a sample's boxes differ. -/
def State.boxesBad (s : State) (b : List Byte) : Bool :=
  (List.range (rqBoxEntries b)).any (fun n =>
    let e := s.memBytes (rqBoxList b % 2 ^ 52 + 32 * n) 32
    let f := s.boxOf b (n % rqBoxes b) 0
    boxBad (rqLevels b) e || (e.drop 16).take 4 ≠ (f.drop 16).take 4)

/-- A field of a request breaks R332 (code 0x01 of R333). DEDUCED (log entry 77). -/
def State.rqBad (s : State) (b : List Byte) : Bool :=
  let raw := rqIsRaw b
  decide (recField b 6 2 ≠ 0) || decide (rqCodec b > 4) || (if raw then decide (rqRaw b > 4) else decide (rqRaw b ≠ 0))
    || decide (recField b 42 2 ≠ 0) || !inRange (rqCount b) 1 4096 || !inRange (rqStep b) 1 16
    || !inRange (rqLevels b) 1 6 || decide (rqFilter b > 2) || decide (rqColour b ≥ 32)
    || !([0xE, 0x1, 0x3].contains (rqFmt b)) || decide (rqFlags b ≥ 32) || decide (rqBoxes b > 256)
    || decide (rqCellW b = 0) || decide (rqCellH b = 0) || !inRange (rqCellT b) 1 16
    || (rqMvEn b && !inRange (rqMvLog b) 4 8) || decide (recField b 62 2 ≠ 0)
    || (decide (rqBoxes b ≠ 0) && (decide (rqBoxList b % 32 ≠ 0) || s.boxesBad b))
    || (decide (rqFmt b = 3) && !scaleValid 3 (recField b 80 4))
    || (if raw then decide (recField b 108 2 = 0) || decide (recField b 110 2 = 0)
          || (decide (rqRaw b ≤ 2) && decide (recField b 108 2 % 2 ≠ 0))
          || (decide (rqRaw b ≤ 1) && decide (recField b 110 2 % 2 ≠ 0))
        else decide (recField b 108 4 ≠ 0))
    || (b.drop 116).any (· ≠ 0)

/-! ### What a bitstream holds (R324 to R326, R339) -/

/-- Size of the pictures of a request: the raw size, or what the bitstream holds, within the limits of R324. -/
def srcSize (b : List Byte) (seed : Nat) : Nat × Nat :=
  if rqIsRaw b then (recField b 108 2, recField b 110 2)
  else
    let lim := if rqCodec b = 3 then (16384, 16384) else (8192, 4352)
    (1 + Config.codec seed 1 0 % lim.1, 1 + Config.codec seed 2 0 % lim.2)

/-- The code with which a bitstream is refused (R325), 0 for none; a raw picture can only be too large. -/
def srcRefusal (b : List Byte) (seed : Nat) : Nat :=
  if rqIsRaw b then if recField b 108 2 > 8192 || recField b 110 2 > 4352 then 0x14 else 0
  else
    let c := Config.codec seed 0 0 % 6
    if c = 0 then 0 else 0x10 + c

/-- Bytes of a raw frame (R326). -/
def rawBytes (fmt w h : Nat) : Nat :=
  match fmt with
  | 0 => w * h * 3 / 2
  | 1 => 3 * w * h
  | 2 => 4 * w * h
  | 3 => 6 * w * h
  | _ => 3 * w * h

/-- A component of a raw frame that starts at `a` (R326). DESIGN CHOICE (log entry 75). -/
def State.rawPixel (s : State) (fmt w h a plane x y : Nat) : Nat :=
  let one (o : Nat) := (s.memByte (a + o)).toNat
  let two (o : Nat) := one o + 256 * one (o + 1)
  match fmt with
  | 0 => if plane = 0 then one (y * w + x) else one (w * h + (plane - 1) * (w * h / 4) + y * (w / 2) + x)
  | 1 => if plane = 0 then two (2 * (y * w + x)) / 64 else two (2 * w * h + 4 * (y * (w / 2) + x) + 2 * (plane - 1)) / 64
  | 2 => if plane = 0 then two (2 * (y * w + x)) % 1024
         else two (2 * w * h + (plane - 1) * (w * h) + 2 * (y * (w / 2) + x)) % 1024
  | 3 => two (plane * (2 * w * h) + 2 * (y * w + x)) % 1024
  | _ => one (plane * (w * h) + y * w + x)

/-- Whole raw frames that byte_length covers (R326). -/
def rawWhole (b : List Byte) : Nat :=
  rqLen b / rawBytes (rqRaw b) (recField b 108 2) (recField b 110 2)

/-- The matrix in force: that of the request, or of the bitstream; a raw request without one takes BT.709.
PRESUMED (log entry 76). -/
def srcMatrix (b : List Byte) (seed : Nat) : Nat :=
  let m := rqColour b % 4
  if m ≠ 0 then m else if rqIsRaw b then 2 else 1 + Config.codec seed 5 0 % 3

/-- The picture of display index `f` (R324, R326, R339); a raw frame that is missing shows the last one present, or
mid-grey. -/
def State.srcPic (s : State) (b : List Byte) (seed f : Nat) : Pic :=
  let (w, h) := srcSize b seed
  let given := (rqColour b).testBit 2
  let fullReq := (rqColour b).testBit 3
  if rqIsRaw b then
    let fmt := rqRaw b
    let n := rawWhole b
    let depth := if fmt = 0 || fmt = 4 then 8 else 10
    let g := if f < n then f else n - 1
    let a := (rqSrc b + rqOff b + g * rawBytes fmt w h) % 2 ^ 52
    { w := w, h := h, depth := depth, sx := if fmt ≤ 2 then 2 else 1, sy := if fmt ≤ 1 then 2 else 1, siteX := 0,
      siteY := if fmt ≤ 1 then 1 else 0, rgb := decide (fmt = 4), full := given && fullReq, matrix := srcMatrix b seed,
      px := fun p x y => if n = 0 then 2 ^ (depth - 1) else s.rawPixel fmt w h a p x y }
  else
    let wide := decide (rqCodec b = 3)
    let depth := if Config.codec seed 3 0 % 2 = 0 then 8 else if wide then 12 else 10
    let chroma := Config.codec seed 4 0 % 3
    { w := w, h := h, depth := depth, sx := if chroma ≤ 1 then 2 else 1, sy := if chroma = 0 then 2 else 1,
      siteX := if wide && chroma ≤ 1 then 1 else if chroma ≤ 1 then Config.codec seed 7 0 % 2 else 0,
      siteY := if wide && chroma = 0 then 1 else if chroma = 0 then Config.codec seed 8 0 % 3 else 0,
      rgb := false, full := if given then fullReq else Config.codec seed 6 0 % 2 = 1, matrix := srcMatrix b seed,
      px := fun p x y => Config.codecPixel seed f p x y % 2 ^ depth }

/-! ### Damage (R326, R339, R340) -/

/-- Damaged runs of a request. -/
def damageRuns (b : List Byte) (seed : Nat) : Nat :=
  if rqIsRaw b then ((List.range (rqCount b)).filter (fun k => decide (rqFrame b k ≥ rawWhole b))).length
  else Config.codec seed 9 0

/-- The frame of the i-th run. DESIGN CHOICE (log entry 75). -/
def damageFrame (b : List Byte) (seed i : Nat) : Nat :=
  if rqIsRaw b then
    rqFrame b (((List.range (rqCount b)).filter (fun k => decide (rqFrame b k ≥ rawWhole b))).getD i 0)
  else rqFirst b + Config.codec seed 11 i % (rqCount b * rqStep b)

/-- The i-th damage record of a sample (R340). -/
def damageRecord (b : List Byte) (seed id i : Nat) : List Byte :=
  let f := damageFrame b seed i
  let raw := rqIsRaw b
  let cls := if raw then 4 else 1 + Config.codec seed 10 i % 7
  let at_ := if raw then rqOff b + f * rawBytes (rqRaw b) (recField b 108 2) (recField b 110 2)
    else rqOff b + Config.codec seed 14 i % (rqLen b + 1)
  let lo := Config.codec seed 12 i % 2 ^ 32
  let hi := lo + Config.codec seed 13 i % (2 ^ 32 - lo)
  toBytes 8 (id % 2 ^ 48 + cls * 2 ^ 48) ++ toBytes 8 at_ ++ toBytes 4 f ++ toBytes 4 lo ++ toBytes 4 hi ++ toBytes 4 0

/-- A pixel of a frame is concealed or derived. -/
def concealed (b : List Byte) (seed f x y : Nat) : Bool :=
  if rqIsRaw b then decide (f ≥ rawWhole b)
  else (List.range (damageRuns b seed)).any (fun i => decide (damageFrame b seed i = f))
    && Config.codecConcealed seed f x y

/-! ### Tensors (R334 to R337, R341) -/

/-- Size of the pictures that a sample's loss mask covers: level 0, or the crop (R341). -/
def State.maskBase (s : State) (b : List Byte) (seed i : Nat) : Nat × Nat :=
  if rqBoxes b = 0 then srcSize b seed
  else let c := cropBox (s.boxOf b i 0); (c.outW, c.outH)

/-- Cells of the mask in time, down and across (R341). -/
def State.maskSize (s : State) (b : List Byte) (seed i : Nat) : Nat × Nat × Nat :=
  let (w, h) := s.maskBase b seed i
  let t := if rqCausal b then 1 + ceilDiv (rqCount b - 1) (rqCellT b) else ceilDiv (rqCount b) (rqCellT b)
  (t, ceilDiv h (rqCellH b), ceilDiv w (rqCellW b))

def outBytes (fmt : Nat) : Nat := if fmt = 1 then 2 else 1

/-- The tensors of a sample as (entry, T, H, W, C, format): its levels or its crop, and its mask. -/
def State.shapes (s : State) (b : List Byte) (seed i : Nat) : List (Nat × Nat × Nat × Nat × Nat × Nat) :=
  let (w, h) := srcSize b seed
  let (mt, mh, mw) := s.maskSize b seed i
  (if rqBoxes b = 0 then
    (List.range (rqLevels b)).map (fun l => (l, rqCount b, ceilDiv h (2 ^ l), ceilDiv w (2 ^ l), 3, rqFmt b))
  else
    let c := cropBox (s.boxOf b i 0)
    [(0, rqCount b, c.outH, c.outW, 3, rqFmt b)]) ++ [(7, mt, mh, mw, 1, 0xE)]

def shapeBytes (x : Nat × Nat × Nat × Nat × Nat × Nat) : Nat :=
  x.2.1 * x.2.2.1 * x.2.2.2.1 * x.2.2.2.2.1 * outBytes x.2.2.2.2.2

/-- Bytes of a buffer that a sample with these tensors takes: each starts on a 4 KiB boundary (R337). -/
def placesOf (first : Nat) : List Nat → List Nat
  | [] => [first]
  | n :: l => first :: placesOf ((first + n + 4095) / 4096 * 4096) l

def firstPlace (damage : Nat) : Nat := (320 + 32 * damage + 4095) / 4096 * 4096

/-- The outputs of a sample exceed its buffer (code 0x04 of R333). -/
def State.tooLarge (s : State) (kib : Nat) (b : List Byte) (seed i : Nat) : Bool :=
  let ns := (s.shapes b seed i).map shapeBytes
  let ps := placesOf (firstPlace 64) ns
  decide (ps.getD (ns.length - 1) 0 + ns.getLastD 0 > kib * 1024)

/-- A plane of the k-th emitted frame's channel. -/
def State.chanPlane (s : State) (b : List Byte) (seed k c : Nat) : Plane :=
  let p := s.srcPic b seed (rqFrame b k)
  { w := p.w, h := p.h, at_ := fun x y => p.chan ((rqColour b).testBit 4) c x y }

/-- The plane that an output tensor takes: a level, or the crop of box `i`. -/
def State.outPlane (s : State) (b : List Byte) (seed i entry k c : Nat) : Plane :=
  let p := s.chanPlane b seed k c
  if rqBoxes b = 0 then p.level (rqFilter b) entry
  else
    let x := cropBox (s.boxOf b i k)
    (p.level (rqFilter b) x.level).crop Config.lanczos3 (rqFilter b) x

/-- The elements of a picture tensor, with how many saturated. -/
def State.pixels (s : State) (b : List Byte) (seed i : Nat) (x : Nat × Nat × Nat × Nat × Nat × Nat) : List Byte × Nat :=
  let (entry, t, h, w, _, fmt) := x
  let es := (List.range t).flatMap (fun k => (List.range h).flatMap (fun y => (List.range w).flatMap (fun x =>
    (List.range 3).map (fun c =>
      outElem fmt (fp32.decode (recField b (84 + 4 * c) 4)) (fp32.decode (recField b (96 + 4 * c) 4))
        (fp32.decode (recField b 80 4)) ((s.outPlane b seed i entry k c).at_ x y)))))
  (es.flatMap (fun e => toBytes (outBytes fmt) e.1), (es.filter (·.2)).length)

/-- The source places of level 0, by column and by row, that an output pixel draws on (R341). -/
def State.drawsOn (s : State) (b : List Byte) (i k x y : Nat) : (Int × Int) × (Int × Int) :=
  if rqBoxes b = 0 then ((x, x), (y, y))
  else
    let c := cropBox (s.boxOf b i k)
    let f := rqFilter b
    let px := cropPlaces f (cropCentre c.x0 c.x1 c.outW c.level x) (cropStretch c.x0 c.x1 c.outW c.level)
    let py := cropPlaces f (cropCentre c.y0 c.y1 c.outH c.level y) (cropStretch c.y0 c.y1 c.outH c.level)
    (levelDraws f c.level px, levelDraws f c.level py)

/-- An output pixel of the k-th emitted frame draws on a concealed or derived pixel. -/
def State.drawsDamage (s : State) (b : List Byte) (seed i k x y : Nat) : Bool :=
  let (w, h) := srcSize b seed
  let (dx, dy) := s.drawsOn b i k x y
  let run (r : Int × Int) (n : Nat) : List Nat :=
    ((List.range ((r.2 - r.1).toNat + 1)).map (fun (j : Nat) => clampAt (r.1 + (j : Int)) n)).eraseDups
  (run dy h).any (fun v => (run dx w).any (fun u => concealed b seed (rqFrame b k) u v))

/-- Emitted frames of mask cell `j` (R341). -/
def cellFrames (b : List Byte) (j : Nat) : List Nat :=
  let n := rqCellT b
  (if rqCausal b then if j = 0 then [0] else (List.range n).map (· + (j - 1) * n + 1)
   else (List.range n).map (· + j * n)).filter (fun k => decide (k < rqCount b))

/-- The loss mask of a sample (R341). -/
def State.lossMask (s : State) (b : List Byte) (seed i : Nat) : List Byte :=
  let (w, h) := s.maskBase b seed i
  let (mt, mh, mw) := s.maskSize b seed i
  (List.range mt).flatMap (fun j => (List.range mh).flatMap (fun v => (List.range mw).map (fun u =>
    let bad := (cellFrames b j).any (fun k =>
      (List.range (rqCellH b)).any (fun dy => (List.range (rqCellW b)).any (fun dx =>
        let x := u * rqCellW b + dx
        let y := v * rqCellH b + dy
        decide (x < w) && decide (y < h) && s.drawsDamage b seed i k x y)))
    if bad then 0 else 1)))

/-- What is written for a decoded sample. DESIGN CHOICE (log entry 75). -/
def State.sampleData (s : State) (r : IngestReq) (i id : Nat) : SampleData :=
  let b := r.bytes
  let n := damageRuns b r.seed
  let ts := (s.shapes b r.seed i).map (fun x =>
    let (bs, sat) := if x.1 = 7 then (s.lossMask b r.seed i, 0) else s.pixels b r.seed i x
    (({ entry := x.1, t := x.2.1, h := x.2.2.1, w := x.2.2.2.1, c := x.2.2.2.2.1, fmt := x.2.2.2.2.2,
        bytes := bs } : SampleTensor), sat))
  { status := if n = 0 then 0 else 1, frames := rqCount b, saturated := (ts.map (·.2)).sum,
    damage := (List.range (min n 64)).map (damageRecord b r.seed id), more := decide (n > 64),
    motion := rqMvEn b && s.variant != .tbx20c, tensors := ts.map (·.1) }

/-- What is written for a failed or cancelled sample: tensors of +0 and a mask of 0, where their sizes are known and
fit (R341). -/
def State.failedData (s : State) (kib : Nat) (r : IngestReq) (i status reason : Nat) : SampleData :=
  let known := reason ≠ 1 && reason ≠ 4 && !s.tooLarge kib r.bytes r.seed i && srcRefusal r.bytes r.seed = 0
  { status := status, reason := reason,
    tensors := if !known then [] else (s.shapes r.bytes r.seed i).map (fun x =>
      { entry := x.1, t := x.2.1, h := x.2.2.1, w := x.2.2.2.1, c := x.2.2.2.2.1, fmt := x.2.2.2.2.2,
        bytes := List.replicate (shapeBytes x) 0 }) }

/-- The tensor entries of a record (R338). -/
def tensorEntry (base : Nat) (ts : List (SampleTensor × Nat)) (i : Nat) : List Byte :=
  match ts.find? (fun x => decide (x.1.entry = i)) with
  | some (t, at_) => toBytes 8 (base + at_) ++ toBytes 4 t.t ++ toBytes 4 t.h ++ toBytes 4 t.w ++ toBytes 2 t.c
      ++ toBytes 1 t.fmt ++ toBytes 1 0 ++ toBytes 8 t.bytes.length
  | none => List.replicate 32 0

/-- A sample with the offsets of its tensors in its buffer. -/
def SampleData.placed (d : SampleData) : List (SampleTensor × Nat) :=
  d.tensors.zip (placesOf (firstPlace d.damage.length) (d.tensors.map (fun t => t.bytes.length)))

/-- The record of a sample (R338). -/
def sampleRecord (m : Sample) (d : SampleData) (base seq us : Nat) : List Byte :=
  let ts := d.placed
  toBytes 8 (m.id % 2 ^ 48) ++ toBytes 4 seq ++ toBytes 1 d.status
    ++ toBytes 1 (bit m.late 0 + bit m.hit 1 + bit (!d.damage.isEmpty) 2 + bit d.more 3 + bit d.motion 4)
    ++ toBytes 1 (ts.foldl (fun n t => n + 2 ^ t.1.entry) 0) ++ toBytes 1 d.reason ++ toBytes 4 d.frames
    ++ toBytes 4 (min us 0xFFFFFFFF) ++ toBytes 8 d.saturated ++ toBytes 2 d.damage.length ++ List.replicate 30 0
    ++ (List.range 8).flatMap (tensorEntry base ts)

/-- The parts of a buffer that a sample fills, as (address, bytes), in the order of R337. -/
def samplePieces (m : Sample) (d : SampleData) (base seq us : Nat) : List (Nat × List Byte) :=
  [(base, sampleRecord m d base seq us), (base + 320, d.damage.flatMap id)]
    ++ d.placed.map (fun t => (base + t.2, t.1.bytes))

/-! ### The decoded-sample cache (R345, R346) -/

def State.cacheDesc (s : State) (b : List Byte) : List Byte := s.memBytes (bqCache b % 2 ^ 52) 32

/-- The key of box `i` of a request (R346). DEDUCED (log entry 78). -/
def cacheKey (b : List Byte) (i : Nat) : List Byte :=
  let mid := ((b.drop 40).take 80).set 15 (BitVec.ofNat 8 (rqFlags b - bit (rqCacheEn b) 1 - bit (rqOverride b) 4))
  Config.shake256 ((b.drop 16).take 24 ++ mid ++ (if rqBoxes b = 0 then [] else toBytes 2 i)) 16

def State.cached (s : State) (area : Nat) (key : List Byte) : Option CacheEnt :=
  s.media.cache.find? (fun e => decide (e.area = area) && decide (e.key = key))

/-- Every sample of a request is in the queue's cache. -/
def State.allHit (s : State) (d b : List Byte) : Bool :=
  bqCache d ≠ 0 && rqCacheEn b
    && (List.range (rqSamples b)).all (fun i => (s.cached (recField (s.cacheDesc d) 0 8) (cacheKey b i)).isSome)

/-- Bytes that a cached sample takes of its area. -/
def SampleData.size (d : SampleData) : Nat := 320 + 32 * d.damage.length + (d.tensors.map (fun t => t.bytes.length)).sum

/-- Entries of an area least recently used leave until there is room. DEDUCED (log entry 78). -/
def evict (area room entries : Nat) : Nat → List CacheEnt → List CacheEnt
  | 0, l => l
  | n + 1, l =>
    let mine := l.filter (fun e => decide (e.area = area))
    if (mine.map (fun e => e.data.size)).sum ≤ room && mine.length ≤ entries then l
    else match mine with
      | [] => l
      | e :: rest =>
        let old := rest.foldl (fun o x => if x.used < o.used then x else o) e
        evict area room entries n (l.filter (fun x => decide (x ≠ old)))

/-- A sample enters the cache, unless it is larger than the area. DEDUCED (log entry 78). -/
def State.enterCache (s : State) (d : List Byte) (key : List Byte) (x : SampleData) : State :=
  let c := s.cacheDesc d
  let area := recField c 0 8
  let m := s.media
  if x.size > recField c 8 8 || (s.cached area key).isSome then s
  else
    let kept := evict area (recField c 8 8 - x.size) (recField c 24 4 - 1) m.cache.length m.cache
    s.setMedia { m with cache := kept ++ [{ area := area, key := key, data := x, used := m.clock }], clock := m.clock + 1 }

/-- A cached sample is used. -/
def State.touchCache (s : State) (area : Nat) (key : List Byte) : State :=
  let m := s.media
  s.setMedia { m with clock := m.clock + 1,
                      cache := m.cache.map (fun e => if e.area = area && e.key = key then { e with used := m.clock } else e) }

/-! ### Taking a request (R331 to R333) -/

/-- A queue's work goes on. -/
def State.bqGoes (s : State) (h : Nat) : Bool :=
  let v := s.bq h
  v.live && decide (v.state = 0) && s.jobGoes v.ctx && s.mediaUp (bqDie v.desc) v.ctx
    && s.mediaLantern (bqDie v.desc) 0

/-- A post is there to take, and no earlier waiter has it. -/
def State.postThere (s : State) (ctx i : Nat) : Bool :=
  let m := s.sem ctx i
  !m.poison && m.waiters.isEmpty && decide (m.value ≥ 1)

def State.takePost (s : State) (ctx i : Nat) : State :=
  let m := s.sem ctx i
  s.setSem ctx i { m with value := m.value - 1 }

/-- The check of R333 that a request fails, 0 for none. DEDUCED (log entry 77). -/
def State.rqFail (s : State) (v : BatchQ) (b : List Byte) (seed : Nat) : Nat :=
  let n := rqSamples b
  let id := rqId b
  let used := v.plan.filterMap (fun p => p.map (·.id))
  if s.rqBad b then 1
  else if id + n - 1 ≥ 2 ^ 48 then 2
  else if used.any (fun x => decide (id ≤ x) && decide (x < id + n)) then 3
  else if (List.range n).any (fun i => s.tooLarge (bqKib v.desc) b seed i) then 4
  else 0

/-- SAMPLE_REQUEST_TAKE (R331, R333). DEDUCED (log entry 77). -/
def execSampleRequestTake (bq : Nat) (s : State) : Outcome State Fault Refusal :=
  .next (
    let v := s.bq bq
    let d := v.desc
    if !s.bqGoes bq || !s.postThere v.ctx (bqReqSem d) then s
    else
      let a := bqReqRing d + v.taken % bqReqEntries d * 128
      s.agentDo (s.mediaWho (bqDie d) 0 v.ctx (bqPolder d)) false a 128 (fun s =>
        let b := s.devRead a 128
        let seed := s.freeCtr
        let s := (s.takePost v.ctx (bqReqSem d)).tick
        let fail := s.rqFail v b seed
        let samples := (List.range (rqSamples b)).map (fun i =>
          some ({ id := (rqId b + i) % 2 ^ 48, req := v.taken, box := i } : Sample))
        let s := s.setBq bq { v with
          taken := v.taken + 1, plan := v.plan ++ samples,
          reqs := v.reqs ++ [{ seq := v.taken, bytes := b, fail := fail, seed := seed }] }
        if fail = 0 then s else s.mediaEvent (bqDie d) v.ctx 0x0601 1 (ingestDetail fail (rqId b))))

/-! ### Decoding (R327, R328, R342) -/

/-- Posts of free_sem free the oldest batches (R344). -/
def State.takeFreed (s : State) (h : Nat) : Nat → State
  | 0 => s
  | n + 1 =>
    let v := s.bq h
    match v.out with
    | [] => s
    | b :: rest =>
      if s.postThere v.ctx (bqFreeSem v.desc) then
        ((s.takePost v.ctx (bqFreeSem v.desc)).setBq h { v with
          out := rest, busy := b.foldl (fun m i => mapSet false m i false) v.busy }).takeFreed h n
      else s

/-- The first `n` free buffers of a queue's pool. -/
def BatchQ.freeBuffers (v : BatchQ) (n : Nat) : Option (List Nat) :=
  let l := ((List.range (bqBuffers v.desc)).filter (fun i => !mapGet false v.busy i)).take n
  if l.length = n then some l else none

/-- Samples of a request given their buffers. -/
def giveBuffers (seq : Nat) : List (Option Sample) → List Nat → List (Option Sample)
  | [], _ => []
  | p :: ps, bs =>
    match p, bs with
    | some m, b :: rest => if m.req = seq then some { m with buffer := some b } :: giveBuffers seq ps rest
        else some m :: giveBuffers seq ps (b :: rest)
    | p, bs => p :: giveBuffers seq ps bs

/-- The median of a list of times: the lower of the two middle ones where their number is even.
DEDUCED (log entry 79). -/
def median (l : List Nat) : Nat := (l.mergeSort (fun a b => decide (a ≤ b))).getD ((l.length - 1) / 2) 0

/-- The deadline of a request in microseconds (R342). DEDUCED (log entry 79). -/
def BatchQ.deadlineUs (v : BatchQ) (b : List Byte) : Nat :=
  if rqOverride b then 1000 * recField b 112 4
  else if v.completed < 16 || v.times.isEmpty then 1000 * bqFirstDeadline v.desc
  else bqFactor v.desc * median v.times

/-- A request of a queue replaced. -/
def BatchQ.setReq (v : BatchQ) (r : IngestReq) : BatchQ :=
  { v with reqs := v.reqs.map (fun x => if x.seq = r.seq then r else x) }

/-- A request that cannot decode: it failed its checks or is refused, or is cancelled. -/
def IngestReq.dead (r : IngestReq) : Bool := decide (r.fail ≠ 0) || r.cancelled

/-- DECODE_START (R327, R337, R343, R346). -/
def execDecodeStart (bq seq : Nat) (s : State) : Outcome State Fault Refusal :=
  .next (
    let s := s.takeFreed bq (s.bq bq).out.length
    let v := s.bq bq
    let k := bqDie v.desc
    match v.reqs.find? (fun r => !r.started) with
    | none => s
    | some r =>
      let b := r.bytes
      if !s.bqGoes bq || r.seq ≠ seq then s
      else match v.freeBuffers (rqSamples b) with
        | none => s
        | some bufs =>
          let plan := giveBuffers seq v.plan bufs
          let busy := bufs.foldl (fun m i => mapSet false m i true) v.busy
          let v' := { v with plan := plan, busy := busy }
          let begun := { r with started := true, since := s.time }
          if r.fail ≠ 0 then s.setBq bq (v'.setReq begun)
          else if (v.reqs.filter (fun x => x.started && !x.dead)).length ≥ bqParallel v.desc then s
          else if s.allHit v.desc b then
            s.setBq bq (v'.setReq { begun with fill := true, first := some s.time, deadline := v.deadlineUs b })
          else match s.freeStream k with
            | none => s
            | some i =>
              let raw := rqIsRaw b
              let refused := if raw then srcRefusal b r.seed else 0
              let n := if raw then min (rqLen b) (rqDecoded b * rawBytes (rqRaw b) (recField b 108 2) (recField b 110 2))
                else rqLen b
              s.agentDo (s.mediaWho k 0 v.ctx (bqPolder v.desc)) false (rqSrc b + rqOff b) n (fun s =>
                let s := (s.tick.setStream k i (.ingest bq seq)).setBq bq (v'.setReq { begun with
                  stream := some i, fail := refused,
                  first := if raw then some s.time else none, deadline := if raw then v.deadlineUs b else 0 })
                if refused = 0 then s else s.mediaEvent k v.ctx 0x0602 1 (ingestDetail refused (rqId b))))

/-- The dike of codec time of a media die (R387). -/
def codecDike (k : Nat) : Nat := 0x38 + k

def State.codecOpen (s : State) (k polder : Nat) : Bool := (s.dike polder (codecDike k)).open_

/-- Engine time charged at a frame's end, in microseconds, and counted for the engine (R387, R511). -/
def State.chargeCodec (s : State) (k eng polder us : Nat) : State :=
  (s.charge polder [(codecDike k, us * 1000000)]).bump (mediaReg k (0x10 + 4 * eng)) 32 us

/-- A request has a frame for an engine. -/
def State.ingestReady (s : State) (h seq : Nat) : Bool :=
  let v := s.bq h
  s.bqGoes h && s.codecOpen (bqDie v.desc) (bqPolder v.desc)
    && (match v.reqs.find? (fun r => decide (r.seq = seq)) with
        | some r => r.started && !r.dead && !rqIsRaw r.bytes && !r.fill && decide (r.frames < rqDecoded r.bytes)
        | none => false)

/-- Engine time of a decoded frame: at least its pixel time by R329, the bit time of its bits being free. -/
def State.decodeUs (s : State) (b : List Byte) (seed : Nat) : Nat :=
  let (w, h) := srcSize b seed
  let chroma := Config.codec seed 4 0 % 3
  let rate := (1920 * 1080 * 960 : Nat) * (4 - chroma) / 4
  max (ceilDiv (w * h * 1000000) rate) (Config.freeNat s.freeCtr % 2 ^ 32)

/-- One frame of a request decoded; at the first, a bitstream that R324 does not cover is refused (R325). -/
def State.decodeFrame (s : State) (h seq eng : Nat) : State :=
  let v := s.bq h
  match v.reqs.find? (fun r => decide (r.seq = seq)) with
  | none => s
  | some r =>
    let k := bqDie v.desc
    let b := r.bytes
    let refused := if r.frames = 0 then srcRefusal b r.seed else 0
    let s := ((s.chargeCodec k eng (bqPolder v.desc) (s.decodeUs b r.seed)).bump (mediaReg k 0x20) 32 1).tick
    let s := s.setBq h (v.setReq { r with
      frames := r.frames + 1, fail := refused
      first := if r.frames = 0 then some s.time else r.first
      deadline := if r.frames = 0 then v.deadlineUs b else r.deadline })
    if refused = 0 then s else s.mediaEvent k v.ctx 0x0602 1 (ingestDetail refused (rqId b))

/-! ### The motion side channel (R347) -/

def mvStride (w h log : Nat) : Nat := (16 + 4 * (ceilDiv w (2 ^ log)) * (ceilDiv h (2 ^ log)) + 15) / 16 * 16

/-- The motion record of a displayed frame: its vectors come from the bitstream; JPEG and raw requests have none. -/
def motionRecord (b : List Byte) (seed f : Nat) : List Byte :=
  let (w, h) := srcSize b seed
  let bw := ceilDiv w (2 ^ rqMvLog b)
  let bh := ceilDiv h (2 ^ rqMvLog b)
  let noRef := decide (rqCodec b ≥ 3) || decide (Config.codec seed 20 f % 2 = 1)
  let vec (i : Nat) : Nat :=
    let v := Config.codec seed 21 (f * 2 ^ 32 + i) % 2 ^ 32
    if noRef then v / 65536 * 65536 + 0x8000 else v
  padTo 0 (mvStride w h (rqMvLog b))
    (toBytes 4 f ++ toBytes 2 bw ++ toBytes 2 bh ++ toBytes 1 (bit noRef 0) ++ toBytes 7 0
      ++ (List.range (bw * bh)).flatMap (fun i => toBytes 4 (vec i)))

/-- The motion records of a request, as (address, bytes). -/
def motionPieces (b : List Byte) (seed : Nat) : List (Nat × List Byte) :=
  let (w, h) := srcSize b seed
  (List.range (rqCount b * rqStep b)).map (fun i =>
    (rqMv b + i * mvStride w h (rqMvLog b), motionRecord b seed (rqFirst b + i)))

/-! ### Completion of samples (R337 to R341, R346) -/

/-- The first stop among the writes of an agent. DEDUCED (log entry 57). -/
def State.piecesWait (s : State) (who : Who) (ps : List (Nat × List Byte)) : Option (Nat × Nat) :=
  (ps.find? (fun p => !p.2.isEmpty && (s.devStop who true p.1 p.2.length).isSome)).map (fun p => (p.1, p.2.length))

/-- The writes of an agent, all of them or none. -/
def State.agentPut (s : State) (who : Who) (ps : List (Nat × List Byte)) (act : State → State) : State :=
  match s.piecesWait who ps with
  | some (a, n) => s.agentDo who true a n (fun s => s)
  | none => act (ps.foldl (fun s p => if p.2.isEmpty then s
      else (s.devSpend who true p.1 p.2.length).devWrite who.ctx p.1 p.2) s)

/-- What is written for a sample of a request. -/
def State.dataFor (s : State) (v : BatchQ) (r : IngestReq) (m : Sample) : SampleData :=
  if r.cancelled then s.failedData (bqKib v.desc) r m.box 3 0
  else if r.fail ≠ 0 then s.failedData (bqKib v.desc) r m.box 2 r.fail
  else if r.fill then
    match s.cached (recField (s.cacheDesc v.desc) 0 8) (cacheKey r.bytes m.box) with
    | some e => { e.data with damage := e.data.damage.map (fun d => toBytes 6 m.id ++ d.drop 6) }
    | none => s.sampleData r m.box m.id
  else s.sampleData r m.box m.id

/-- A request is ready for its samples to be written. -/
def IngestReq.ripe (r : IngestReq) : Bool :=
  r.started && (r.dead || r.fill || rqIsRaw r.bytes || decide (r.frames ≥ rqDecoded r.bytes))

/-- A cancelled queue has ended once no started request is left (R348). -/
def State.settleBq (s : State) (h : Nat) : State :=
  let v := s.bq h
  if v.state = 3 && !v.reqs.any (fun r => r.started) then
    let s := s.setBq h { v with state := 4, cancelReq := none }
    match v.cancelReq with | some r => s.finish r 0 0 0 | none => s
  else s

/-- A queue that runs, or that a cancel brings to its end. -/
def State.bqWrites (s : State) (h : Nat) : Bool :=
  let v := s.bq h
  v.live && (decide (v.state = 0) || decide (v.state = 3)) && s.jobGoes v.ctx
    && s.mediaLantern (bqDie v.desc) 0

/-- The samples of a request are written and completed (R337 to R341, R346, R347). -/
def State.writeSamples (s : State) (bq : Nat) (r : IngestReq) : State :=
  let v := s.bq bq
  let seq := r.seq
  let d := v.desc
  let k := bqDie d
  let us := (s.time - r.since) / 1100
  let mine := v.plan.filterMap (fun p => match p with
    | some m => if m.req = seq && !m.done then some m else none
    | none => none)
  let data := mine.map (fun m =>
    let m := { m with hit := r.fill && !r.dead }
    (m, s.dataFor v r m))
  let ps := data.flatMap (fun x => samplePieces x.1 x.2 (bqBuffer d (x.1.buffer.getD 0)) (seq % 2 ^ 32) us)
  let mv := if rqMvEn r.bytes && !r.dead && !r.fill && s.variant != .tbx20c then motionPieces r.bytes r.seed else []
  s.agentPut (s.mediaWho k 0 v.ctx (bqPolder d)) (mv ++ ps) (fun s =>
    let timed := mine.filter (fun m => !m.late && !r.fill)
    let times := v.times ++ timed.map (fun _ => us)
    let plan := v.plan.map (fun p => match p with
      | some m => (match data.find? (fun x => decide (x.1.id = m.id) && decide (m.req = seq)) with
          | some (m', x) => some { m' with done := true, status := x.status }
          | none => some m)
      | none => none)
    let v := { v with plan := plan, reqs := v.reqs.filter (fun x => decide (x.seq ≠ seq)),
                      times := times.drop (times.length - 1024), completed := v.completed + mine.length }
    let s := (s.setBq bq v).dropStream k r.stream
    let area := recField (s.cacheDesc d) 0 8
    let s := data.foldl (fun s x =>
      let key := cacheKey r.bytes x.1.box
      if bqCache d = 0 || !rqCacheEn r.bytes || r.dead then s
      else if r.fill then s.touchCache area key else s.enterCache d key x.2) s
    let s := s.bump (mediaReg k 0x2C) 32 (data.map (fun x => x.2.damage.length)).sum
    let s := if r.fill && !r.dead then s.bump (mediaReg k 0x28) 32 mine.length else s
    let s := match data.find? (fun x => !x.2.damage.isEmpty) with
      | some (m, x) =>
        let cls := recField (x.damage.headD []) 6 1
        s.postEachSecond (0x0603 * 4096 + bq) (s.mediaEv k v.ctx 0x0603 0 (ingestDetail cls m.id))
      | none => s
    s.settleBq bq)

/-- SAMPLE_COMPLETE: the samples of a request that is ready, or of one that a cancel stopped. DEDUCED (log entry 77). -/
def execSampleComplete (bq seq : Nat) (s : State) : Outcome State Fault Refusal :=
  .next (match (s.bq bq).reqs.find? (fun r => decide (r.seq = seq)) with
    | none => s
    | some r => if !s.bqWrites bq || !r.ripe then s else s.writeSamples bq r)

/-- SAMPLE_DEADLINE_EXPIRY (R342). DEDUCED (log entry 79). -/
def execSampleDeadlineExpiry (bq seq : Nat) (s : State) : Outcome State Fault Refusal :=
  .next (
    let v := s.bq bq
    match v.reqs.find? (fun r => decide (r.seq = seq)) with
    | none => s
    | some r =>
      if !s.bqGoes bq || r.first = none then s
      else
        let k := bqDie v.desc
        let plan := v.plan.map (fun p => match p with
          | some m => if m.req = seq && !m.done then some { m with late := true } else some m
          | none => none)
        let s := s.setBq bq { v with plan := plan }
        s.postEachSecond (0x0604 * 4096 + bq) (s.mediaEv k v.ctx 0x0604 0 (ingestDetail 0 (rqId r.bytes))))

/-! ### The batch assembler (R343, R344) -/

/-- A slot of a batch: the sample, the one it stands in for with its buffer, and its flags. -/
structure SlotFill where
  sample : Sample
  displaced : Option Nat := none
  displacedBuf : Option Nat := none
  lateSub : Bool := false
  damageSub : Bool := false

/-- The earliest-planned complete sample after the batch: its place there. -/
def firstDone (rest : List (Option Sample)) : Option Nat :=
  rest.findIdx? (fun p => match p with | some m => m.done | none => false)

/-- A batch as it is assembled: slots filled, what is planned after it, and the buffers that return with it. -/
structure Assembly where
  slots : List SlotFill := []
  rest : List (Option Sample) := []
  bufs : List Nat := []

/-- The damage policy on a sample in a slot: kept, or replaced by the earliest complete sample after the batch, to
which the policy applies in turn; none where the assembler must wait. DEDUCED (log entry 79). -/
def damagePolicy (replace : Bool) : Nat → SlotFill → Assembly → Option (SlotFill × Assembly)
  | 0, f, a => some (f, a)
  | n + 1, f, a =>
    if f.sample.status = 0 || !replace then some (f, a)
    else match firstDone a.rest with
      | none => none
      | some j =>
        match a.rest.getD j none with
        | none => none
        | some m =>
          let first := f.displaced.isNone
          damagePolicy replace n
            { f with sample := m, damageSub := true, displaced := if first then some f.sample.id else f.displaced,
                     displacedBuf := if f.displacedBuf.isNone then f.sample.buffer else f.displacedBuf }
            { a with rest := a.rest.set j none, bufs := a.bufs ++ f.sample.buffer.toList }

/-- One position of the batch (R343): none where the assembler must wait. -/
def fillSlot (fill replace : Bool) (p : Option Sample) (a : Assembly) : Option Assembly :=
  let n := a.rest.length + 1
  let place (f : SlotFill) (a : Assembly) : Option Assembly :=
    (damagePolicy replace n f a).map (fun (f, a) =>
      { a with slots := a.slots ++ [f], bufs := a.bufs ++ f.sample.buffer.toList })
  match p with
  | some m =>
    if m.done then place { sample := m } a
    else if m.late && fill then
      match firstDone a.rest with
      | none => none
      | some j =>
        match a.rest.getD j none with
        | none => none
        | some x => place { sample := x, displaced := some m.id, lateSub := true } { a with rest := a.rest.set j (some m) }
    else none
  | none =>
    match firstDone a.rest with
    | none => none
    | some j =>
      match a.rest.getD j none with
      | none => none
      | some x => place { sample := x, damageSub := true } { a with rest := a.rest.set j none }

/-- The positions of a batch, in slot order. DEDUCED (log entry 79). -/
def fillBatch (fill replace : Bool) : List (Option Sample) → Assembly → Option Assembly
  | [], a => some a
  | p :: ps, a =>
    match fillSlot fill replace p a with
    | none => none
    | some a => fillBatch fill replace ps a

/-- A slot entry of a batch descriptor (R344). -/
def slotEntry (f : SlotFill) : List Byte :=
  toBytes 8 (f.sample.id % 2 ^ 48)
    ++ toBytes 8 (match f.displaced with | some x => 2 ^ 63 + x % 2 ^ 48 | none => 0)
    ++ toBytes 4 (f.sample.buffer.getD 0) ++ toBytes 4 (f.displacedBuf.getD 0xFFFFFFFF)
    ++ toBytes 1 (bit f.lateSub 0 + bit f.damageSub 1 + bit (decide (f.sample.status ≠ 0)) 2 + bit f.sample.hit 3
        + bit f.sample.late 4)
    ++ toBytes 7 0

/-- A batch descriptor (R344). -/
def batchDesc (number : Nat) (last : Bool) (fs : List SlotFill) : List Byte :=
  let count (p : SlotFill → Bool) := (fs.filter p).length
  toBytes 8 number ++ toBytes 2 fs.length ++ toBytes 1 (bit last 0) ++ toBytes 1 0
    ++ toBytes 2 (count (·.lateSub)) ++ toBytes 2 (count (·.damageSub))
    ++ toBytes 2 (count (fun f => decide (f.sample.status ≠ 0))) ++ List.replicate 46 0 ++ fs.flatMap slotEntry

/-- BATCH_ASSEMBLE (R343, R344): the planned order ends where the queue is cancelled. -/
def execBatchAssemble (bq : Nat) (s : State) : Outcome State Fault Refusal :=
  .next (
    let s := s.takeFreed bq (s.bq bq).out.length
    let v := s.bq bq
    let d := v.desc
    let n := bqSlots d
    let ended := v.state = 4
    let go := s.bqGoes bq || (v.live && ended && s.jobGoes v.ctx && s.mediaLantern (bqDie d) 0)
    if !go || v.out.length ≥ bqBatchEntries d || v.plan.isEmpty || (v.plan.length < n && !ended) then s
    else match fillBatch (bqFill d) (bqReplace d) (v.plan.take n) { rest := v.plan.drop n } with
      | none => s
      | some a =>
        let last := ended && a.rest.isEmpty
        let addr := bqBatchRing d + v.batch % bqBatchEntries d * bqEntryBytes d
        s.agentPut (s.mediaWho (bqDie d) 0 v.ctx (bqPolder d)) [(addr, batchDesc v.batch last a.slots)] (fun s =>
          (s.setBq bq { v with plan := a.rest, batch := v.batch + 1, out := v.out ++ [a.bufs] }).semPost1 v.ctx
            (bqBatchSem d) none))

/-! ### Cancel and suspend (R348) -/

/-- A cancel of a queue: requests not started are dropped with their samples, started ones stop. -/
def State.cancelBq (s : State) (h : Nat) (reply : Option Reply) : State :=
  let v := s.bq h
  let gone := (v.reqs.filter (fun r => !r.started)).map (·.seq)
  let plan := v.plan.filter (fun p => match p with | some m => !gone.contains m.req || m.done | none => true)
  let s := match v.waiting with | some r => s.finish r 0x08 0 0 | none => s
  (s.setBq h { v with
    state := 3, waiting := none, cancelReq := reply, plan := plan
    reqs := (v.reqs.filter (fun r => r.started)).map (fun r => { r with cancelled := true }) }).settleBq h

/-- The queues of a job that is cancelled: the samples of started requests are written as failed, and the queue is
gone (R348, R392). -/
def State.endBq (s : State) (h : Nat) : State :=
  let s := s.cancelBq h none
  ((s.bq h).reqs.foldl (fun s r => s.writeSamples h r) s).dropBq h

end Sys2Proof.Machine
end

