-- ==== Sys2Proof/Machine/Encode.lean ====
section
/-!
DEFINITION. Footage encode (chapter 12): encode streams, mini-groups, quality, the cap and its row-by-row control,
results, reconstructions and the summary; and CODEC_FRAME, in which an engine takes the next ready stream context of
its die (R328).
-/
namespace Sys2Proof.Machine
open Host

/-! ### The encode stream descriptor (R355) -/

def signed8 (x : Nat) : Int := sext 8 (x % 256)
def esDie (b : List Byte) : Nat := recField b 0 1 % 4
def esCodec (b : List Byte) : Nat := recField b 1 1
def esChroma (b : List Byte) : Nat := recField b 2 1
def esW (b : List Byte) : Nat := recField b 4 2
def esH (b : List Byte) : Nat := recField b 6 2
def esGop (b : List Byte) : Nat := recField b 16 2
def esMini (b : List Byte) : Nat := recField b 18 1
def esFlags (b : List Byte) : Nat := recField b 19 1
def esCapEn (b : List Byte) : Bool := (esFlags b).testBit 1
def esReconEn (b : List Byte) : Bool := (esFlags b).testBit 3
def esPsnrEn (b : List Byte) : Bool := (esFlags b).testBit 4
def esFull (b : List Byte) : Bool := (esFlags b).testBit 5
/-- The matrix, as `matrixK` numbers it. -/
def esMatrix (b : List Byte) : Nat := match esFlags b / 64 with | 0 => 2 | 1 => 3 | _ => 1
def esQ (b : List Byte) : Nat := recField b 20 1
def esCeil (b : List Byte) : Nat := recField b 21 1
def esAct (b : List Byte) : Nat := recField b 23 1
def esRoi (b : List Byte) (c : Nat) : Int := signed8 (recField b (24 + c) 1)
def esCap (b : List Byte) : Nat := recField b 32 4
def esWin (b : List Byte) : Nat := recField b 36 1
def esIntra (b : List Byte) : Int := signed8 (recField b 37 1)
def esLayer (b : List Byte) : Nat := recField b 38 1
def esPolder (b : List Byte) : Nat := recField b 39 1 % 16
def esRing (b : List Byte) : Nat := recField b 40 8
def esEntries (b : List Byte) : Nat := recField b 48 4
def esFrameSem (b : List Byte) : Nat := recField b 52 2
def esDoneSem (b : List Byte) : Nat := recField b 54 2
def esOut (b : List Byte) : Nat := recField b 56 8
def esOutBytes (b : List Byte) : Nat := recField b 64 8
def esResult (b : List Byte) : Nat := recField b 72 8
def esResults (b : List Byte) : Nat := recField b 80 4
def esRecon (b : List Byte) : Nat := recField b 84 8
def esRecons (b : List Byte) : Nat := recField b 92 4
def esReconKib (b : List Byte) : Nat := recField b 96 4
def esReconFmt (b : List Byte) : Nat := recField b 100 1
def esLevel (b : List Byte) : Nat := recField b 101 1
def esReconSem (b : List Byte) : Nat := recField b 102 2
def esReconFree (b : List Byte) : Nat := recField b 104 2
def esIn (b : List Byte) : Nat := recField b 106 1
def esGain (b : List Byte) (c : Nat) : Fv := bf16.decode (recField b (108 + 2 * c) 2)
def esOffset (b : List Byte) (c : Nat) : Fv := bf16.decode (recField b (114 + 2 * c) 2)
def esSummary (b : List Byte) : Nat := recField b 120 8

/-- CTU rows and CTUs in a row: blocks of 64 × 64 (R351). -/
def esRows (b : List Byte) : Nat := ceilDiv (esH b) 64
def esCols (b : List Byte) : Nat := ceilDiv (esW b) 64

/-- The reserve of a row (R364). -/
def rowReserve (b : List Byte) (intra : Bool) : Nat := esCols b * (if intra then 64 else 16)
def headReserve : Nat := 4096
/-- The frame fallback cost (R365). -/
def fallbackCost (b : List Byte) : Nat := headReserve + esRows b * rowReserve b true

/-- Bytes of one reconstruction (R369). -/
def reconBytes (b : List Byte) : Nat :=
  if esReconFmt b = 1 then 16 * esW b * esH b else rawBytes (if esChroma b = 0 then 1 else 2) (esW b) (esH b)

/-- The first field of an encode stream descriptor that is bad (R355, R356). -/
def State.esBad (s : State) (b : List Byte) : Option Nat :=
  let size (x hi : Nat) : Bool := !inRange x 64 hi || decide (x % 8 ≠ 0)
  let out := esOut b % 2 ^ 52 / extentBytes
  firstOf [
    (decide (recField b 0 1 > 3), 0),
    (!inRange (esCodec b) 1 2, 1),
    (decide (esChroma b > 1) || (esChroma b = 1 && esCodec b = 2), 2),
    (decide (recField b 3 1 > 2), 3),
    (size (esW b) 8192, 4),
    (size (esH b) 4352, 6),
    (decide (recField b 8 4 = 0), 8),
    (decide (recField b 12 4 = 0), 12),
    (!([1, 2, 4, 8].contains (esMini b)), 18),
    (decide (esFlags b / 64 > 2), 19),
    (decide (esQ b > 63), 20),
    (!inRange (esCeil b) (esQ b) 63, 21),
    (decide (recField b 22 1 ≠ 0), 22),
    (decide (esAct b > 8), 23),
    ((List.range 8).any (fun c => decide (esRoi b c < -32) || decide (esRoi b c > 31)), 24),
    (esCapEn b && (decide (esCap b = 0) || decide (esCap b < fallbackCost b * esWin b)), 32),
    (!inRange (esWin b) 1 120, 36),
    (decide (esIntra b < -16) || decide (esIntra b > 15), 37),
    (decide (esLayer b > 4), 38),
    (decide (recField b 39 1 > 15), 39),
    (decide (esRing b % 64 ≠ 0), 40),
    (!inRange (esEntries b) 1 65536, 48),
    (decide (esOut b % 16 ≠ 0) || decide ((s.objOf out).glowMode ≠ 0), 56),
    (decide (esOutBytes b % 16 ≠ 0), 64),
    (decide (esResult b % 64 ≠ 0), 72),
    (!inRange (esResults b) 1 65536, 80),
    (esReconEn b && decide (esRecon b % 4096 ≠ 0), 84),
    (esReconEn b && !inRange (esRecons b) 1 256, 92),
    (esReconEn b && (decide (esReconKib b % 4 ≠ 0) || decide (esReconKib b * 1024 < reconBytes b)), 96),
    (decide (esReconFmt b > 1), 100),
    (decide (esIn b > 2) || (esIn b = 1 && esChroma b = 1) || (esIn b = 2 && esChroma b = 0), 106),
    (decide (recField b 107 1 ≠ 0), 107),
    (decide (esSummary b % 64 ≠ 0), 120)]

/-- Detail of the events of R372. -/
def encDetail (stream coded row : Nat) : Nat := stream % 64 * 2 ^ 56 + coded % 2 ^ 24 * 2 ^ 32 + row % 65536 * 65536

/-- ENC_OPEN (R350, R352, R355, R356, R485). DEDUCED (log entry 83). -/
def execEncOpen (q : Nat) (s : State) : Outcome State Fault Refusal :=
  .next (s.take q 0x30 1 (fun s r e =>
    if s.noMedia e.target then s.finish r 0x0F 0 0
    else match s.targetBad r.fn e.target with
    | some st => (if st = 0x0A then s.refuse (.vf r.fn) e.op else s).finish r st 0 0
    | none =>
      if e.target = 0 then s.finish r 0x0E 0 0
      else match s.readDesc e.desc 128 with
        | none => s.finish r 0x0D 0 0
        | some b =>
          let k := esDie b
          if !s.mediaUp k e.target then s.finish r 0x0F 0 0
          else if !s.fnMayUse r.fn (esPolder b) then (s.refuse (.vf r.fn) e.op).finish r 0x02 39 0
          else match s.esBad b with
            | some off => (s.mediaEvent k e.target 0x0610 1 (encDetail 0 0 off)).finish r 0 off 2
            | none =>
              if esLevel b ≠ 0 && !Config.levelHolds b then
                (s.mediaEvent k e.target 0x0610 1 (encDetail 0 0 101)).finish r 0 101 3
              else match s.freeStream k with
                | none => s.finish r 0 0 1
                | some i =>
                  let h := s.nextHandle
                  let s := (if s.variant = .tbx20c then s.emulateFor e.target 0 else s).tick
                  let s := ({ s with nextHandle := h + 1 } : State).setStream k i (.encode h)
                  (s.setEnc h { desc := b, ctx := e.target, fn := r.fn, stream := i,
                                model := esCap b * esWin b }).finish r 0 0 (i * 256 + h % 2 ^ 32 * 65536)))

/-! ### Frame entries (R357, R358) -/

def feName (b : List Byte) : Nat := recField b 0 8
def feMap (b : List Byte) : Nat := recField b 8 8
def fePitch (b : List Byte) : Nat := recField b 16 4
def feCp (b : List Byte) : Nat := recField b 20 2
def feMapPitch (b : List Byte) : Nat := recField b 22 2
def feForce (b : List Byte) : Bool := (recField b 24 1).testBit 0
def feEnd (b : List Byte) : Bool := (recField b 24 1).testBit 1
def feOverride (b : List Byte) : Bool := (recField b 24 1).testBit 2
def feQ (b : List Byte) : Nat := recField b 25 1
/-- Reserved bits of an entry that are set (R358). -/
def feReserved (d b : List Byte) : Bool :=
  decide (recField b 24 1 ≥ 8) || (b.drop 26).any (· ≠ 0) || (decide (esIn d ≠ 0) && decide (feCp b ≠ 0))

/-- The job of a stream runs, or comes to its end by a cancel. -/
def State.encGoes (s : State) (h : Nat) : Bool :=
  let v := s.enc h
  v.live && decide (v.state = 0) && decide (v.status = 0) && s.jobGoes v.ctx && s.mediaUp (esDie v.desc) v.ctx
    && s.mediaLantern (esDie v.desc) 1

/-- ENC_FRAME_TAKE (R357, R358). -/
def execEncFrameTake (enc : Nat) (s : State) : Outcome State Fault Refusal :=
  .next (
    let v := s.enc enc
    let d := v.desc
    if !s.encGoes enc || v.ended || !s.postThere v.ctx (esFrameSem d) then s
    else
      let a := esRing d + v.taken % esEntries d * 64
      s.agentDo (s.mediaWho (esDie d) 0 v.ctx (esPolder d)) false a 64 (fun s =>
        let b := s.devRead a 64
        let intra := v.taken = 0 || feForce b || (esGop d ≠ 0 && decide (v.sinceIntra ≥ esGop d))
        (s.takePost v.ctx (esFrameSem d)).setEnc enc { v with
          taken := v.taken + 1, ended := feEnd b, closing := v.closing || feEnd b
          sinceIntra := if intra then 1 else v.sinceIntra + 1
          frames := v.frames ++ [{ index := v.taken, bytes := b, intra := intra }] }))

/-! ### Mini-groups (R360, R371) -/

/-- The coded order inside a mini-group after its last frame, as (place, layer, no later frame refers to it).
DEDUCED (log entry 81). -/
def midOrder : Nat → Nat → Nat → Nat → List (Nat × Nat × Bool)
  | 0, _, _, _ => []
  | n + 1, lo, hi, layer =>
    if hi - lo < 2 then []
    else
      let m := (lo + hi) / 2
      (m, layer, decide (hi - lo = 2)) :: (midOrder n lo m (layer + 1) ++ midOrder n m hi (layer + 1))

/-- Frames in coded order with their layers. DEDUCED (log entry 81). -/
def groupOrder (fs : List EncFrame) : List EncFrame :=
  let n := fs.length
  ((n, 0, false) :: midOrder n 0 n 1).filterMap (fun x =>
    (fs[x.1 - 1]?).map (fun f => { f with layer := x.2.1, leaf := x.2.2 }))

/-- The next mini-group of a stream and the frames left: an intra frame alone, or inter frames up to the group's
length, cut by the next intra frame and by the end of the stream; none while frames it needs are missing.
DEDUCED (log entry 81). -/
def EncStream.nextGroup (v : EncStream) (final : Bool) : Option (List EncFrame × List EncFrame) :=
  match v.frames with
  | [] => none
  | f :: rest =>
    if f.intra then some ([f], rest)
    else
      let run := v.frames.takeWhile (fun x => !x.intra)
      let n := esMini v.desc
      let cut := decide (run.length < v.frames.length) || final
        || (esGop v.desc ≠ 0 && decide (v.sinceIntra ≥ esGop v.desc))
      if run.length ≥ n then some (groupOrder (run.take n), v.frames.drop n)
      else if cut then some (groupOrder run, v.frames.drop run.length)
      else none

/-- No more frames come: the last entry is taken, or the stream closes and no post is left. -/
def State.encFinal (s : State) (v : EncStream) : Bool :=
  v.ended || (v.closing && !s.postThere v.ctx (esFrameSem v.desc))

/-- The mini-group that a stream codes from, formed where the last one is done. -/
def State.encGroup (s : State) (v : EncStream) : Option EncStream :=
  if !v.group.isEmpty then some v
  else (v.nextGroup (s.encFinal v)).map (fun g => { v with group := g.1, frames := g.2 })

/-- Posts of recon_free_sem free the oldest reconstruction buffers (R369). -/
def State.takeRecons (s : State) (h : Nat) : Nat → State
  | 0 => s
  | n + 1 =>
    let v := s.enc h
    match v.recons with
    | [] => s
    | _ :: rest =>
      if s.postThere v.ctx (esReconFree v.desc) then
        ((s.takePost v.ctx (esReconFree v.desc)).setEnc h { v with recons := rest }).takeRecons h n
      else s

/-- A stream is ready (R328, R354). -/
def State.encReady (s : State) (h : Nat) : Bool :=
  let v := s.enc h
  s.encGoes h && v.engine = none && (s.encGroup v).isSome
    && (!esReconEn v.desc || decide (v.recons.length < esRecons v.desc)) && s.codecOpen (esDie v.desc) (esPolder v.desc)

/-! ### CODEC_FRAME (R328, R539) -/

/-- A stream context of a die is ready. -/
def State.streamReady (s : State) (k i : Nat) : Bool :=
  match s.stream k i with
  | .none_ => false
  | .ingest h seq => s.ingestReady h seq
  | .encode h => s.encReady h

/-- Posts that free reconstruction buffers of a die's streams are seen. -/
def State.settleRecons (s : State) (k : Nat) : State :=
  s.media.encs.foldl (fun s e => if esDie e.2.desc = k then s.takeRecons e.1 e.2.recons.length else s) s

/-- The next ready stream context of a die, after the one that the engine served last. -/
def State.nextStream (s : State) (k eng : Nat) : Option Nat :=
  let last := (mapGet 0 s.media.served (2 * k + eng) + 63) % 64
  ((List.range 64).map (fun j => (last + 1 + j) % 64)).find? (fun i => s.streamReady k i)

/-- A codec engine of a die is fitted, tested good, and its lantern runs (R448). -/
def State.engineUp (s : State) (k eng : Nat) : Bool :=
  decide (k < 4) && decide (eng < 2) && !mapGet false s.dep.unitsOut (64 + 2 * k + eng) && s.mediaLantern k 1

/-- CODEC_FRAME: at a frame boundary an engine takes the next frame of the next ready stream context (R328). A frame
to decode is decoded; a frame to encode is in progress on the engine from then on. -/
def execCodecFrame (media eng : Nat) (s : State) : Outcome State Fault Refusal :=
  .next (
    let n := 2 * media + eng
    let busy := s.media.encs.any (fun e => decide (esDie e.2.desc = media) && decide (e.2.engine = some eng))
    if !s.engineUp media eng || busy then s
    else
      let s := s.settleRecons media
      match s.nextStream media eng with
      | none => s
      | some i =>
        let s := s.setMedia { s.media with served := mapSet 0 s.media.served n (i + 1), off := mapSet false s.media.off n false }
        match s.stream media i with
        | .none_ => s
        | .ingest h seq => s.decodeFrame h seq eng
        | .encode h =>
          match s.encGroup (s.enc h) with
          | some v => s.setEnc h { v with engine := some eng }
          | none => s)

/-- CODEC_POWER_OFF (R539): an engine whose die has had no ready stream context for 10 ms. DEDUCED (log entry 95). -/
def execCodecPowerOff (media eng : Nat) (s : State) : Outcome State Fault Refusal :=
  .next (
    let busy := s.media.encs.any (fun e => decide (esDie e.2.desc = media) && decide (e.2.engine = some eng))
    if media ≥ 4 || eng ≥ 2 || busy || (List.range 64).any (fun i => s.streamReady media i) then s
    else s.setMedia { s.media with off := mapSet false s.media.off (2 * media + eng) true })

/-! ### Input (R359) -/

/-- A channel of BF16 input after step 1 of R359, and whether it was clamped or a NaN. -/
def State.inChan (s : State) (d f : List Byte) (c x y : Nat) : Fv × Bool :=
  let a := (feName f + y * fePitch f + x * feCp f * 2 + 2 * c) % 2 ^ 52
  let v := add32 (mul32 (bf16.decode (ofBytes (s.memBytes a 2))) (esGain d c)) (esOffset d c)
  if v.isNan then (.zero, true) else (clamp01 v, v.lt .zero || (Fv.ofInt 1).lt v)

/-- Clamps and NaNs of a frame's input. -/
def State.clampsIn (s : State) (d f : List Byte) : Nat :=
  if esIn d ≠ 0 then 0
  else ((List.range (esH d)).map (fun y => ((List.range (esW d)).map (fun x =>
    ((List.range 3).filter (fun c => (s.inChan d f c x y).2)).length)).sum)).sum

/-- A 10-bit luma sample of the encoder's input. -/
def State.inLuma (s : State) (d f : List Byte) (x y : Nat) : Nat :=
  if esIn d = 0 then
    let v (c : Nat) := (s.inChan d f c x y).1
    let l := lumaOf (esMatrix d) (v 0) (v 1) (v 2)
    let i := (if esFull d then mul32 l (.ofInt 1023) else add32 (mul32 l (.ofInt 876)) (.ofInt 64)).toIntRne
    if i < 0 then 0 else min i.toNat 1023
  else
    let w := ofBytes (s.memBytes ((feName f + y * fePitch f + 2 * x) % 2 ^ 52) 2)
    if esIn d = 1 then w / 64 else w % 1024

/-- Bytes of input that a frame reads from its name on. -/
def inBytes (d f : List Byte) : Nat :=
  if esIn d = 0 then esH d * fePitch f else if esIn d = 1 then esH d * fePitch f * 3 / 2 else esH d * fePitch f * 2

/-! ### Quality (R360, R366) -/

/-- The class of a block, and whether its byte is bad (R366). -/
def State.roiClass (s : State) (f : List Byte) (x y : Nat) : Nat × Bool :=
  if feMap f = 0 then (0, false)
  else
    let v := (s.memByte ((feMap f + y * feMapPitch f + x) % 2 ^ 52)).toNat
    if v ≥ 8 then (0, true) else (v, false)

/-- Numerator and denominator of A(b): 1 plus the mean variance of the block's 8 × 8 luma blocks (R360). -/
def State.activity (s : State) (d f : List Byte) (bx by_ : Nat) : Nat × Nat :=
  let xs := (List.range 8).filter (fun i => decide (bx * 64 + 8 * i < esW d))
  let ys := (List.range 8).filter (fun i => decide (by_ * 64 + 8 * i < esH d))
  let vars := ys.flatMap (fun j => xs.map (fun i =>
    let px := (List.range 64).map (fun k => s.inLuma d f (bx * 64 + 8 * i + k % 8) (by_ * 64 + 8 * j + k / 8))
    64 * (px.map (fun v => v * v)).sum - px.sum * px.sum))
  (4096 * vars.length + vars.sum, 4096 * vars.length)

/-- a(b) of R360, exactly: round(act ÷ 4 × log2(A(b) ÷ Ā)), half away from zero, within ±6, where Ā is the geometric
mean of the `n` activities. -/
def activityOffset (act : Nat) (as : List (Nat × Nat)) (a : Nat × Nat) : Int :=
  let n := as.length
  let num := as.foldl (fun p x => p * x.1) 1
  let den := as.foldl (fun p x => p * x.2) 1
  let up := (a.1 ^ n * den) ^ act
  let dn := (a.2 ^ n * num) ^ act
  let step (k : Nat) : Nat := 2 ^ (n * (4 * k + 2))
  let plus := ((List.range 6).filter (fun k => decide (up ≥ step k * dn))).length
  let minus := ((List.range 6).filter (fun k => decide (dn ≥ step k * up))).length
  if act = 0 then 0 else (plus : Int) - minus

/-- The index of each block without the rate offset, by row: qk + roi_offset + a(b) (R360). -/
def State.baseIndex (s : State) (d : List Byte) (fr : EncFrame) : List (List Int) :=
  let f := fr.bytes
  let qk : Int := (if feOverride f then feQ f else esQ d)
    + (if fr.intra then esIntra d else (esLayer d * fr.layer : Nat))
  let as := if esAct d = 0 then [] else
    (List.range (esRows d)).flatMap (fun y => (List.range (esCols d)).map (fun x => s.activity d f x y))
  (List.range (esRows d)).map (fun y => (List.range (esCols d)).map (fun x =>
    qk + esRoi d (s.roiClass f x y).1
      + (if esAct d = 0 then 0 else activityOffset (esAct d) as (as.getD (y * esCols d + x) (1, 1)))))

/-- qb of a block at rate offset `d` (R360). -/
def blockIndex (ceil : Nat) (base : Int) (off : Nat) : Nat := (min (ceil : Int) (base + off)).toNat

/-! ### The cap (R361, R363 to R365) -/

/-- What coding a frame costs, free: the estimate of a row with d, the bits of a coded row, of a row in fallback form
within its reserve, and of the headers within theirs. DESIGN CHOICE (log entry 82). -/
def estRow (seed r off : Nat) : Nat := Config.encode seed 1 r off
/-- DESIGN CHOICE (log entry 82). -/
def codedRow (seed r off : Nat) : Nat := 8 * Config.encode seed 2 r off
def fallRow (seed r reserve : Nat) : Nat := 8 * (Config.encode seed 4 r 0 % (reserve / 8 + 1))
def headBits (seed : Nat) : Nat := 8 * (Config.encode seed 3 0 0 % (headReserve / 8 + 1))

/-- A frame as coded: its bits, the first fallback row, and the rate offset of each row coded before it.
DESIGN CHOICE (log entry 82). -/
structure CodedFrame where
  bits : Nat
  fallback : Option Nat
  offs : List Nat

/-- What the row-by-row control works with: whether the cap is in force, F times window_frames and window_frames, the
rows and their reserve, the estimates with d = 0, and the number of the frame. -/
structure RowPlan where
  cap : Bool
  room : Nat
  win : Nat
  rows : Nat
  reserve : Nat
  seed : Nat

/-- Tf and E(r) of R363. -/
def RowPlan.total (p : RowPlan) : Nat := ((List.range p.rows).map (fun r => estRow p.seed r 0)).sum
def RowPlan.upTo (p : RowPlan) (r : Nat) : Nat := ((List.range (r + 1)).map (fun r => estRow p.seed r 0)).sum

/-- A number of bits exceeds F. -/
def RowPlan.exceeds (p : RowPlan) (n : Nat) : Bool := p.cap && decide (n * p.win > p.room)

/-- The starting d: the smallest, up to the ceiling, whose estimate fits F less the reserve (step 2 of R363). -/
def RowPlan.start (p : RowPlan) (ceil : Nat) : Nat :=
  let fits (d : Nat) : Bool :=
    !p.exceeds (((List.range p.rows).map (fun r => estRow p.seed r d)).sum + headBits p.seed + p.rows * p.reserve)
  ((List.range (ceil + 1)).find? fits).getD ceil

/-- The change of d after row `r` (step 3 of R363). -/
def RowPlan.next (p : RowPlan) (start d r spent : Nat) : Nat :=
  let e := p.upTo r
  let t := p.total
  if !p.cap then 0
  else if p.exceeds (spent + (t - e) + (p.rows - r - 1) * p.reserve) then d + 2
  else if 16 * spent > 16 * e + t then d + 1
  else if 16 * spent + t < 16 * e && d > start then d - 1
  else d

/-- Rows `r` on, with `n` of them left: coded, or from the first that would not leave the reserve in fallback form
(R365). -/
def RowPlan.code (p : RowPlan) (start : Nat) : Nat → Nat → Nat → Nat → List Nat → CodedFrame
  | 0, _, _, spent, offs => { bits := spent, fallback := none, offs := offs }
  | n + 1, r, d, spent, offs =>
    let x := codedRow p.seed r d
    if p.exceeds (spent + x + n * p.reserve) then
      { bits := spent + ((List.range (n + 1)).map (fun i => fallRow p.seed (r + i) p.reserve)).sum, fallback := some r,
        offs := offs }
    else p.code start n (r + 1) (p.next start d r (spent + x)) (spent + x) (offs ++ [d])

/-- A frame coded under its plan. -/
def RowPlan.frame (p : RowPlan) (ceil : Nat) : CodedFrame :=
  let d := if p.cap then p.start ceil else 0
  p.code d p.rows 0 d (headBits p.seed) []

/-- F times window_frames before a frame: it grows by R from the second coded frame on (R361). -/
def EncStream.room (v : EncStream) : Nat :=
  if v.coded = 0 then v.model else min (esCap v.desc * esWin v.desc) (v.model + esCap v.desc)

/-! ### Reconstructions (R369) -/

/-- The reconstructed picture of a frame, whose components are free. -/
def reconPic (d : List Byte) (seed : Nat) : Pic :=
  { w := esW d, h := esH d, depth := 10, sx := 2, sy := if esChroma d = 0 then 2 else 1, siteX := 0,
    siteY := if esChroma d = 0 then 1 else 0, rgb := false, full := esFull d, matrix := esMatrix d,
    px := fun p x y => Config.reconPixel seed p x y % 1024 }

/-- Bytes of a reconstruction: planar in the layout of the stream's chroma, or BF16 RGB with a channel pitch of 8. -/
def reconData (d : List Byte) (seed : Nat) : List Byte :=
  let p := reconPic d seed
  let plane (c w h sh : Nat) : List Byte :=
    (List.range h).flatMap (fun y => (List.range w).flatMap (fun x => toBytes 2 (p.px c x y * 2 ^ sh)))
  if esReconFmt d = 1 then
    (List.range p.h).flatMap (fun y => (List.range p.w).flatMap (fun x =>
      (List.range 3).flatMap (fun c =>
        toBytes 2 (bf16.round (div32f (sub32 (clamp01 (p.chan false c x y)) (esOffset d c)) (esGain d c))))
        ++ List.replicate 10 0))
  else if esChroma d = 0 then
    plane 0 p.w p.h 6 ++ (List.range (p.h / 2)).flatMap (fun y => (List.range (p.w / 2)).flatMap (fun x =>
      toBytes 2 (p.px 1 x y * 64) ++ toBytes 2 (p.px 2 x y * 64)))
  else plane 0 p.w p.h 0 ++ plane 1 (p.w / 2) p.h 0 ++ plane 2 (p.w / 2) p.h 0

/-! ### ENCODE_FRAME (R360 to R369) -/

/-- Indices of every block of a coded frame: those of fallback rows are q_ceiling (R365). -/
def frameIndices (ceil : Nat) (base : List (List Int)) (c : CodedFrame) : List Nat :=
  (base.zipIdx).flatMap (fun x => x.1.map (fun b =>
    match c.offs[x.2]? with
    | some d => blockIndex ceil b d
    | none => ceil))

/-- PSNR of a plane, free where psnr_en asks for it (R368). DESIGN CHOICE (log entry 82). -/
def psnrOf (d : List Byte) (seed p : Nat) : Nat := if esPsnrEn d then Config.encode seed 5 p 0 % 2 ^ 32 else 0

/-- What the result record of a frame says beside the stream's own fields (R367). -/
structure FrameResult where
  frame : EncFrame
  coded : CodedFrame
  seed : Nat
  qs : List Nat
  clamps : Nat
  roiBad : Bool
  full : Nat
  recon : Nat

/-- The result record (R367). -/
def resultRecord (v : EncStream) (x : FrameResult) : List Byte :=
  let d := v.desc
  let f := x.frame
  let n := x.qs.length
  toBytes 4 f.index ++ toBytes 4 v.coded ++ toBytes 1 (if f.intra then 0 else if f.leaf then 2 else 1)
    ++ toBytes 1 f.layer
    ++ toBytes 1 (bit x.coded.fallback.isSome 0 + bit (feForce f.bytes) 1 + bit (decide (x.clamps ≠ 0)) 2
        + bit x.roiBad 3 + bit (feReserved d f.bytes) 4)
    ++ toBytes 1 0 ++ toBytes 4 (x.coded.bits / 8) ++ toBytes 8 v.bytes ++ toBytes 2 (x.coded.fallback.getD 0xFFFF)
    ++ toBytes 1 ((x.qs.sum + n / 2) / n) ++ toBytes 1 (x.qs.foldl max 0)
    ++ toBytes 4 (if esCapEn d then x.full else 0xFFFFFFFF)
    ++ toBytes 4 (psnrOf d x.seed 0) ++ toBytes 4 (psnrOf d x.seed 1) ++ toBytes 4 (psnrOf d x.seed 2)
    ++ toBytes 4 x.recon ++ toBytes 4 (Config.encode x.seed 6 0 0) ++ toBytes 4 x.clamps ++ toBytes 8 0

/-- CAP_EXHAUSTED, at most 16 in a second for a stream; the others are counted (R372). -/
def State.capEvent (s : State) (h row : Nat) : State :=
  let v := s.enc h
  let k := esDie v.desc
  let fresh := s.time ≥ v.capSecond + second
  let posts := if fresh then 0 else v.capPosts
  if posts ≥ 16 then s.setEnc h { v with unposted := v.unposted + 1 }
  else (s.setEnc h { v with capSecond := if fresh then s.time else v.capSecond, capPosts := posts + 1 }).mediaEvent k v.ctx
    0x0611 1 (encDetail v.stream v.coded row)

/-- A coded frame does not fit: it is not written, and the stream closes with status 2 (R371). -/
def State.outputFull (s : State) (h : Nat) : State :=
  let v := s.enc h
  (s.setEnc h { v with engine := none, closing := true, status := 2 }).mediaEvent (esDie v.desc) v.ctx 0x0613 1
    (encDetail v.stream v.coded 0)

/-- The reading of a frame's input and map can go on, or stops. -/
def State.encReads (s : State) (v : EncStream) (f : List Byte) (act : State → State) : State :=
  let d := v.desc
  let who := s.mediaWho (esDie d) 0 v.ctx (esPolder d)
  s.agentDo who false (feName f) (inBytes d f) (fun s =>
    if feMap f = 0 then act s
    else s.agentDo who false (feMap f) (esRows d * feMapPitch f) act)

/-- A frame is coded, appended, recorded and posted (R360 to R369). -/
def State.encodeFrame (s : State) (h : Nat) (fr : EncFrame) (rest : List EncFrame) : State :=
  s.encReads (s.enc h) fr.bytes (fun s =>
    let v := s.enc h
    let d := v.desc
    let k := esDie d
    let seed := s.freeCtr
    let s := s.tick
    let base := s.baseIndex d fr
    let plan : RowPlan := { cap := esCapEn d, room := v.room, win := esWin d, rows := esRows d,
                            reserve := rowReserve d fr.intra, seed := seed }
    let c := plan.frame (esCeil d)
    let bytes := c.bits / 8
    if v.bytes + bytes > esOutBytes d then s.outputFull h
    else
      let left := v.room - c.bits * esWin d
      let roiBad := (List.range (esRows d)).any (fun y => (List.range (esCols d)).any (fun x => (s.roiClass fr.bytes x y).2))
      let recon := if esReconEn d then v.nextRecon else 0xFFFFFFFF
      let x : FrameResult := { frame := fr, coded := c, seed := seed, qs := frameIndices (esCeil d) base c,
                               clamps := s.clampsIn d fr.bytes, roiBad := roiBad, full := left / esWin d, recon := recon }
      let ps := [(esOut d + v.bytes, (List.range bytes).map (Config.encodedByte seed)),
                 (esResult d + v.coded % esResults d * 64, resultRecord v x)]
        ++ (if esReconEn d then [(esRecon d + v.nextRecon * esReconKib d * 1024, reconData d seed)] else [])
      s.agentPut (s.mediaWho k 0 v.ctx (esPolder d)) ps (fun s =>
        let bits := (v.bits ++ [c.bits]).drop (v.bits.length + 1 - esWin d)
        let us := Config.encode seed 6 0 0 % 2 ^ 32
        let s := (s.setEnc h { v with
          engine := none, group := rest, coded := v.coded + 1, bytes := v.bytes + bytes, model := left, bits := bits
          largest := max v.largest bits.sum, capped := v.capped + (if c.fallback.isSome then 1 else 0)
          psnr := if esPsnrEn d then v.psnr ++ [BitVec.ofNat 32 (psnrOf d seed 0)] else v.psnr
          codeUs := v.codeUs + us
          recons := if esReconEn d then v.recons ++ [v.nextRecon] else v.recons
          nextRecon := if esReconEn d then (v.nextRecon + 1) % esRecons d else v.nextRecon }).chargeCodec k (v.engine.getD 0) (esPolder d) us
        let s := s.bump (mediaReg k 0x24) 32 1
        let s := match c.fallback with | some r => s.capEvent h r | none => s
        let s := if roiBad then
            s.postEachSecond (0x0612 * 4096 + h) (s.mediaEv k v.ctx 0x0612 0 (encDetail v.stream v.coded 0)) else s
        let s := s.semPost1 v.ctx (esDoneSem d) none
        if esReconEn d then s.semPost1 v.ctx (esReconSem d) none else s))

/-- ENCODE_FRAME: the frame in progress on an engine is coded (R363, R367). -/
def execEncodeFrame (enc eng : Nat) (s : State) : Outcome State Fault Refusal :=
  .next (
    let v := s.enc enc
    match v.group with
    | [] => s
    | f :: rest =>
      if !v.live || v.engine ≠ some eng || !s.engineUp (esDie v.desc) eng || (s.job v.ctx).faulted then s
      else s.encodeFrame enc f rest)

/-! ### Close (R370, R371) -/

/-- Mean and lowest of the finite values of Y PSNR (R370); 0 where there is none. -/
def psnrMean (l : List Lane) : Nat :=
  let vs := (l.map Fv.ofLane).filter (·.isFin)
  if vs.isEmpty then 0 else Fv.div32 (vs.foldl Fv.add .zero) (.ofInt vs.length)

def psnrLow (l : List Lane) : Nat :=
  match (l.map Fv.ofLane).filter (fun v => !v.isNan) with
  | [] => 0
  | v :: vs => fp32.round (vs.foldl (fun a b => if b.lt a then b else a) v)

/-- The stream summary (R370). -/
def summaryOf (v : EncStream) : List Byte :=
  toBytes 4 v.coded ++ toBytes 1 v.status ++ toBytes 3 0 ++ toBytes 8 v.bytes ++ toBytes 4 v.capped
    ++ toBytes 4 v.unposted ++ toBytes 4 v.largest ++ toBytes 4 (psnrMean v.psnr) ++ toBytes 4 (psnrLow v.psnr)
    ++ toBytes 4 (v.codeUs / 1000) ++ toBytes 24 0

/-- A stream ends: its summary is copied to what waits for it, and its stream context is free. -/
def State.endEnc (s : State) (h : Nat) : State :=
  let v := s.enc h
  let k := esDie v.desc
  let s := (s.setEnc h {}).setStream k v.stream .none_
  let s := s.mediaEvent k v.ctx 0x0614 0 (encDetail v.stream v.coded 0)
  let s := match v.closeReq with | some r => s.complete r false { data := summaryOf v } | none => s
  let s := match v.cancelReq with | some r => s.finish r 0 0 0 | none => s
  match v.waiting with | some r => s.finish r 0x08 0 0 | none => s

/-- ENCODE_CLOSE_COMPLETE (R358, R370, R371). -/
def execEncodeCloseComplete (enc : Nat) (s : State) : Outcome State Fault Refusal :=
  .next (
    let v := s.enc enc
    let d := v.desc
    let done := v.status ≠ 0 || (v.closing && v.frames.isEmpty && v.group.isEmpty && s.encFinal v)
    if !v.live || v.engine ≠ none || !done || decide (v.state ≠ 0) || !s.mediaLantern (esDie d) 1 then s
    else s.agentPut (s.mediaWho (esDie d) 0 v.ctx (esPolder d)) [(esSummary d, summaryOf v)] (fun s => s.endEnc enc))

/-- ENC_CLOSE (R371, R485). -/
def execEncClose (q : Nat) (s : State) : Outcome State Fault Refusal :=
  .next (s.take q 0x31 1 (fun s r e =>
    let h := e.arg1
    let v := s.enc h
    if !v.live then s.finish r 0x0E 0 0
    else if r.fn ≠ 0 && v.fn ≠ r.fn then (s.refuse (.vf r.fn) e.op).finish r 0x0A 0 0
    else if v.closeReq ≠ none then s.finish r 0x08 0 0
    else s.setEnc h { v with closing := true, closeReq := some r }))

/-- A cancel of a stream: the frame in progress completes, and no further one is coded (R371). -/
def State.cancelEnc (s : State) (h : Nat) (reply : Option Reply) : State :=
  let v := s.enc h
  let s := match v.waiting with | some r => s.finish r 0x08 0 0 | none => s
  s.setEnc h { v with status := if v.status = 0 then 1 else v.status, state := 0, closing := true, waiting := none,
                      cancelReq := reply, frames := [], group := if v.engine = none then [] else v.group.take 1 }

/-- A stream torn down (R35, R371): the frame in progress is abandoned and the summary says so. -/
def State.tearEnc (s : State) (h status : Nat) : State :=
  let v := { s.enc h with status := status, engine := none }
  let s := s.setEnc h v
  let a := esSummary v.desc
  let s := if (s.devStop { s.mediaWho (esDie v.desc) 0 v.ctx (esPolder v.desc) with ctx := 0 } true a 64).isSome then s
    else s.write 0 (a % 2 ^ 52) (summaryOf v)
  s.endEnc h

/-- A stream of a job that is cancelled: the frame in progress completes, and the status is 1 (R371, R392). -/
def State.stopEnc (s : State) (h : Nat) : State :=
  let v := s.enc h
  let s := match v.engine, v.group with
    | some _, f :: rest => s.encodeFrame h f rest
    | _, _ => s
  if (s.enc h).live then s.tearEnc h 1 else s

end Sys2Proof.Machine
end

