-- ==== Sys2Proof/Machine/Place.lean ====
section
/-!
DEFINITION. Placement of tasks on cores (R379 to R383), the saving and restoring of a suspended context (R61 to R65),
tasks that move off a fenced core (R394), and penumbra timeouts (R246, R247).
-/
namespace Sys2Proof.Machine
open Host

/-! ### Saving a context (R61, R133, R243, R285) -/

/-- A page walk stops: it goes on from the slot of the first page that was not consumed. DEDUCED (log entry 86). -/
def AttnRun.rewalk (r : AttnRun) : AttnRun :=
  match r.queue with
  | [] => { r with waitFrom := none, late := false }
  | p :: _ => { r with queue := [], walkSlot := p.token / 384, walkDone := false, waitFrom := none, late := false }

/-- A command in flight as the saved state records it. -/
def Queued.record (q : Queued) : Queued :=
  { q with granted := false, flight := match q.flight with | .attn r => .attn r.rewalk | x => x }

/-- The part of a map that lies in a range, from the range's start. -/
def mapCut {β : Type} (m : List (Nat × β)) (a n : Nat) : List (Nat × β) :=
  (m.filter (fun e => decide (a ≤ e.1) && decide (e.1 < a + n))).map (fun e => (e.1 - a, e.2))

/-- A range of a map replaced by what `mapCut` gave. -/
def mapPlace {β : Type} (m : List (Nat × β)) (a n : Nat) (l : List (Nat × β)) : List (Nat × β) :=
  m.takeWhile (fun e => decide (e.1 < a)) ++ l.map (fun e => (e.1 + a, e.2)) ++ m.dropWhile (fun e => decide (e.1 < a + n))

/-- A pending semaphore wait is withdrawn (R133); a barrier keeps the arrival (R134). -/
def State.withdraw (s : State) (c k : Nat) : State :=
  let sl := s.slot c k
  match sl.wait with
  | some (.sem i _ _ _ _) => (s.setSlot c k { sl with wait := none }).dropWaiter sl.id.ctx i (4 * c + k)
  | _ => s

/-- The posts of commands that have completed take place. DEDUCED (log entry 86). -/
def State.flushPosts (s : State) (c k : Nat) : State :=
  let sl := s.slot c k
  sl.posts.foldl (fun s i => s.semPost1 sl.id.ctx i (some { core := c, slot := k })) (s.setSlot c k { sl with posts := [] })

/-- What the save area of a context holds (R61). DESIGN CHOICE (log entry 10). -/
def State.savedOf (s : State) (c k : Nat) : Saved :=
  let sl := s.slot c k
  let co := s.core c
  let al := sl.allot
  { slot := { sl with
      held := none
      qVec := sl.qVec.map Queued.record, qSfu := sl.qSfu.map Queued.record, qTa := sl.qTa.map Queued.record
      qCe := sl.qCe.map Queued.record, qDma := sl.qDma.map Queued.record }
    buf := mapCut co.buf al.bufOrg al.bufLen
    bufValid := mapCut co.bufValid (al.bufBase * 64) (al.bufCount * 64)
    acc := mapCut co.acc al.accOrg al.accLen
    accValid := mapCut co.accValid (al.accBase * 16) (al.accCount * 16) }

/-- A slot freed whose counters go on with its task. -/
def State.vacate (s : State) (c k : Nat) : State := (s.setSlot c k { s.slot c k with cnt := {} }).freeSlot c k

/-- The engines of a core forget a command taken from a slot. -/
def State.releaseEngines (s : State) (c k : Nat) : State :=
  let co := s.core c
  s.setCore c { co with taken := co.taken.filter (fun e => decide (e.2 ≠ k + 1)) }

/-- A slot is saved and freed; its task holds the saved state and takes a state of R390.
DEDUCED (log entry 86). DESIGN CHOICE (log entry 10). -/
def State.saveTask (s : State) (c k state : Nat) (notice : Option Ev) : State :=
  let s := (s.withdraw c k).flushPosts c k
  let sl := s.slot c k
  let v := s.savedOf c k
  let s := (s.vacate c k).releaseEngines c k
  let j := s.job sl.id.ctx
  s.setJob sl.id.ctx (j.setTask sl.stage sl.task { state := state, saved := some v, notice := notice })

/-- The save pool of a die can be written (R62). -/
def State.poolFail (s : State) (ctx die : Nat) : Option AccFail :=
  let p := (s.job ctx).savePools.getD die (0, 0)
  match s.checkRange hubWho true p.1 p.2 with
  | some (.later _) => none
  | x => x

/-! ### Restoring and starting (R42, R65, R380) -/

/-- A command that goes on in another slot takes the table bank of its new core (R190). DEDUCED (log entry 86). -/
def Queued.resume (t : SfuTables) (q : Queued) : Queued :=
  { q with flight := match q.flight with
    | .row r => .row { r with bank := t.activeBank, gen := t.gen }
    | .attn r => .attn { r with bank := t.activeBank, gen := t.gen }
    | x => x }

/-- The slot of a restored context: its queues, and its wait at a barrier that was released meanwhile is over. -/
def State.resumeSlot (s : State) (c : Nat) (j : Job) (v sl : Slot) : Slot :=
  let f := (·.map (Queued.resume (s.core c).tables))
  let r := { v with
    id := sl.id, allot := sl.allot, num := sl.num, sfu := sl.sfu, attn := sl.attn, faulted := false, held := none
    qVec := f v.qVec, qSfu := f v.qSfu, qTa := f v.qTa, qCe := f v.qCe, qDma := f v.qDma }
  match v.wait with
  | some (.bar i g) => if (j.barrier v.stage i).gen > g then { r with wait := none, pc := v.pc + 8 } else r
  | _ => r

/-- A task takes a slot: the allotment, the control words of its job's policies, and its registers. -/
def State.seat (s : State) (ctx stage t c k bb ab : Nat) : State :=
  let j := s.job ctx
  let st := j.stage stage
  let task := j.task stage t
  let (nb, na) := match task.saved with
    | some v => (v.slot.allot.bufCount, v.slot.allot.accCount)
    | none => (st.buf, st.acc)
  let al : Allot := { valid := true, bufBase := bb, bufCount := nb, accBase := ab, accCount := na }
  let s := s.setAllot c k al
  let old := s.slot c k
  let sl : Slot := {
    id := { resident := true, state := 1, allotRefused := old.id.allotRefused, profile := j.profile, polder := j.polder,
            ctx := ctx }
    allot := al, num := NumCtl.ofWord j.numPolicy
    sfu := { refMode := j.sfuPolicy.testBit 31, refForced := old.sfu.refForced }, attn := AttnCtl.ofWord j.attnPolicy }
  let co := s.core c
  let co := { co with health := { co.health with off := false } }
  let s := match task.saved with
    | none => s.setCore c (co.setSlot k (s.fresh sl { code := st.code, entry := st.entry, stage := stage, task := t }))
    | some v => s.setCore c { co.setSlot k (s.resumeSlot c j v.slot sl) with
        buf := mapPlace co.buf al.bufOrg al.bufLen v.buf
        bufValid := mapPlace co.bufValid (bb * 64) (nb * 64) v.bufValid
        acc := mapPlace co.acc al.accOrg al.accLen v.acc
        accValid := mapPlace co.accValid (ab * 16) (na * 16) v.accValid }
  let s := s.setJob ctx (j.setTask stage t { state := 1, core := c, slot := k })
  let s := [Engine.vector, .sfu, .tensor, .conv, .dma].foldl (fun s e => s.postClaim { core := c, slot := k } e) s
  match task.notice with
  | some e => s.post e
  | none => s

/-! ### Offer and scan (R380, R383) -/

/-- The lowest base at which a run of granules meets none of those in force. -/
def lowestRun (used : List (Nat × Nat)) (total n : Nat) : Option Nat :=
  if n = 0 then some 0
  else (List.range (total + 1 - n)).find? (fun b => used.all (fun u => !runsMeet b n u.1 u.2))

/-- The exclusive rule of R383 in both directions. -/
def State.exclusiveOk (s : State) (c polder : Nat) : Bool :=
  (s.core c).slots.all (fun e => !e.2.id.resident || decide (e.2.id.ctx = 0) || decide (e.2.id.polder = polder)
    || (!(s.polder polder).exclusive && !(s.polder e.2.id.polder).exclusive))

/-- The slot and granules that a core offers to a task, if it fits. -/
def State.coreFit (s : State) (polder buf acc c : Nat) : Option (Nat × Nat × Nat) :=
  let co := s.core c
  if co.health.fenced || s.underTest c || !s.exclusiveOk c polder then none
  else match (List.range 4).find? (fun k => !(co.slot k).id.resident) with
    | none => none
    | some k =>
      let als := (co.slots.filter (fun e => decide (e.1 ≠ k) && e.2.allot.valid)).map (·.2.allot)
      match lowestRun (als.map (fun a => (a.bufBase, a.bufCount))) 48 buf,
            lowestRun (als.map (fun a => (a.accBase, a.accCount))) 32 acc with
      | some b, some a => some (k, b, a)
      | _, _ => none

/-- The region that a live update is at (R444): the first that has not been switched and whose die is in service. -/
def State.updateRegion (s : State) : Option Nat :=
  match s.dep.update with
  | some u => if u.step = 2 then (List.range 16).find? (fun r => !u.regions.contains r && s.dieUp (r / 2)) else none
  | none => none

/-- A region takes placements: its die is in service, it is not in reset or under update, and its lantern runs. -/
def State.regionOpen (s : State) (r : Nat) : Bool :=
  s.dieUp (r / 2) && !(mapGet {} s.regions r : Region).resetting && !s.lanternDown r && s.updateRegion != some r

/-- Milliseconds of the package timestamp (R380). DESIGN CHOICE (log entry 128). -/
def State.ms (s : State) : Nat := s.time / 1100000

/-- The first core that fits, in the order of R380: core, slot and granule bases. -/
def State.spot (s : State) (polder mask stage buf acc : Nat) (shut : Nat → Bool) : Option (Nat × Nat × Nat × Nat) :=
  let m := s.ms
  let regions := ((List.range 16).map (fun i => (m + stage + i) % 16)).filter (fun r =>
    mask.testBit (r / 2) && !shut r && s.regionOpen r)
  let cores := regions.flatMap (fun r => (List.range 12).map (fun j => 12 * r + (m + r + j) % 12))
  cores.findSome? (fun c => (s.coreFit polder buf acc c).map (fun f => (c, f)))

/-! ### The order of waiting tasks (R379, R381) -/

/-- What is placed together: one task, or the waiting tasks of a striped stage. -/
structure Batch where
  ctx : Nat
  stage : Nat
  tasks : List Nat
  striped : Bool
  deriving DecidableEq, Repr

/-- An insertion by rising key. -/
def insertBy {α : Type} (key : α → Nat) (x : α) : List α → List α
  | [] => [x]
  | y :: l => if key x < key y then x :: y :: l else y :: insertBy key x l

def sortBy {α : Type} (key : α → Nat) : List α → List α
  | [] => []
  | x :: l => insertBy key x (sortBy key l)

/-- Batches of a stage: a striped stage waits as one, but for tasks that moved off a core. -/
def Job.batches (j : Job) (ctx stage : Nat) : List Batch :=
  let st := j.stage stage
  let wait := (List.range st.tasks).filter (fun t => decide ((j.task stage t).state = 0))
  let one (t : Nat) : Batch := { ctx := ctx, stage := stage, tasks := [t], striped := false }
  if !st.striped then wait.map one
  else
    let moved (t : Nat) : Bool := (j.task stage t).notice.isSome
    let all := wait.filter (fun t => !moved t)
    (if all.isEmpty then [] else [{ ctx := ctx, stage := stage, tasks := all, striped := true }])
      ++ (wait.filter moved).map one

/-- The place of a job in the order of waiting tasks: priority, highest first, then submission. -/
def State.jobKey (s : State) (j : Job) : Nat := (7 - (s.polder j.polder).priority) * 2 ^ 64 + j.order

def State.batches (s : State) : List Batch :=
  (sortBy (fun e => s.jobKey e.2) (s.jobs.filter (fun e => e.2.live && decide (e.2.state = 0) && !e.2.faulted))).flatMap
    (fun e => (List.range e.2.stages.length).flatMap (fun g => e.2.batches e.1 g))

/-- Context slots that a polder's tasks hold (R384). -/
def State.slotsHeld (s : State) (polder : Nat) : Nat :=
  (s.cores.map (fun c => (c.2.slots.filter (fun k =>
    k.2.id.resident && decide (k.2.id.ctx ≠ 0) && decide (k.2.id.polder = polder))).length)).sum

/-- Regions that a striped stage which has waited 100 ms keeps from a batch (R379). -/
def State.reservedFrom (s : State) (b : Batch) (r : Nat) : Bool :=
  let pri := (s.polder (s.job b.ctx).polder).priority
  s.jobs.any (fun e => (List.range e.2.stages.length).any (fun g =>
    let st := e.2.stage g
    st.reserved && st.dieMask.testBit (r / 2) && (decide (e.1 ≠ b.ctx) || decide (g ≠ b.stage))
      && decide (pri ≤ (s.polder e.2.polder).priority)))

/-- The tasks of a batch take their places one after another; none where one finds no place. -/
def State.seatAll (s : State) (b : Batch) : List Nat → Option State
  | [] => some s
  | t :: ts =>
    let j := s.job b.ctx
    let st := j.stage b.stage
    let (nb, na) := match (j.task b.stage t).saved with
      | some v => (v.slot.allot.bufCount, v.slot.allot.accCount)
      | none => (st.buf, st.acc)
    match s.spot j.polder st.dieMask b.stage nb na (s.reservedFrom b) with
    | none => none
    | some (c, k, bb, ab) => (s.seat b.ctx b.stage t c k bb ab).seatAll b ts

def State.placeBatch (s : State) (b : Batch) : Option State :=
  let p := (s.job b.ctx).polder
  if s.slotsHeld p + b.tasks.length > (s.polder p).slotQuota then none else s.seatAll b b.tasks

/-- The first batch of the order that finds its places. DEDUCED (log entry 87). -/
def State.firstPlaced (s : State) : List Batch → Option (Batch × State)
  | [] => none
  | b :: l => match s.placeBatch b with
    | some s' => some (b, s')
    | none => s.firstPlaced l

/-- The job manager's lanterns run and accept work (R12, R440). -/
def State.jobManagerUp (s : State) : Bool :=
  s.hub.running && s.hub.jobOpen && !s.lanternDown 30 && !s.lanternDown 31

/-- TASK_PLACE: the first waiting task that fits is placed, where no striped stage that fits comes before it.
DEDUCED (log entry 87). -/
def execTaskPlace (s : State) : Outcome State Fault Refusal :=
  .next (
    if !s.jobManagerUp then s
    else match s.firstPlaced s.batches with
      | some (b, s') => if b.striped then s else s'
      | none => s)

/-- STRIPED_STAGE_PLACE: a striped stage that is the first to fit is placed whole (R244, R381). -/
def execStripedStagePlace (ctx stage : Nat) (s : State) : Outcome State Fault Refusal :=
  .next (
    if !s.jobManagerUp then s
    else match s.firstPlaced s.batches with
      | some (b, s') =>
        if b.striped && decide (b.ctx = ctx) && decide (b.stage = stage) then
          let j := s'.job ctx
          s'.setJob ctx { j with stages := j.stages.set stage { j.stage stage with reserved := false } }
        else s
      | none => s)

/-- STRIPED_STAGE_RESERVE: the stage has waited 100 ms at the head of its priority (R379). DEDUCED (log entry 87). -/
def execStripedStageReserve (ctx stage : Nat) (s : State) : Outcome State Fault Refusal :=
  .next (
    let j := s.job ctx
    let pri := (s.polder j.polder).priority
    match s.batches.find? (fun b => decide ((s.polder (s.job b.ctx).polder).priority = pri)) with
    | some b =>
      if s.jobManagerUp && b.striped && decide (b.ctx = ctx) && decide (b.stage = stage) then
        s.setJob ctx { j with stages := j.stages.set stage { j.stage stage with reserved := true } }
      else s
    | none => s)

/-! ### Moves off a core (R247, R394, R395) -/

/-- The detail of R395. -/
def jobDetail (ctx polder core stage low : Nat) : Nat :=
  ctx % 4096 * 2 ^ 52 + polder % 16 * 2 ^ 48 + core % 256 * 2 ^ 40 + stage % 65536 * 2 ^ 24 + low % 2 ^ 24

/-- An event of this chapter about a task on a core. -/
def taskEvent (code sev ctx polder core stage low : Nat) : Ev :=
  { code := code, sev := sev, die := core / 24, cls := 0, index := core, ctx := ctx,
    detail := jobDetail ctx polder core stage low }

/-- The detail of R248. -/
def stripeDetail (core stripe counter value : Nat) : Nat :=
  core % 256 * 2 ^ 56 + stripe % 65536 * 2 ^ 40 + counter % 65536 * 2 ^ 24 + value % 2 ^ 24

/-- DEDUCED (log entry 88). -/
def stripeEvent (code sev ctx core stripe counter value : Nat) : Ev :=
  { code := code, sev := sev, die := core / 24, cls := 0, index := core, ctx := ctx,
    detail := stripeDetail core stripe counter value }

/-- The oldest command of a slot that keeps a stripe record (R245). -/
def Slot.stripe (sl : Slot) : Option (Queued × ConvRun × StripeRec) :=
  sl.qCe.findSome? (fun q => match q.flight with
    | .conv r => r.record.map (fun x => (q, r, x))
    | _ => none)

def ConvRun.counter (r : ConvRun) : Nat := (cvOutCtr r.desc + r.stripe) % 65536

/-- The command from the first row that its counter does not count; none where it counts them all (R247). -/
def ConvRun.fromRow (r : ConvRun) (done : Nat) : Option ConvRun :=
  let rows := cvRows r.desc r.stripe
  let n := rows.2 - rows.1
  if done ≥ n * cvOut r.desc 0 then none
  else some { r with t := done / n, y := rows.1 + done % n, g := 0, block := 0, seg := 0, bank := false, unposted := 0 }

/-- The state in which a stripe's task restarts: the registers of its record, and the recorded command (R247). -/
def State.stripeState (s : State) (sl : Slot) (q : Queued) (r : ConvRun) (x : StripeRec) : Saved :=
  let done := if cvPost r.desc then (s.sem sl.id.ctx r.counter).value - x.counter else 0
  let base : Slot := { allot := sl.allot, s := x.s, d := x.d, a := x.a, pc := x.pc + 16, code := sl.code,
                       stage := sl.stage, task := sl.task }
  { slot := match r.fromRow done with
      | some r => { base with qCe := [{ q with flight := .conv r, granted := false }] }
      | none => { base with posts := match q.post with | some i => [i] | none => [] } }

/-- A task leaves a core: its save succeeds, or it restarts, or it is lost (R394). `tell` says whether the move is
reported; a core under an in-service test reports none (R447), and a suspend of its own that fails there is a job fault
(R62). -/
def State.moveOff (s : State) (c k : Nat) (saved tell : Bool) : State :=
  let sl := s.slot c k
  let ctx := sl.id.ctx
  let j := s.job ctx
  let st := j.stage sl.stage
  let p := sl.id.polder
  let lose (s : State) (v : Option Saved) (e : Ev) : State :=
    let s := ((s.withdraw c k).freeSlot c k).releaseEngines c k
    let j := s.job ctx
    s.setJob ctx (j.setTask sl.stage sl.task { state := 0, saved := v, notice := some e })
  if saved && (s.poolFail ctx (c / 24)).isNone then
    s.saveTask c k 0 (if tell then some (taskEvent 0x0121 0 ctx p c sl.stage (sl.task % 2 ^ 23)) else none)
  else if !tell then
    (s.stopSlot { core := c, slot := k }).faultJob ctx ((s.poolFail ctx (c / 24)).elim 0x0122 (fun f => (f.event ctx).1))
  else match sl.stripe with
    | some (q, r, x) =>
      lose s (some (s.stripeState sl q r x))
        (stripeEvent 0x0232 1 ctx c r.stripe r.counter (s.sem ctx r.counter).value)
    | none =>
      if st.restartable then lose s none (taskEvent 0x0121 0 ctx p c sl.stage (sl.task % 2 ^ 23 + 2 ^ 23))
      else ((s.post (taskEvent 0x0122 2 ctx p c sl.stage sl.task)).stopSlot { core := c, slot := k }).faultJob ctx 0x0122

/-- A task that waits takes the first core that fits, if there is one. -/
def State.tryPlace (s : State) (ctx stage t : Nat) : State :=
  if (s.job ctx).state ≠ 0 || ((s.job ctx).task stage t).state ≠ 0 then s
  else (s.placeBatch { ctx := ctx, stage := stage, tasks := [t], striped := false }).getD s

/-- A job whose tasks may move. -/
def Job.moves (j : Job) : Bool := j.live && !j.faulted && decide (j.state < 3)

/-- TASK_MOVE: a task resident on a fenced core moves (R394); a suspend under way completes by itself (R392).
DEDUCED (log entry 88). -/
def execTaskMove (a : At) (saved : Bool) (s : State) : Outcome State Fault Refusal :=
  .next (
    let sl := s.at_ a
    let j := s.job sl.id.ctx
    if !(s.core a.core).health.fenced || !sl.id.resident || sl.faulted || !j.moves
      || (saved && decide (j.state ≠ 0)) || s.writesHeld sl.id.ctx then s
    else (s.moveOff a.core a.slot saved true).tryPlace sl.id.ctx sl.stage sl.task)

/-! ### Penumbra timeouts (R246) -/

/-- The slot whose recorded command posts a counter, if any. -/
def State.producer (s : State) (ctx ctr : Nat) : Option (Nat × Nat × ConvRun) :=
  s.cores.findSome? (fun c => c.2.slots.findSome? (fun k =>
    if k.2.id.resident && decide (k.2.id.ctx = ctx) then
      match k.2.stripe with
      | some (_, r, _) => if r.counter = ctr then some (c.1, k.1, r) else none
      | none => none
    else none))

/-- The counter that the command at the head of a slot's sub-queue waits for. -/
def State.slotWait (s : State) (c k : Nat) : Option (ConvRun × Nat) :=
  match (s.slot c k).qCe.head? with
  | some q => match q.flight with
    | .conv r => (s.convWait (s.slot c k).id.ctx r).map (fun w => (r, w.1))
    | _ => none
  | none => none

/-- The stripe that a counter waits on is moved, or the one that it waits on in turn. DEDUCED (log entry 88). -/
def State.moveStripe (s : State) (ctx : Nat) : Nat → Nat → State
  | 0, _ => s
  | fuel + 1, ctr =>
    match s.producer ctx ctr with
    | none => s
    | some (c, k, r) =>
      match s.slotWait c k with
      | some (_, next) => s.moveStripe ctx fuel next
      | none =>
        let sl := s.slot c k
        let j := s.job ctx
        match s.spot j.polder (j.stage sl.stage).dieMask sl.stage sl.allot.bufCount sl.allot.accCount (fun _ => false) with
        | none => s
        | some (c', k', bb, ab) =>
          let e := stripeEvent 0x0231 0 ctx c r.stripe ctr (s.sem ctx ctr).value
          if !sl.goes || (s.poolFail ctx (c / 24)).isSome || s.writesHeld ctx then s
          else (s.saveTask c k 0 (some e)).seat ctx sl.stage sl.task c' k' bb ab

/-- PENUMBRA_TIMEOUT: a wait has seen no increase for wait_ms (R246, R248). DEDUCED (log entry 88). -/
def execPenumbraTimeout (a : At) (s : State) : Outcome State Fault Refusal :=
  .next (
    let ctx := (s.at_ a).id.ctx
    match s.slotWait a.core a.slot with
    | none => s
    | some (r, ctr) =>
      if !(s.at_ a).goes || s.lanternDown (a.core / 12) then s
      else
        let e := stripeEvent 0x0230 1 ctx a.core r.stripe ctr (s.sem ctx ctr).value
        (s.postEachSecond (0x0230 * 2 ^ 40 + ctx * 65536 + r.stripe) e).moveStripe ctx 64 ctr)

end Sys2Proof.Machine
end

