-- ==== Sys2Proof/Machine/Refresh.lean ====
section
/-!
DEFINITION. The weight refresh of a training job (R217 to R224): the refresh control block, the sequence of R220 with
its records, and what an interruption before the commit leaves.
-/
namespace Sys2Proof.Machine
open Host

/-! ### The refresh control block (R217 to R219) -/

/-- Bytes that the hub writes for the job manager, as context 0. -/
def State.hubPut (s : State) (a : Nat) (bs : List Byte) : State :=
  match s.checkRange hubWho true a bs.length with
  | none => s.write 0 a bs
  | some (.later _) => s.write 0 a bs
  | some _ => s

/-- A range lies in one die-local window of the stacks (R22, R23); a die where it must be that die's. -/
def State.inWindow (s : State) (a len : Nat) (die : Option Nat) : Bool :=
  let d := s.hub.dielocal * 2 ^ 30
  let n := (a - s.stackSplit) / d
  decide (s.stackSplit ≤ a) && decide (n < 8) && decide (a + len ≤ s.stackSplit + (n + 1) * d)
    && (match die with | some k => decide (n = k) | none => true)

/-- The lowest die of a mask. -/
def firstDie (mask : Nat) : Nat := ((List.range 8).find? mask.testBit).getD 8

def rcEntry (b : List Byte) (i : Nat) : List Byte := (b.drop (64 + 32 * i)).take 32
def rcStages (b : List Byte) : Nat := recField b 10 2
def reWord (e : List Byte) : Nat := recField e 0 8
def reList (e : List Byte) : Nat := recField e 8 8
def reCount (e : List Byte) : Nat := recField e 22 2

/-- The header of an RCB breaks R217: the offset of the field. -/
def rcbHeadBad (a : Nat) (b : List Byte) : Option Nat :=
  firstOf [
    (decide (a % 64 ≠ 0), 0),
    (decide (recField b 9 1 > 1), 9),
    (decide (rcStages b = 0) || decide (rcStages b > 256), 10),
    (decide (recField b 20 4 ≠ 0), 20),
    ((b.drop 32).any (· ≠ 0), 32)]

/-- The slots that an object list registers, as (base, length). -/
def slotsOf (l : List Byte) (n : Nat) : List (Nat × Nat) :=
  (List.range n).flatMap (fun i =>
    [(recField l (24 * i) 8, recField l (24 * i + 16) 8), (recField l (24 * i + 8) 8, recField l (24 * i + 16) 8)])

/-- No two of the slots overlap, and none overlaps one of those before. -/
def slotsApart : List (Nat × Nat) → List (Nat × Nat) → Bool
  | _, [] => true
  | seen, x :: l => seen.all (fun y => !runsMeet x.1 x.2 y.1 y.2) && slotsApart (x :: seen) l

/-- A stage entry passes the checks of R218; its slots are added to those seen. -/
def State.entryOk (s : State) (mask epoch : Nat) (seen : List (Nat × Nat)) (e : List Byte) : Option (List (Nat × Nat)) :=
  let word := reWord e
  let fields := decide (word % 8 = 0) && decide (reList e % 8 = 0) && decide (recField e 18 2 ≠ 0)
    && decide (recField e 21 1 = 0) && decide (1 ≤ reCount e) && decide (reCount e ≤ 4096)
    && (e.drop 24).all (· = 0) && s.inWindow word 8 (some (firstDie mask))
  if !fields then none
  else match s.readDesc word 8, s.readDesc (reList e) (24 * reCount e) with
    | some w, some l =>
      let slots := slotsOf l (reCount e)
      let ok := decide (recField w 4 4 = epoch) && decide (recField w 0 1 % 2 = epoch % 2)
        && slots.all (fun x => decide (x.1 % extentBytes = 0) && s.inWindow x.1 x.2 none) && slotsApart seen slots
      if ok then some (slots ++ seen) else none
    | _, _ => none

/-- The first stage entry that fails, by its offset in the RCB (R218). -/
def State.entriesBad (s : State) (b : List Byte) (stages : List Stage) (epoch : Nat) :
    List (Nat × Nat) → List Nat → Option Nat
  | _, [] => none
  | seen, i :: l =>
    match stages[i]? with
    | none => some (64 + 32 * i)
    | some g => match s.entryOk g.dieMask epoch seen (rcEntry b i) with
      | none => some (64 + 32 * i)
      | some seen => s.entriesBad b stages epoch seen l

/-- The weight set that an RCB describes. DEDUCED (log entry 90). -/
def weightsOf (a : Nat) (b : List Byte) : WeightSet :=
  { rcb := a, hold := (recField b 9 1).testBit 0, beginSem := recField b 12 2, timeoutMs := recField b 16 4,
    tag := recField b 24 8, epoch := recField b 0 4
    entries := (List.range (rcStages b)).map (fun i =>
      let e := rcEntry b i
      { word := reWord e, readySem := recField e 16 2, readyCount := recField e 18 2, barrier := recField e 20 1 }) }

/-- The RCB checks of a submission (R218): the weight set, or the status and detail. DEDUCED (log entry 90). -/
def State.readRcb (s : State) (a : Nat) (stages : List Stage) : WeightSet ⊕ (Nat × Nat) :=
  match s.readDesc a 64 with
  | none => .inr (0x0D, 0)
  | some h => match rcbHeadBad a h with
    | some off => .inr (0x07, off)
    | none => match s.readDesc a (64 + 32 * rcStages h) with
      | none => .inr (0x0D, 0)
      | some b => match s.entriesBad b stages (recField h 0 4) [] (List.range (rcStages h)) with
        | some off => .inr (0x07, off)
        | none => .inl (weightsOf a b)

/-! ### Records and writes (R219, R222, R223) -/

/-- The epoch in flight. -/
def WeightSet.next (w : WeightSet) : Nat := (w.epoch + 1) % 2 ^ 32

/-- A record reaches the warden's ring of 4,096 (R222). -/
def State.refreshRecord (s : State) (r : RefreshRec) : State :=
  let l := s.dep.refreshLog ++ [r]
  { s with dep := { s.dep with refreshLog := l.drop (l.length - 4096) } }

def State.recordOf (s : State) (ctx type : Nat) (w : WeightSet) (time : Nat) : State :=
  s.refreshRecord { type := type, ctx := ctx, epoch := w.next, rcb := w.rcb, tag := w.tag, time := time }

def State.refreshEvent (s : State) (ctx code sev epoch flipped stages : Nat) : State :=
  s.post { code := code, sev := sev, die := 0x12, cls := 7, ctx := ctx,
           detail := epoch % 2 ^ 32 * 2 ^ 32 + flipped % 65536 * 65536 + stages % 65536 }

/-- The epoch word of a stage written in one store (R219). -/
def State.putEpoch (s : State) (word epoch : Nat) : State := s.hubPut word (toBytes 8 (epoch % 2 ^ 32 * 2 ^ 32 + epoch % 2))

/-- The fields of the RCB that the device keeps. -/
def State.putRcb (s : State) (w : WeightSet) (pending state flipped : Nat) : State :=
  ((s.hubPut (w.rcb + 4) (toBytes 4 pending)).hubPut (w.rcb + 8) (toBytes 1 state)).hubPut (w.rcb + 14) (toBytes 2 flipped)

/-- The state that an RCB shows. -/
def Refresh.shown (f : Refresh) : Nat :=
  if f.state = 2 then 4 else if f.step = 6 then 3 else if f.flipped.isEmpty then 1 else 2

/-- The flip barrier of a stage releases its generation (R220). DEDUCED (log entry 90). -/
def State.releaseFlip (s : State) (ctx stage : Nat) (w : WeightSet) : State :=
  match w.entries[stage]? with
  | some e => s.settleBarrier false ctx stage e.barrier
  | none => s

/-- The flip barriers go by R134 and R221 again. -/
def State.settleFlipBarriers (s : State) (ctx : Nat) : State :=
  match (s.job ctx).weights with
  | none => s
  | some w => (List.range w.entries.length).foldl (fun s g =>
      let b := (w.entries.getD g {}).barrier
      s.settleBarrier (s.flipHeld ctx g b) ctx g b) s

/-! ### The sequence (R220) -/

/-- REFRESH_BEGIN: step 2 of R220. DEDUCED (log entry 90). -/
def execRefreshBegin (ctx : Nat) (s : State) : Outcome State Fault Refusal :=
  .next (
    let j := s.job ctx
    match j.weights with
    | none => s
    | some w =>
      let v := (s.sem ctx w.beginSem).value
      if !s.jobManagerUp || !j.live || j.faulted || decide (j.state ≠ 0) || j.refresh.isSome || v = 0 then s
      else
        let s := s.setJob ctx { j with refresh := some { time := s.time } }
        (s.semValue ctx w.beginSem (v - 1)).putRcb w w.next 1 0)

/-- REFRESH_BEGIN_DURABLE: the begin record is durable. -/
def execRefreshBeginDurable (ctx : Nat) (s : State) : Outcome State Fault Refusal :=
  .next (
    let j := s.job ctx
    match j.weights, j.refresh with
    | some w, some f =>
      if f.step ≠ 2 || s.ev.halted then s else (s.setJob ctx { j with refresh := some { f with step := 3 } }).recordOf ctx 1 w f.time
    | _, _ => s)

/-- Steps 3 and 4 of a stage are complete: its posts are there, and its tasks have arrived. -/
def State.stageReady (s : State) (ctx stage : Nat) : Bool :=
  let j := s.job ctx
  match j.weights with
  | none => false
  | some w => match w.entries[stage]? with
    | none => false
    | some e =>
      let b := j.barrier stage e.barrier
      decide ((s.sem ctx e.readySem).value ≥ e.readyCount) && !b.arrived.isEmpty && allArrived j stage b.arrived

/-- A stage that can flip. -/
def State.flippable (s : State) (ctx stage : Nat) : Bool :=
  match (s.job ctx).refresh with
  | some f => decide (f.step = 3) && decide (f.state ≠ 2) && !f.flipped.contains stage && s.stageReady ctx stage
  | none => false

/-- REFRESH_STAGE_FLIP: step 5 for a stage, and step 6 once every stage has flipped. -/
def execRefreshStageFlip (ctx stage : Nat) (s : State) : Outcome State Fault Refusal :=
  .next (
    let j := s.job ctx
    match j.weights, j.refresh with
    | some w, some f =>
      if !s.jobManagerUp || j.faulted || !s.flippable ctx stage then s
      else
        let e := w.entries.getD stage {}
        let f := { f with flipped := f.flipped ++ [stage] }
        let done := decide (f.flipped.length = w.entries.length)
        let f := if done then { f with step := 6, time := s.time } else f
        let s := s.setJob ctx { j with refresh := some f }
        let s := s.semValue ctx e.readySem ((s.sem ctx e.readySem).value - e.readyCount)
        let s := (s.putEpoch e.word w.next).putRcb w w.next (if done then 3 else 2) f.flipped.length
        if w.hold then s else s.releaseFlip ctx stage w
    | _, _ => s)

/-- REFRESH_COMMIT_DURABLE: the commit record is durable, and step 7 follows. -/
def execRefreshCommitDurable (ctx : Nat) (s : State) : Outcome State Fault Refusal :=
  .next (
    let j := s.job ctx
    match j.weights, j.refresh with
    | some w, some f =>
      if !s.jobManagerUp || s.ev.halted || decide (f.step ≠ 6) || decide (f.state ≠ 0) then s
      else
        let n := w.entries.length
        let s := s.recordOf ctx 2 w f.time
        let s := s.setJob ctx { j with refresh := none, weights := some { w with epoch := w.next } }
        let s := (s.hubPut w.rcb (toBytes 4 w.next)).hubPut (w.rcb + 8) (toBytes 1 0)
        let s := if w.hold then (List.range n).foldl (fun s g => s.releaseFlip ctx g w) s else s
        (s.settleFlipBarriers ctx).refreshEvent ctx 0x0310 0 w.next f.flipped.length n
    | _, _ => s)

/-! ### Interruption (R224) -/

/-- A refresh before its commit is abandoned: every stage returns to the epoch committed last. DEDUCED (log entry 90). -/
def State.abandonRefresh (s : State) (ctx : Nat) : State :=
  let j := s.job ctx
  match j.weights, j.refresh with
  | some w, some f =>
    let s := f.flipped.foldl (fun s g => s.putEpoch (w.entries.getD g {}).word w.epoch) s
    let s := (s.putRcb w w.epoch 0 0).recordOf ctx 3 w s.time
    let s := match f.waiting with | some r => s.finish r 0x08 0 0 | none => s
    let s := s.setJob ctx { s.job ctx with refresh := none }
    (s.settleFlipBarriers ctx).refreshEvent ctx 0x0311 1 w.next f.flipped.length w.entries.length
  | _, _ => s

/-- REFRESH_TIMER_EXPIRY: timeout_ms has passed before the commit (R223, R224). -/
def execRefreshTimerExpiry (ctx : Nat) (s : State) : Outcome State Fault Refusal :=
  .next (
    let j := s.job ctx
    match j.weights, j.refresh with
    | some w, some f =>
      if w.timeoutMs = 0 || !s.jobManagerUp then s
      else ((s.abandonRefresh ctx).refreshEvent ctx 0x0312 2 w.next f.flipped.length w.entries.length).faultJob ctx 0x0312
    | _, _ => s)

end Sys2Proof.Machine
end

