-- ==== Sys2Proof/Machine/Jobs.lean ====
section
/-!
DEFINITION. Jobs (R374 to R378), suspending, resuming and cancelling (R390 to R392), progress records, and teardown
(R393).
-/
namespace Sys2Proof.Machine
open Host

/-! ### The job descriptor and the stage map (R375, R376) -/

def jdMap (b : List Byte) : Nat := recField b 8 8
def jdStages (b : List Byte) : Nat := recField b 16 2
def jdPolder (b : List Byte) : Nat := recField b 18 1 % 16
def jdCompat (b : List Byte) : Bool := (recField b 19 1).testBit 0
def jdStats (b : List Byte) : Nat := recField b 32 8
def jdRcb (b : List Byte) : Nat := recField b 40 8
def jdPools (b : List Byte) : Nat := recField b 48 8
def jdList (b : List Byte) : Nat := recField b 56 8
def jdObjects (b : List Byte) : Nat := recField b 64 4

/-- The first field of a job descriptor that breaks R375. -/
def jdBad (b : List Byte) : Option Nat :=
  firstOf [
    (decide (jdMap b % 64 ≠ 0), 8),
    (decide (jdStages b = 0) || decide (jdStages b > 256), 16),
    (decide (recField b 18 1 / 16 ≠ 0), 18),
    (decide (recField b 19 1 / 2 ≠ 0), 19),
    (decide (jdStats b % 64 ≠ 0), 32),
    (decide (jdObjects b > 65536), 64),
    ((b.drop 68).any (· ≠ 0), 68)]

/-- Entry `i` of a stage map. -/
def smEntry (m : List Byte) (i : Nat) : List Byte := (m.drop (32 * i)).take 32

/-- The first field of a stage map entry that breaks R376; an entry index is held against a loaded code object.
DEDUCED (log entry 89). -/
def State.smBad (s : State) (e : List Byte) : Option Nat :=
  let c := s.code (recField e 0 2)
  firstOf [
    (decide (c.version ≠ 0) && decide (recField e 2 1 ≥ c.entries.length), 2),
    (decide (recField e 3 1 > 3), 3),
    (decide (recField e 4 2 = 0) || decide (recField e 4 2 > 4096), 4),
    (decide (recField e 6 1 = 0), 6),
    ((e.drop 7).any (· ≠ 0), 7)]

/-- The first of a list of stages at which a check fails, with what it gives. -/
def firstStage {α : Type} (f : Nat → Option α) (n : Nat) : Option (Nat × α) :=
  (List.range n).findSome? (fun i => (f i).map (fun x => (i, x)))

/-- A code object runs in a context's profile (R141). -/
def CodeObj.runs (c : CodeObj) (compat : Bool) : Bool :=
  if c.version = 1 then compat
  else if compat then c.profile = 1 || c.profile = 2 else c.profile = 0 || c.profile = 2

/-- Units that a code object requires are absent (R5, R140, R145, R507): the media dies, the tier dies, or the link
dies of L32 to L63. -/
def State.unitsAbsent (s : State) (units : Nat) (compat : Bool) : Bool :=
  let lacks (dies : List Nat) (all : Bool) : Bool :=
    if !(dies.all s.variant.fits) then !compat
    else if all then dies.any (fun d => (s.die d).out) else dies.all (fun d => (s.die d).out)
  (units.testBit 0 && lacks [8, 9, 10, 11] false) || (units.testBit 1 && lacks [0x10, 0x11] true)
    || (units.testBit 2 && lacks [0x0E, 0x0F] true)

def State.stageOf (s : State) (e : List Byte) : Stage :=
  let c := s.code (recField e 0 2)
  let x := c.entries.getD (recField e 2 1) (0, 0, 0)
  { code := recField e 0 2, entry := recField e 2 1, striped := (recField e 3 1).testBit 0,
    restartable := (recField e 3 1).testBit 1, tasks := recField e 4 2, dieMask := recField e 6 1, buf := x.2.1,
    acc := x.2.2 }

/-- Bytes of a save area (R62). -/
def saveBytes (buf acc : Nat) : Nat := 4096 + 4096 + 131072 + buf * 262144 + acc * 65536

/-- Bytes that the pool of a die must hold: an area for every task of every stage that may run there (R377). -/
def poolNeed (stages : List Stage) (die : Nat) : Nat :=
  (stages.map (fun g => if g.dieMask.testBit die then g.tasks * saveBytes g.buf g.acc else 0)).sum

def popcount8 (m : Nat) : Nat := ((List.range 8).filter m.testBit).length

/-! ### SUBMIT (R377, R486) -/

/-- A command that owes two completions ends with one. -/
def State.endShort (s : State) (r : Reply) (status detail : Nat) : State :=
  let v := s.queue r.q
  (s.setQueue r.q { v with owed := v.owed - 1 }).finish r status detail 0

/-- What a submission comes to: a job, or a status with its detail. -/
abbrev Verdict := Job ⊕ (Nat × Nat)

/-- Checks 6 to 8 of R377. DEDUCED (log entry 89). -/
def State.submitTail (s : State) (r : Reply) (e : Sqe) (b : List Byte) (stages : List Stage) : Verdict :=
  let p := jdPolder b
  match s.readDesc (jdList b) (4 * jdObjects b), s.readDesc (jdPools b) 128 with
  | some l, some pl =>
    let ids := (List.range (jdObjects b)).map (fun i => recField l (4 * i) 4)
    let pools := (List.range 8).map (fun i => (recField pl (16 * i) 8, recField pl (16 * i + 8) 8))
    let denied (i : Nat) : Bool :=
      let o := s.obj i
      decide (o.extents = 0) || decide (o.polder ≠ p) || decide (o.job ≠ 0) || (decide (r.fn ≠ 0) && decide (o.fn ≠ r.fn))
    match ids.findIdx? denied with
    | some i => .inr (0x05, i)
    | none =>
      match (List.range 8).find? (fun d => decide ((pools.getD d (0, 0)).2 < poolNeed stages d)) with
      | some d => .inr (0x06, d)
      | none =>
        let j : Job := {
          live := true, fn := r.fn, reply := r, order := s.jobOrder + 1, tag := recField b 0 8, emuBase := e.arg0
          emuLen := e.arg1, polder := p, profile := jdCompat b, numPolicy := recField b 20 4, sfuPolicy := recField b 24 4
          attnPolicy := recField b 28 4, statsArea := jdStats b, savePools := pools, objects := ids, stages := stages }
        if jdRcb b = 0 then .inl j
        else match s.readRcb (jdRcb b) stages with
          | .inl w => .inl { j with weights := some w }
          | .inr x => .inr x
  | _, _ => .inr (0x0D, 0)

/-- Checks 2 to 5 of R377, and the units that the code objects require. DEDUCED (log entry 89). -/
def State.submitCheck (s : State) (r : Reply) (e : Sqe) (b : List Byte) : Verdict :=
  let p := jdPolder b
  if !(s.polder p).enable || !s.fnMayUse r.fn p then .inr (0x02, 18)
  else match jdBad b with
    | some off => .inr (0x03, off)
    | none => match s.readDesc (jdMap b) (32 * jdStages b) with
      | none => .inr (0x0D, 0)
      | some m =>
        let n := jdStages b
        let stages := (List.range n).map (fun i => s.stageOf (smEntry m i))
        let code (i : Nat) : CodeObj := s.code (stages.getD i {}).code
        match firstStage (fun i => s.smBad (smEntry m i)) n with
        | some (i, off) => .inr (0x03, 32 * i + off)
        | none =>
          match firstStage (fun i =>
              if (code i).version = 0 || !(code i).runs (jdCompat b) then some 0x04
              else if s.unitsAbsent (code i).units (jdCompat b) then some 0x0F else none) n with
          | some (i, st) => .inr (st, 32 * i)
          | none =>
            match stages.findIdx? (fun g => g.striped
                && (decide (g.tasks > (s.polder p).slotQuota) || decide (g.tasks > 96 * popcount8 g.dieMask))) with
            | some i => .inr (0x03, 32 * i + 4)
            | none => s.submitTail r e b stages

/-- A submission is accepted: the job takes its context ID and its objects, and its tasks wait (R374, R379). -/
def State.accept (s : State) (r : Reply) (id : Nat) (j : Job) : State :=
  let s := { s.tick with jobOrder := s.jobOrder + 1 }
  let s := j.objects.foldl (fun s i => s.setObj i { s.obj i with job := id }) (s.setJob id j)
  s.complete r true { result := id }

/-- SUBMIT (R377, R485, R486). -/
def execSubmit (q : Nat) (s : State) : Outcome State Fault Refusal :=
  .next (if s.lanternDown 30 || s.lanternDown 31 then s else s.take q 0x01 2 (fun s r e =>
    match s.pickId (fun i => (s.job i).live) 1 4095 s.jobs.length with
    | none => s.endShort r 0x01 0
    | some id => match s.readDesc e.desc 128 with
      | none => s.endShort r 0x0D 0
      | some b => match s.submitCheck r e b with
        | .inr (st, d) => (if st = 0x02 && r.fn ≠ 0 && !s.fnMayUse r.fn (jdPolder b) then s.refuse (.vf r.fn) e.op else s).endShort r st d
        | .inl j => s.accept r id j))

/-! ### The end of a job (R378, R392, R393) -/

/-- The statistics of a job: those of its freed slots, its resident slots and its saved tasks (R97). -/
def State.jobStats (s : State) (ctx : Nat) : NumCount :=
  let j := s.job ctx
  let live := s.cores.flatMap (fun c => (c.2.slots.filter (fun k =>
    k.2.id.resident && decide (k.2.id.ctx = ctx))).map (fun k => k.2.cnt))
  let saved := j.tasks.filterMap (fun t => t.2.saved.map (fun v => v.slot.cnt))
  (live ++ saved).foldl NumCount.add j.stats

def State.writeStats (s : State) (ctx : Nat) : State := s.hubPut (s.job ctx).statsArea (s.jobStats ctx).record

/-- Objects of functions that were reset are destroyed, and their code unloaded, once nothing uses them (R493).
DEDUCED (log entry 93). -/
def orphan : Nat := 255

/-- DEDUCED (log entry 93). -/
def State.sweep (s : State) : State :=
  let s := s.codes.foldl (fun s c => if (s.code c.1).fn = orphan && !s.codeNamed c.1 then s.unload c.1 else s) s
  s.objs.foldl (fun s o =>
    let v := s.obj o.1
    if v.fn = orphan && decide (v.extents ≠ 0) && decide (v.job = 0) && !s.objMoving v && !s.objHoldsCode v then
      s.destroyObj o.1
    else s) s

/-- A job is gone: its objects are on no list, and its semaphores and groups are no more. -/
def State.freeJob (s : State) (ctx : Nat) : State :=
  let j := s.job ctx
  let s := j.objects.foldl (fun s i => s.setObj i { s.obj i with job := 0 }) s
  let s := { s with sems := s.sems.filter (fun e => decide (e.1 / 65536 ≠ ctx)) }
  (s.setJob ctx {}).sweep

/-- The groups of a context end with it. -/
def State.dropGroups (s : State) (ctx : Nat) : State :=
  { s with levee := { s.levee with groups := s.levee.groups.filter (fun e => decide (e.2.ctx ≠ ctx)) } }

/-- What a context holds beside its tasks: streams, queues, sluice commands and cache sets (R378). -/
def State.holdsUnits (s : State) (ctx : Nat) : Bool :=
  s.media.encs.any (fun e => e.2.live && decide (e.2.ctx = ctx))
    || s.media.queues.any (fun e => e.2.live && decide (e.2.ctx = ctx))
    || s.sets.any (fun e => e.2.live && decide (e.2.ctx = ctx))
    || s.sluices.any (fun e => e.2.live && decide (slCtx e.2 = ctx))

/-- Every task of a job has ended. -/
def Job.allEnded (j : Job) : Bool :=
  (List.range j.stages.length).all (fun g => (List.range (j.stage g).tasks).all (fun t => decide ((j.task g t).state = 4)))

/-- JOB_COMPLETE (R378). -/
def execJobComplete (ctx : Nat) (s : State) : Outcome State Fault Refusal :=
  .next (
    let j := s.job ctx
    if !s.jobManagerUp || !j.live || j.faulted || decide (j.state ≠ 0) || !j.allEnded || s.holdsUnits ctx then s
    else (((s.abandonRefresh ctx).writeStats ctx).dropGroups ctx |>.freeJob ctx).finish j.reply 0 0 0)

/-- Every slot of a job is freed, and its waiting tasks with it (R66, R393 step 2). -/
def State.tearSlots (s : State) (ctx : Nat) : State :=
  s.cores.foldl (fun s c => (List.range 4).foldl (fun s k =>
    let sl := s.slot c.1 k
    if sl.id.resident && decide (sl.id.ctx = ctx) then (s.freeSlot c.1 k).releaseEngines c.1 k else s) s) s

/-- The semaphores of a context are poisoned, and a refresh before its commit is abandoned (R393 step 3). -/
def State.tearSems (s : State) (ctx : Nat) : State :=
  let s := s.abandonRefresh ctx
  let s := { s with sems := s.sems.filter (fun e => decide (e.1 / 65536 ≠ ctx)) }
  s.setJob ctx { s.job ctx with poisoned := true }

/-- A sluice command of a context that ends: the extent under way is reverted and the command is over. -/
def State.tearSluice (s : State) (h : Nat) : State :=
  let v := s.sluice h
  if !v.live then s
  else
    let s := if !slCopy v && (v.phase = 3 || v.phase = 4) then s.revertExtent v.extent (s.objOf v.extent).job else s
    if (s.sluice h).live then s.endSluice h 2 else s

/-- A sluice command of a job that is cancelled: the current extent finishes its flip (R301, R390). -/
def State.stopSluice (s : State) (h : Nat) : State :=
  let v := s.sluice h
  if !v.live then s
  else
    let s := if !slCopy v && (v.phase = 3 || v.phase = 4) then s.flipExtent h v else s
    if (s.sluice h).live then s.endSluice h 2 else s

/-- Streams, queues, collectives, sluice commands and cache sets of a context end (R393 step 4). A cancel lets a frame
and a moving extent in progress complete, and writes the samples it stopped. -/
def State.tearUnits (s : State) (ctx : Nat) (cancel : Bool) : State :=
  let s := (s.media.encs.filter (fun e => e.2.live && decide (e.2.ctx = ctx))).foldl (fun s e =>
    if cancel then s.stopEnc e.1 else s.tearEnc e.1 3) s
  let s := (s.media.queues.filter (fun e => e.2.live && decide (e.2.ctx = ctx))).foldl (fun s e =>
    if cancel then s.endBq e.1 else s.dropBq e.1) s
  let s := { s with levee := { s.levee with colls := s.levee.colls.filter (fun r => decide (r.ctx ≠ ctx)) } }
  let s := (s.sluices.filter (fun e => decide (slCtx e.2 = ctx))).foldl (fun s e =>
    if cancel then s.stopSluice e.1 else s.tearSluice e.1) s
  let s := (s.sets.filter (fun e => e.2.live && decide (e.2.ctx = ctx))).foldl (fun s e => s.dropSet e.1) s
  s.dropGroups ctx

/-- Moves of a job's objects are reverted (R301), and every extent of them is quarantined (R293, R393 step 5).
DEDUCED (log entry 93). -/
def State.quarantine (s : State) (ctx : Nat) : State :=
  let xs := (s.job ctx).objects.flatMap (fun i => (s.obj i).span)
  let s := (xs.foldl (fun s x => s.revertExtent x ctx) s).skipReverted
  xs.foldl (fun s x => s.setHome x { s.home x with state := 4 }) s

/-- Suspends and a resume that have not landed find their target ending (R392). -/
def State.endWaiting (s : State) (ctx : Nat) : State :=
  let j := s.job ctx
  let s := s.setJob ctx { j with waiting := [], resumeReq := none }
  let s := j.waiting.foldl (fun s r => s.finish r 0x08 0 0) s
  match j.resumeReq with
  | some r => s.finish r 0x08 0 0
  | none => s

/-- JOB_TEARDOWN: the steps of R393 for a context whose job has faulted. DEDUCED (log entry 91). -/
def execJobTeardown (ctx : Nat) (s : State) : Outcome State Fault Refusal :=
  .next (
    let j := s.job ctx
    if !j.live || !j.faulted || decide (j.state = 4) || s.lanternDown 30 || s.lanternDown 31
        || (decide (j.faultCore ≠ 0xFF) && (s.die (j.faultCore / 24)).resetting) then s
    else
      let stats := s.jobStats ctx
      let s := (s.setJob ctx { j with state := 3 }).endWaiting ctx
      let s := ((s.tearSlots ctx).tearSems ctx).tearUnits ctx false
      let s := (s.quarantine ctx).hubPut j.statsArea stats.record
      let core := j.faultCore
      let s := s.post {
        code := 0x0120, sev := 2, die := if core = 0xFF then 0x12 else core / 24, cls := if core = 0xFF then 7 else 0,
        index := if core = 0xFF then 0 else core, ctx := ctx,
        detail := jobDetail ctx j.polder core j.faultStage j.faultCode }
      let s := s.finish j.reply 0x16 0 j.faultCode
      let s := s.setJob ctx { s.job ctx with state := 4, tasks := [], barriers := [] }
      (s.settleJobId ctx).sweep)

/-- A job is cancelled: as a teardown, without quarantine and event (R392). DEDUCED (log entry 91). -/
def State.cancelJob (s : State) (ctx : Nat) : State :=
  let j := s.job ctx
  let stats := s.jobStats ctx
  let s := (s.setJob ctx { j with state := 3 }).endWaiting ctx
  let s := ((s.tearSlots ctx).tearSems ctx).tearUnits ctx true
  let s := s.hubPut j.statsArea stats.record
  (s.freeJob ctx).finish j.reply 0x09 0 0

/-! ### Suspend and resume of a job (R390, R391) -/

/-- The operations of a job follow it: those in one state of R390 take another. -/
def State.shiftOps (s : State) (ctx old new : Nat) : State :=
  let s := s.media.encs.foldl (fun s e =>
    let v := s.enc e.1
    if v.live && v.ctx = ctx && v.state = old then s.setEnc e.1 { v with state := new } else s) s
  let s := s.media.queues.foldl (fun s e =>
    let v := s.bq e.1
    if v.live && v.ctx = ctx && v.state = old then s.setBq e.1 { v with state := new } else s) s
  let s := s.sluices.foldl (fun s e =>
    let v := s.sluice e.1
    if v.live && slCtx v = ctx && v.state = old then s.setSluice e.1 { v with state := new } else s) s
  let j := s.job ctx
  match j.refresh with
  | some f => if f.state = old then s.setJob ctx { j with refresh := some { f with state := new } } else s
  | none => s

/-- The refresh of a job shows its state in the RCB. -/
def State.showRefresh (s : State) (ctx : Nat) : State :=
  let j := s.job ctx
  match j.weights, j.refresh with
  | some w, some f => s.hubPut (w.rcb + 8) (toBytes 1 f.shown)
  | _, _ => s

/-- A job begins to suspend: its slots stop issuing (R61). DEDUCED (log entry 91). -/
def State.suspendJob (s : State) (ctx : Nat) (rs : List Reply) : State :=
  let j := s.job ctx
  let s := (s.setJob ctx { j with state := 1, waiting := j.waiting ++ rs }).shiftOps ctx 0 1
  s.cores.foldl (fun s c => (List.range 4).foldl (fun s k =>
    let sl := s.slot c.1 k
    if sl.id.resident && decide (sl.id.ctx = ctx) then
      (s.setSlot c.1 k { sl with id := { sl.id with state := 2 } }).withdraw c.1 k
    else s) s) s

/-- A job runs again: its saved tasks wait for placement (R391). DEDUCED (log entry 91). -/
def State.resumeJob (s : State) (ctx : Nat) : State :=
  let j := s.job ctx
  let j := { j with state := 0, tasks := j.tasks.map (fun t => (t.1, if t.2.state = 3 then { t.2 with state := 0 } else t.2)) }
  ((s.setJob ctx j).shiftOps ctx 2 0).showRefresh ctx

/-- A resident task that cannot be saved because its pool is missing, if any (R62). DEDUCED (log entry 86). -/
def State.saveFail (s : State) (ctx : Nat) : Option AccFail :=
  s.cores.findSome? (fun c =>
    if c.2.slots.any (fun k => k.2.id.resident && decide (k.2.id.ctx = ctx)) then s.poolFail ctx (c.1 / 24) else none)

/-- The operations of a context have landed: no frame is being coded, no extent is being moved, and no stage of a
refresh can still flip (R224, R390). -/
def State.opsLanded (s : State) (ctx : Nat) : Bool :=
  s.media.encs.all (fun e => !e.2.live || decide (e.2.ctx ≠ ctx) || e.2.engine = none)
    && s.sluices.all (fun e => !e.2.live || decide (slCtx e.2 ≠ ctx) || decide (e.2.phase = 1) || decide (e.2.phase = 6))
    && (List.range (s.job ctx).stages.length).all (fun g => !s.flippable ctx g)

/-- A job's suspend lands: every resident task is saved and its slot freed (R61, R390), the statistics record is
written (R97), and a resume that came early takes effect (R391). -/
def State.jobSuspended (s : State) (ctx : Nat) : State :=
  let j := s.job ctx
  if !j.live || j.faulted || decide (j.state ≠ 1) || s.writesHeld ctx || !s.opsLanded ctx then s
  else match s.saveFail ctx with
    | some f => s.faultJob ctx (f.event ctx).1
    | none =>
      let s := s.cores.foldl (fun s c => (List.range 4).foldl (fun s k =>
        let sl := s.slot c.1 k
        if sl.id.resident && decide (sl.id.ctx = ctx) then s.saveTask c.1 k 3 none else s) s) s
      let s := ((s.shiftOps ctx 1 2).showRefresh ctx).writeStats ctx
      let j := s.job ctx
      let s := s.setJob ctx { j with state := 2, waiting := [], resumeReq := none }
      let s := j.waiting.foldl (fun s r => s.finish r 0 0 0) s
      match j.resumeReq with
      | some r => (s.resumeJob ctx).finish r 0 0 0
      | none => s

/-! ### Self-tests by handle (R446) -/

def State.test (s : State) (h : Nat) : SelfTest := mapGet {} s.dep.tests h
def State.setTest (s : State) (h : Nat) (v : SelfTest) : State :=
  { s with dep := { s.dep with tests := mapSet {} s.dep.tests h v } }

/-! ### SUSPEND, RESUME, CANCEL and PROGRESS (R390 to R392, R485) -/

inductive Verb where
  | suspend
  | resume
  | cancel
  deriving DecidableEq, Repr

/-- A command on a job (R392). DEDUCED (log entry 91). -/
def State.controlJob (s : State) (r : Reply) (ctx : Nat) (v : Verb) : State :=
  let j := s.job ctx
  if j.faulted || j.state ≥ 3 then s.finish r 0x08 0 0
  else match v with
    | .suspend => if j.state = 2 then s.finish r 0 0 0 else s.suspendJob ctx [r]
    | .resume =>
      if j.state = 1 then
        let s := match j.resumeReq with | some o => s.finish o 0 0 0 | none => s
        s.setJob ctx { s.job ctx with resumeReq := some r }
      else if j.state = 2 then (s.resumeJob ctx).finish r 0 0 0
      else s.finish r 0 0 0
    | .cancel => (s.cancelJob ctx).finish r 0 0 0

/-- The state of an operation and the suspend that waits, after a suspend or a resume: what it becomes, and the
completions. A suspend of one that suspends or is suspended, and a resume, complete at once. -/
def opTurn (state : Nat) (waiting : Option Reply) (v : Verb) (r : Reply) : Nat × Option Reply × List Reply :=
  match v with
  | .suspend => if state = 0 then (1, some r, []) else (state, waiting, [r])
  | _ => (0, none, waiting.toList ++ [r])

def State.finishAll (s : State) (rs : List Reply) : State := rs.foldl (fun s r => s.finish r 0 0 0) s

/-- A command on an encode stream. -/
def State.controlEnc (s : State) (r : Reply) (h : Nat) (v : Verb) : State :=
  let x := s.enc h
  if x.closing && v = .cancel then s.finish r 0x08 0 0
  else if v = .cancel then s.cancelEnc h (some r)
  else
    let t := opTurn x.state x.waiting v r
    (s.setEnc h { x with state := t.1, waiting := t.2.1 }).finishAll t.2.2

/-- A command on a batch queue. -/
def State.controlBq (s : State) (r : Reply) (h : Nat) (v : Verb) : State :=
  let x := s.bq h
  if x.state ≥ 3 then s.finish r 0x08 0 0
  else if v = .cancel then s.cancelBq h (some r)
  else
    let t := opTurn x.state x.waiting v r
    (s.setBq h { x with state := t.1, waiting := t.2.1 }).finishAll t.2.2

/-- A command on a sluice command: a cancel lands after the current extent's flip (R301). -/
def State.controlSluice (s : State) (r : Reply) (h : Nat) (v : Verb) : State :=
  let x := s.sluice h
  if x.cancelReq ≠ none then s.finish r 0x08 0 0
  else if v = .cancel then
    let s := s.setSluice h { x with cancelReq := some r, state := 0 }
    if x.phase = 1 then s.endSluice h 2 else s
  else
    let t := opTurn x.state x.waiting v r
    (s.setSluice h { x with state := t.1, waiting := t.2.1 }).finishAll t.2.2

/-- A self-test is over: what waits for it completes, and the jobs that it suspended resume (R449). -/
def State.closeTest (s : State) (h : Nat) : State :=
  let v := s.test h
  let s := (s.setTest h {}).finishAll (v.waiting.toList ++ v.cancelReq.toList)
  v.jobs.foldl (fun s i => if (s.job i).live && (s.job i).state = 2 then s.resumeJob i else s) s

/-- A command on a self-test lands after the unit under test, or at once where none is (R390, R446). -/
def State.controlTest (s : State) (r : Reply) (h : Nat) (v : Verb) : State :=
  let x := s.test h
  let now := decide (s.testNow.map (·.1) = some h)
  if x.cancelReq ≠ none then s.finish r 0x08 0 0
  else if v = .cancel then
    let s := s.setTest h { x with cancelReq := some r }
    if now then s else s.closeTest h
  else
    let t := opTurn x.state x.waiting v r
    (s.setTest h { x with state := t.1, waiting := t.2.1 }).finishAll t.2.2

/-- A command on a weight refresh (R224): a cancel abandons it before its commit. -/
def State.controlRefresh (s : State) (r : Reply) (ctx : Nat) (f : Refresh) (v : Verb) : State :=
  if v = .cancel then (s.abandonRefresh ctx).finish r 0 0 0
  else
    let t := opTurn f.state f.waiting v r
    ((s.setJob ctx { s.job ctx with refresh := some { f with state := t.1, waiting := t.2.1 } }).showRefresh ctx).finishAll
      t.2.2

/-- The function that owns what a command names, if it exists (R485). -/
def State.ownerOf (s : State) (kind ctx h : Nat) : Option Nat :=
  match kind with
  | 1 => if (s.job ctx).live then some (s.job ctx).fn else none
  | 2 => if (s.enc h).live then some (s.enc h).fn else none
  | 3 => if (s.bq h).live then some (s.bq h).fn else none
  | 4 => if (s.sluice h).live then some (s.sluice h).fn else none
  | 5 => if (s.test h).live then some 0 else none
  | 6 => if (s.job ctx).live && (s.job ctx).refresh.isSome then some (s.job ctx).fn else none
  | _ => none

def cmdKind (e : Sqe) : Nat := e.arg0 % 256
def cmdHandle (e : Sqe) : Nat := fieldOf e.arg0 8 32

/-- A command on an operation: the target exists and is the function's own. A kind of no operation is refused as a bad
entry (a choice of the model). -/
def State.onTarget (s : State) (r : Reply) (e : Sqe) (body : State → State) : State :=
  if !(1 ≤ cmdKind e && cmdKind e ≤ 6) then s.finish r 0x0B 0 0
  else match s.ownerOf (cmdKind e) e.target (cmdHandle e) with
    | none => s.finish r 0x0E 0 0
    | some fn => if r.fn ≠ 0 && fn ≠ r.fn then (s.refuse (.vf r.fn) e.op).finish r 0x0A 0 0 else body s

def State.control (s : State) (r : Reply) (e : Sqe) (v : Verb) : State :=
  s.onTarget r e (fun s =>
    let h := cmdHandle e
    match cmdKind e with
    | 1 => s.controlJob r e.target v
    | 2 => s.controlEnc r h v
    | 3 => s.controlBq r h v
    | 4 => s.controlSluice r h v
    | 5 => s.controlTest r h v
    | _ => match (s.job e.target).refresh with
      | some f => s.controlRefresh r e.target f v
      | none => s.finish r 0x0E 0 0)

def execSuspend (q : Nat) (s : State) : Outcome State Fault Refusal :=
  .next (s.take q 0x02 1 (fun s r e => s.control r e .suspend))
def execResume (q : Nat) (s : State) : Outcome State Fault Refusal :=
  .next (s.take q 0x03 1 (fun s r e => s.control r e .resume))
def execCancel (q : Nat) (s : State) : Outcome State Fault Refusal :=
  .next (s.take q 0x04 1 (fun s r e => s.control r e .cancel))

/-- SUSPEND_COMPLETE: the last part of a suspend has landed (R390). -/
def execSuspendComplete (kind ctx handle : Nat) (s : State) : Outcome State Fault Refusal :=
  .next (match kind with
    | 1 => s.jobSuspended ctx
    | 2 =>
      let v := s.enc handle
      if !v.live || v.state ≠ 1 || v.engine ≠ none || (s.job v.ctx).state = 1 then s
      else (s.setEnc handle { v with state := 2, waiting := none }).finishAll v.waiting.toList
    | 3 =>
      let v := s.bq handle
      if !v.live || v.state ≠ 1 || (s.job v.ctx).state = 1 then s
      else (s.setBq handle { v with state := 2, waiting := none }).finishAll v.waiting.toList
    | 4 =>
      let v := s.sluice handle
      if !v.live || v.state ≠ 1 || v.phase = 3 || v.phase = 4 || (s.job (slCtx v)).state = 1 then s
      else (s.setSluice handle { v with state := 2, waiting := none }).finishAll v.waiting.toList
    | 5 =>
      let v := s.test handle
      if !v.live || v.state ≠ 1 || s.testNow.map (·.1) = some handle then s
      else (s.setTest handle { v with state := 2, waiting := none }).finishAll v.waiting.toList
    | 6 =>
      let j := s.job ctx
      match j.refresh with
      | some f =>
        if f.state ≠ 1 || j.state = 1 || (List.range j.stages.length).any (s.flippable ctx) then s
        else ((s.setJob ctx { j with refresh := some { f with state := 2, waiting := none } }).showRefresh ctx).finishAll
          f.waiting.toList
      | none => s
    | _ => s)

/-- Units done and in all of what a progress query names (R392). How many frames or batches an open stream or queue
will have in all, the spec does not say: a free value. -/
def State.unitsOf (s : State) (kind ctx h : Nat) : Nat × Nat × Nat :=
  let j := s.job ctx
  let any := Config.freeNat s.freeCtr % 2 ^ 64
  match kind with
  | 1 => (j.state, (j.tasks.filter (fun t => decide (t.2.state = 4))).length, (j.stages.map (·.tasks)).sum)
  | 2 => let v := s.enc h; (if v.closing then 3 else v.state, v.coded, any)
  | 3 => let v := s.bq h; (v.state, v.batch, any)
  | 4 => let v := s.sluice h; (if v.cancelReq ≠ none then 3 else v.state, if slCopy v then v.copied else v.moved, slCount v)
  | 5 => let v := s.test h; (if v.cancelReq ≠ none then 3 else v.state, v.tested, v.tested + v.units.length)
  | _ => match j.refresh, j.weights with
    | some f, some w => (f.state, f.flipped.length, w.entries.length)
    | _, _ => (0, 0, 0)

/-- PROGRESS (R392, R485): the 32-byte record. DESIGN CHOICE (log entry 92). -/
def execProgress (q : Nat) (s : State) : Outcome State Fault Refusal :=
  .next (s.take q 0x05 1 (fun s r e => s.onTarget r e (fun s =>
    let u := s.unitsOf (cmdKind e) e.target (cmdHandle e)
    s.tick.complete r false {
      data := toBytes 1 (cmdKind e) ++ toBytes 1 u.1 ++ toBytes 6 0 ++ toBytes 8 u.2.1 ++ toBytes 8 u.2.2 ++ toBytes 8 s.time })))

/-! ### Function-level resets (R493) -/

/-- Contexts of a function are cancelled, its queues stop without completions, and its MSI-X vectors return to their
state at reset (R493, R502). DEDUCED (log entry 93). -/
def State.resetFn (s : State) (fn : Nat) : State :=
  let s := s.host.queues.foldl (fun s e =>
    if e.2.fn = fn then
      s.setQueue e.1 { e.2 with running := false, stopping := false, enable := false, inFlight := 0, owed := 0, held := [] }
    else s) s
  let s := s.jobs.foldl (fun s j =>
    if (s.job j.1).live && (s.job j.1).fn = fn && (s.job j.1).state < 3 then s.cancelJob j.1 else s) s
  s.setHost { s.host with msix := mapClear s.host.msix (fn * 2048) 2048 }

/-- What a function created has no owner any more, and goes once it is unused. -/
def State.orphanAll (s : State) (fn : Nat) : State :=
  ({ s with
    objs := s.objs.map (fun e => if e.2.fn = fn then (e.1, { e.2 with fn := orphan }) else e)
    codes := s.codes.map (fun e => if e.2.fn = fn then (e.1, { e.2 with fn := orphan }) else e) } : State).sweep

/-- VF_FLR: the reset of one VF; VF number 0 stands for VF Enable cleared, which resets them all (R493).
DEDUCED (log entry 93). -/
def execVfFlr (vf : Nat) (s : State) : Outcome State Fault Refusal :=
  .next (
    if s.host.retry || !s.host.vfEnable || vf ≥ 16 then s
    else if vf = 0 then
      let s := (List.range 15).foldl (fun s k => (s.resetFn (k + 1)).orphanAll (k + 1)) s
      s.setHost { s.host with vfEnable := false }
    else (s.resetFn vf).orphanAll vf)

/-- PF_FLR (R493). -/
def execPfFlr (s : State) : Outcome State Fault Refusal :=
  .next (if s.host.retry then s else s.resetFn 0)

end Sys2Proof.Machine
end

