-- ==== Sys2Proof/Machine/Reset.lean ====
section
/-!
DEFINITION. Resets (R13, R14, R17, R67, R501, R507, R548 to R550): core, region, die, warm and cold resets, what each
keeps, and the loss of the DDR tier (R306).
-/
namespace Sys2Proof.Machine
open Host

/-! ### Core and region resets (R17, R67) -/

/-- A core after its reset: what the journal keeps of a fence stands (R433, R501). -/
def Core.fresh (c : Core) : Core :=
  { health := { fenced := c.health.fenced, fenceReason := c.health.fenceReason, testedSinceFence := c.health.testedSinceFence } }

/-- A context leaves a slot that must be empty: it moves, or its suspend lands, or it goes with a job that is being
torn down. `saved` says whether its state can still be saved, `tell` whether a move is reported. -/
def State.clearOff (s : State) (c k : Nat) (saved tell : Bool) : State :=
  let sl := s.slot c k
  let ctx := sl.id.ctx
  let j := s.job ctx
  if !sl.id.resident then s
  else if ctx = 0 || sl.faulted || !j.moves then (s.freeSlot c k).releaseEngines c k
  else if j.state = 1 && saved && (s.poolFail ctx (c / 24)).isNone then s.saveTask c k 3 none
  else
    let s := s.moveOff c k saved tell
    if (s.slot c k).id.resident then (s.freeSlot c k).releaseEngines c k else s

/-- The contexts of a core leave it, and each takes the first core that fits. -/
def State.emptyCore (s : State) (c : Nat) (saved tell : Bool) : State :=
  let was := (List.range 4).map (fun k => s.slot c k)
  let s := (List.range 4).foldl (fun s k => s.clearOff c k saved tell) s
  was.foldl (fun s sl => if sl.id.resident && decide (sl.id.ctx ≠ 0) then s.tryPlace sl.id.ctx sl.stage sl.task else s) s

def State.freshCore (s : State) (c : Nat) : State := s.setCore c (s.core c).fresh

/-- CORE_RESET: after its contexts have moved (R67). While they move, the core takes no placement. -/
def execCoreReset (core : Nat) (s : State) : Outcome State Fault Refusal :=
  .next (
    if core ≥ 192 then s
    else
      let c := s.core core
      let s := s.setCore core { c with health := { c.health with underTest := true } }
      (s.emptyCore core true true).freshCore core)

/-- A region is reset: its twelve cores and its lantern (R17, R549). The cache half is written back first, so memory
holds what it held. DEDUCED (log entry 99). -/
def State.resetRegion (s : State) (r : Nat) : State :=
  let s := (coresOf r).foldl State.freshCore s
  let s := s.setRegion r { resetting := true }
  { s with dep := { s.dep with down := mapSet false s.dep.down r false, expiry := mapSet 0 s.dep.expiry r 0 } }

/-- A region that takes no placement loses its contexts to other cores. -/
def State.emptyRegion (s : State) (r : Nat) (saved tell : Bool) : State :=
  (coresOf r).foldl (fun s c => s.emptyCore c saved tell) (s.setRegion r { s.region r with resetting := true })

/-- A region reset without a suspend before it: no state of a context can be saved. DEDUCED (log entry 99). -/
def State.regionReset (s : State) (r : Nat) : State :=
  if r ≥ 16 || (s.region r).resetting || (s.die (r / 2)).resetting then s else (s.emptyRegion r false true).resetRegion r

def execRegionReset (region : Nat) (s : State) : Outcome State Fault Refusal := .next (s.regionReset region)

/-- REGION_BACK_IN_SERVICE (R17). -/
def execRegionBackInService (region : Nat) (s : State) : Outcome State Fault Refusal :=
  .next (
    if (s.region region).resetting && !(s.die (region / 2)).resetting then
      s.setRegion region { s.region region with resetting := false }
    else s)

/-! ### The DDR tier lost (R306, R557) -/

/-- The DDR tier has no capacity any more: its moves are reverted, its homes quarantined. `sources` says whether moves
out of the tier are reverted too; if not, what they held is lost with their sources. DEDUCED (log entry 115). -/
def State.loseDdr (s : State) (sources : Bool) : State :=
  let s := s.mem.home.foldl (fun s e =>
    if e.2.state = 3 && (e.2.destTier = 1 || (sources && e.2.tier = 1)) then s.revertExtent e.1 (s.objOf e.1).job else s) s
  let s := s.mem.home.foldl (fun s e =>
    if (s.home e.1).tier = 1 && decide ((s.home e.1).state ≠ 0) then s.setHome e.1 { s.home e.1 with state := 4 } else s) s
  let s := s.skipReverted.settleFlips
  { s with
    ddrBytes := 0, host := { s.host with active2 := false }
    mem := { s.mem with held := s.mem.held.filter (fun w => decide ((s.home w.extent).state = 3)) } }

/-! ### Media and link dies -/

/-- The streams of a media die end with status 3, and requests in flight stop as failed samples (R441). -/
def State.stopMedia (s : State) (k : Nat) : State :=
  let s := s.media.encs.foldl (fun s e =>
    if e.2.live && decide (esDie e.2.desc = k) then s.tearEnc e.1 3 else s) s
  s.media.queues.foldl (fun s e =>
    let v := s.bq e.1
    if v.live && decide (bqDie v.desc = k) then
      s.setBq e.1 { v with reqs := v.reqs.map (fun r => if r.started then { r with cancelled := true } else r) }
    else s) s

/-- A link after the reset of its die: its registers at their reset values; one that was up counts as lost. -/
def Link.fresh (v : Link) : Link := { cable := v.cable, lost := v.lost || decide (v.state = 4 ∨ v.state = 5) }

/-- The links of a link die go down, and collectives in flight on it fail (R441). -/
def State.stopLinks (s : State) (d : Nat) : State :=
  let s := (s.levee.colls.filter (fun r => decide ((s.collWho r (s.group r.group)).die = d))).foldl
    (fun s r => s.collFail r 0x070C) s
  (List.range 16).foldl (fun s i =>
    let j := 16 * (d - 0x0C) + i
    s.setLink j (s.link j).fresh) s

/-- Moves that a tier die was carrying out go back to their sources, and are done again (R302, R441). -/
def State.stopSluices (s : State) (d : Nat) : State :=
  s.sluices.foldl (fun s e =>
    let v := s.sluice e.1
    if v.live && s.sluiceDie e.1 = some d && (v.phase = 3 || v.phase = 4) && !slCopy v then
      let m := s.home v.extent
      let s := s.setHome v.extent { m with state := 2, destTier := 0, destSlice := 0, destSlicesM1 := 0 }
      ((s.releaseHeld v.extent).setSluice e.1 { v with phase := 1 }).settleFlips
    else s) s

/-! ### Die resets (R501, R507, R549) -/

def State.setDie (s : State) (d : Nat) (v : DieSt) : State := { s with dies := mapSet {} s.dies d v }

/-- The counters of a die's pages in BAR0 go back to 0, and its units are no longer held out. -/
def State.freshPages (s : State) (d : Nat) : State :=
  let (lo, n) := if d < 0x0C then (mediaReg (d - 8) 0, 0x10000) else (tierReg (d - 0x10) 0, 0x10000)
  let (u, m) := if d < 0x0C then (64 + 2 * (d - 8), 2) else if d < 0x10 then (96 + 4 * (d - 0x0C), 4)
    else (80 + 4 * (d - 0x10), 4)
  let s := { s with dep := { s.dep with unitsOut := mapClear s.dep.unitsOut u m } }
  if 8 ≤ d && (d < 0x0C || 0x10 ≤ d) then { s with rc := mapClear s.rc lo n } else s

/-- The lanterns of a die start anew. -/
def State.freshLanterns (s : State) (d : Nat) : State :=
  (lanternsOf d).foldl (fun s n =>
    { s with dep := { s.dep with down := mapSet false s.dep.down n false, expiry := mapSet 0 s.dep.expiry n 0 } }) s

/-- The reset of a compute, media, link or tier die begins. Its memories keep their contents; accesses to them wait.
DEDUCED (log entry 99). -/
def State.startDieReset (s : State) (d : Nat) : State :=
  let v := s.die d
  if d ≥ 0x12 || !s.dieUp d then s
  else
    let s := if 0x10 ≤ d then s.stopSluices d else s
    let s := s.setDie d { v with resetting := true, resets := satAdd 8 v.resets 1 }
    let s := if d < 8 then
        (((s.emptyRegion (2 * d) false true).emptyRegion (2 * d + 1) false true).resetRegion (2 * d)).resetRegion (2 * d + 1)
      else if d < 0x0C then s.stopMedia (d - 8)
      else if d < 0x10 then s.stopLinks d
      else s
    let s := if d < 8 then s else s.freshPages d
    s.freshLanterns d

/-- A slot that waits for a die which is now out of service fails with UNIT_ABSENT (R19, R549).
DEDUCED (log entry 99). -/
def State.failWaiters (s : State) (d : Nat) : State :=
  s.cores.foldl (fun s c => c.2.slots.foldl (fun s k =>
    match k.2.held with
    | some (.dieResetting x major) =>
      if x = d then s.instrFault { core := c.1, slot := k.1 } 0x0104 major d else s
    | _ => s) s) s

/-- A die goes out of service (R507, R306). DEDUCED (log entry 100). -/
def State.dieOut (s : State) (d : Nat) : State :=
  let s := s.setDie d { s.die d with out := true, resetting := false }
  if 0x10 ≤ d && d < 0x12 then s.loseDdr true else s

/-- DIE_RESET_TIMEOUT (R507, R549). DEDUCED (log entry 100). -/
def execDieResetTimeout (die : Nat) (s : State) : Outcome State Fault Refusal :=
  .next (if (s.die die).resetting then (s.failWaiters die).dieOut die else s)

/-- DIE_BACK_IN_SERVICE (R507). -/
def execDieBackInService (die : Nat) (s : State) : Outcome State Fault Refusal :=
  .next (
    let v := s.die die
    if !v.resetting then s
    else
      let s := s.setDie die { v with resetting := false }
      if die < 8 then
        let s := s.setRegion (2 * die) { s.region (2 * die) with resetting := false }
        s.setRegion (2 * die + 1) { s.region (2 * die + 1) with resetting := false }
      else s)

/-! ### Warm reset (R302, R495, R501, R502, R549) -/

/-- What has been detected is numbered before the hub stops. DEDUCED (log entry 101). -/
def State.numberAll (s : State) : State :=
  if !s.hub.running then s
  else s.ev.detected.foldl (fun s e => s.numberEvent e false) (s.setEv { s.ev with detected := [] })

/-- Collected afterglow writes that were not switched in are gone (R312). -/
def State.undoAllGlow (s : State) : State := s.mem.glow.foldl (fun s e => s.undoGlow e.1) s

/-- The EVENT block at its reset values; the log goes on (R453, R501, R508). -/
def Events.warm (v : Events) : Events :=
  { v with select := 0, source := false, bootSel := v.bootCount % 65536, valid := false, skipped := false, data := [] }

/-- Source slices that moves had flipped away from and not freed yet: the rebuild of the free lists finds them. -/
def State.orphansOf (s : State) : List (Nat × Nat × Nat) :=
  s.sluices.filterMap (fun e =>
    if e.2.live && e.2.phase = 6 && !slCopy e.2 then some (e.2.srcTier, e.2.srcSlice, e.2.srcSlicesM1 + 1) else none)

/-- An ended job keeps its ID while objects of it are in quarantine. DEDUCED (log entry 97). -/
def keptJob (j : Job) : Bool := decide (j.state = 4)

/-- Fenced cores: the journal restores them (R433). DEDUCED (log entry 101). -/
def State.journalCores (s : State) : List (Nat × Core) :=
  mapOver {} Core.fresh s.cores

/-- Whether a cable is fitted is no register of a link. -/
def State.keptLinks (s : State) : List (Nat × Link) := mapOver {} (fun v => ({ cable := v.cable } : Link)) s.levee.links

/-- Die resets are counted on (R501); a tier die out of service stays out until a cold reset (R306), the other dies are
tried again. -/
def State.keptDies (s : State) : List (Nat × DieSt) :=
  (mapOver {} (fun v => { v with resetting := false }) s.dies).filterMap (fun e =>
    let v := if e.1 < 0x10 then { e.2 with out := false } else e.2
    if v = {} then none else some (e.1, v))

/-- The state after a warm reset of `s`: every die but the warden starts again from P2, with the stacks, the DDR tier,
the home table, the warden, its journal, the fuses and the registers of R501 kept. DEDUCED (log entry 97). -/
def State.afterWarm (s : State) : State :=
  let jobs := s.jobs.filter (fun e => keptJob e.2)
  let kept (i : Nat) : Nat := if jobs.any (fun e => decide (e.1 = i)) then i else 0
  { State.reset with
    variant := s.variant, time := s.time
    cores := s.journalCores
    mem := { bytes := s.mem.bytes, poison := s.mem.poison, home := s.mem.home, lost := s.mem.lost
             orphans := s.mem.orphans ++ s.orphansOf }
    ev := s.ev.warm
    hub := { dielocal := s.hub.dielocal, pkgAssigned := s.hub.pkgAssigned, pkgId := s.hub.pkgId, phase := 2 }
    dies := s.keptDies
    ddrBytes := s.ddrBytes
    objs := s.objs.map (fun e => (e.1, { e.2 with job := kept e.2.job }))
    jobs := jobs
    levee := { links := s.keptLinks }
    host := { msix := s.host.msix, perst := s.host.perst, pool := s.host.pool }
    dep := { pairTimes := s.dep.pairTimes, safeMode := s.dep.safeMode, refreshLog := s.dep.refreshLog }
    power := { s.power with throttleMs := 0 }
    boot := { done := 3, warm := true, stopped := s.boot.stopped, since := s.time }
    sec := { s.sec with busy := false, collision := false, opcode := 0, reqLen := 0, req := [], answers := [], halted := [] }
    pending := s.pending, freeCtr := s.freeCtr }

/-- A warm reset: summaries of open streams say status 3 (R371, R549). -/
def State.warmReset (s : State) : State :=
  if s.boot.done % 4 ≠ 3 || s.power.mainOff || s.power.standbyOff then s
  else
    let s := s.media.encs.foldl (fun s e => if e.2.live then s.tearEnc e.1 3 else s) s
    ((s.numberAll).undoAllGlow).afterWarm

def execWarmReset (s : State) : Outcome State Fault Refusal := .next s.warmReset

/-- PERST_ASSERT: a warm reset that also clears the MSI-X tables (R495, R502). -/
def execPerstAssert (s : State) : Outcome State Fault Refusal :=
  .next (
    let s := s.warmReset
    s.setHost { s.host with perst := true, retry := true, msix := [] })

/-- PERST_DEASSERT: the configuration-retry period begins (R494). -/
def execPerstDeassert (s : State) : Outcome State Fault Refusal :=
  .next (
    if !s.host.perst then s
    else { s with host := { s.host with perst := false }, boot := { s.boot with since := s.time } })

/-! ### Cold reset (R453, R501, R549) -/

/-- The capacity in force of the fitted DIMMs (R288). PRESUMED (log entry 74). -/
def ddrCapacity (dimms : List Nat) : Nat :=
  let least := dimms.foldl min (dimms.headD 0)
  8 * least * 1000000000 / 2 ^ 28 * 2 ^ 28

/-- Events that the warden still holds and the journal does not are gone with its memory. -/
def Events.cold (v : Events) : Events :=
  { journal := v.journal ++ v.journalWait, journalLost := v.journalLost, bootCount := v.bootCount + 1
    bootSel := (v.bootCount + 1) % 65536
    early := v.early.filter (fun x => match x with | .journaled _ => true | _ => false) }

/-- The state after a cold reset of `s`: everything at reset but the warden's journal, the fuses and the boot flash;
what is fitted outside stays as it is. DEDUCED (log entry 97). -/
def State.afterCold (s : State) : State :=
  { State.reset with
    variant := s.variant
    cores := s.journalCores
    ev := s.ev.cold
    ddrBytes := ddrCapacity s.power.dimms
    levee := { links := s.keptLinks }
    host := { perst := s.host.perst }
    dep := { refreshLog := s.dep.refreshLog }
    power := { dimms := s.power.dimms, straps := s.power.straps, reversed := s.power.reversed, volts := s.power.volts }
    sec := { slotA := s.sec.slotA, slotB := s.sec.slotB, activeB := s.sec.activeB, warden := s.sec.warden
             counter := s.sec.counter, revoked := s.sec.revoked, report := s.sec.report, killed := s.sec.killed }
    pending := s.pending, freeCtr := s.freeCtr }

/-- Contexts whose newest refresh record is a begin: a refresh that was in flight (R222, R224). -/
def openRefreshes (l : List RefreshRec) : List RefreshRec :=
  (l.reverse.foldl (fun (acc : List Nat × List RefreshRec) r =>
    if acc.1.contains r.ctx then acc else (acc.1 ++ [r.ctx], if r.type = 1 then acc.2 ++ [r] else acc.2)) ([], [])).2

/-- A refresh in flight at a cold reset is abandoned, its memory gone (R224). -/
def State.coldRefreshes (s : State) : State :=
  (openRefreshes s.dep.refreshLog).foldl (fun s r =>
    (s.refreshRecord { r with type := 3, time := s.time }).refreshEvent r.ctx 0x0311 1 r.epoch 0 0) s

/-- A cold reset. The loss of standby power before it is in the journal from here on (R556): no rule gives that event a
code, a severity or a detail. -/
def State.coldReset (s : State) : State :=
  let lost := s.power.standbyOff
  let s := (s.numberAll.afterCold).coldRefreshes
  if lost then
    let f (i : Nat) : Nat := Config.freeNat (s.freeCtr + i)
    { s.post { code := 0x0A00 + f 0 % 256, sev := 2 + f 1 % 2, die := 0x13, cls := 7, detail := f 2 % 2 ^ 64 } with
      freeCtr := s.freeCtr + 3 }
  else s

/-- COLD_RESET; without standby power nothing can reset (R556). -/
def execColdReset (s : State) : Outcome State Fault Refusal := .next (if s.power.standbyOff then s else s.coldReset)

/-- DIE_RESET: of the hub's die, a warm reset; the warden is reset only by a cold one (R441, R549).
DEDUCED (log entry 96). -/
def State.dieReset (s : State) (d : Nat) : State := if d = 0x12 then s.warmReset else s.startDieReset d

/-- DEDUCED (log entry 96). -/
def execDieReset (die : Nat) (s : State) : Outcome State Fault Refusal := .next (s.dieReset die)

end Sys2Proof.Machine
end

