-- ==== Sys2Proof/Machine/Images.lean ====
section
/-!
DEFINITION. The images of the boot flash: their headers, their verification, and the images that dies run (R522 to
R524, R527, R528).
-/
namespace Sys2Proof.Machine

def State.imgSlot (s : State) (b : Bool) : ImgSlot := if b then s.sec.slotB else s.sec.slotA

/-- An image as its slot holds it: the header's 256 bytes, and the body. -/
def ImgSlot.header (v : ImgSlot) (t : Nat) : List Byte := mapSlice 0 v.bytes (Config.imagePlace v.bytes t) 256
def imgBody (h : List Byte) : Nat := recField h 16 8
def ImgSlot.body (v : ImgSlot) (t : Nat) : List Byte :=
  mapSlice 0 v.bytes (Config.imagePlace v.bytes t + 256) (imgBody (v.header t))

def imgVersion (h : List Byte) : Nat := recField h 8 4
def imgSvn (h : List Byte) : Nat := recField h 12 4
/-- The lowest version of type `t` with which the image runs, as major × 256 + minor. -/
def imgInterop (h : List Byte) (t : Nat) : Nat := recField h (24 + 8 * t) 4 / 65536
def imgMeasure (h : List Byte) : List Byte := (h.drop 72).take 64

/-- Which check of R522 a header and a body fail: 1 the magic or a reserved field, 2 the measurement, 3 the signature, 4
the svn. -/
def State.imgFails (s : State) (h body : List Byte) : Option Nat :=
  let zero (i n : Nat) : Bool := decide (recField h i n = 0)
  let interop := (List.range 6).all (fun t => zero (24 + 8 * t + 4) 4)
  let key := Config.firmwareKey (h.take 142) ((h.drop 142).take 114)
  firstOf [
    (decide (recField h 0 4 ≠ 0x4D494254) || !zero 5 3 || !zero 136 6 || !interop, 1),
    (decide (Config.shake256 (h.take 72 ++ body) 64 ≠ imgMeasure h), 2),
    (decide (key ≥ 4) || s.sec.revoked.contains key, 3),
    (decide (imgSvn h < s.sec.counter), 4)]

/-- The first image of a slot that is invalid, with the check it fails. A directory that is not sound counts as a warden
image with a bad magic. -/
def State.setFails (s : State) (v : ImgSlot) : Option (Nat × Nat) :=
  if !Config.directoryOk v.bytes then some (0, 1)
  else (List.range 6).findSome? (fun t => (s.imgFails (v.header t) (v.body t)).map (fun c => (t, c)))

/-- The svn of a set (R522). -/
def ImgSlot.svn (v : ImgSlot) : Nat :=
  (List.range 6).foldl (fun m t => min m (imgSvn (v.header t))) (imgSvn (v.header 0))

/-- What a die reports of the image of a type. -/
def ImgSlot.image (v : ImgSlot) (t : Nat) : DieImage :=
  let h := v.header t
  { type := t, version := imgVersion h, svn := imgSvn h, measurement := imgMeasure h }

/-- The image type of a die's lanterns. -/
def dieType (d : Nat) : Nat :=
  if d < 8 then 2 else if d < 0x0C then 3 else if d < 0x10 then 4 else if d < 0x12 then 5 else if d = 0x12 then 1 else 0

def State.running (s : State) (d : Nat) : DieImage := mapGet {} s.sec.running d
def State.setRunning (s : State) (d : Nat) (v : DieImage) : State :=
  { s with sec := { s.sec with running := mapSet {} s.sec.running d v } }

/-- Every new image runs with the images that the other dies run (R444 step 1). DEDUCED (log entry 110). -/
def State.interoperable (s : State) (v : ImgSlot) : Bool :=
  (List.range 6).all (fun t => (List.range 20).all (fun d =>
    !s.variant.fits d || decide (imgInterop (v.header t) (dieType d) ≤ (s.running d).version / 65536)))

/-- The detail of R536. -/
def secDetail (type slot reason value : Nat) : Nat :=
  type % 64 * 2 ^ 48 + slot % 256 * 2 ^ 40 + reason % 256 * 2 ^ 32 + value % 2 ^ 32

/-- A security event of the hub. -/
def State.secEvent (s : State) (code sev detail : Nat) : State :=
  s.post { code := code, sev := sev, die := 0x12, cls := 7, detail := detail }

/-- The slot recorded as active changes (R527). -/
def State.activated (s : State) (b : Bool) : State :=
  ({ s with sec := { s.sec with activeB := b } } : State).secEvent 0x0903 0
    (2 * 2 ^ 60 + secDetail 0 (bit b 0) 0 (s.imgSlot b).svn)

end Sys2Proof.Machine
end

