-- ==== Sys2Proof/Machine/Depend.lean ====
section
/-!
DEFINITION. Dependability (R30, R430 to R449): fencing on request, storage errors, lanterns and their containment, the
warden's pair, live update, and self-tests.
-/
namespace Sys2Proof.Machine
open Host

def State.setDep (s : State) (d : Depend) : State := { s with dep := d }

/-! ### Self-tests under way (R446, R447) -/

/-- The units of a pass, from the test descriptor: the cores in range, then the other units of the classes, on dies in
service; an offline test takes every core. DEDUCED (log entry 106). -/
def State.testUnits (s : State) (d : List Byte) : List (Nat × Nat) :=
  let cls (i : Nat) : Bool := (recField d 0 1).testBit i
  let all (c : Nat) (n : Nat) (ok : Nat → Bool) : List (Nat × Nat) := ((List.range n).filter ok).map (fun i => (c, i))
  let coreUp (c : Nat) : Bool := s.dieUp (c / 24)
  if recField d 1 1 = 1 then all 0 192 coreUp
  else
    (if cls 0 then all 0 192 (fun c => coreUp c && decide (recField d 4 2 ≤ c) && decide (c ≤ recField d 6 2)) else [])
    ++ (if cls 1 then all 1 64 s.linkFitted else [])
    ++ (if cls 2 then all 2 8 (fun u => s.dieUp (8 + u / 2)) else [])
    ++ (if cls 3 then all 3 8 (fun u => s.dieUp (0x10 + u / 4)) else [])
    ++ (if cls 4 then all 4 16 (fun u => s.dieUp (0x0C + u / 4)) else [])
    ++ (if cls 5 then all 5 192 coreUp else [])

/-- A pass ends: SELFTEST_DONE, then the next pass of a repeated test, or the end of the test and the resumption of
the jobs that it suspended. DEDUCED (log entry 106). -/
def State.endPass (s : State) (h : Nat) : State :=
  let v := s.test h
  let s := s.post { code := 0x0810, sev := 0, die := 0x12, cls := 7,
                    detail := v.tested % 65536 * 2 ^ 48 + v.failed % 65536 * 2 ^ 32 }
  if (recField v.desc 2 1).testBit 1 && v.cancelReq = none then
    s.setTest h { v with units := s.testUnits v.desc, tested := 0, failed := 0 }
  else s.closeTest h

/-- The unit under test is done with: how many were tested and how many failed. A suspend or a cancel that waits for it
lands, and the pass may be over (R390, R446). -/
def State.unitDone (s : State) (h tested failed : Nat) : State :=
  let v := s.test h
  let halt := decide (v.state = 1)
  let s := s.setTest h { v with units := v.units.drop 1, tested := v.tested + tested, failed := v.failed + failed,
                                state := if halt then 2 else v.state, waiting := if halt then none else v.waiting }
  let s := if halt then s.finishAll v.waiting.toList else s
  if (s.test h).units.isEmpty then s.endPass h else if v.cancelReq ≠ none then s.closeTest h else s

/-- UNIT_TEST_FAILED (R454): what stands in place of the core for another unit, no rule states. -/
def State.testFailed (s : State) (die cls index core : Nat) : State :=
  s.post { code := 0x0811, sev := 1, die := die, cls := cls, index := index, detail := detailF core 3 }

/-- A core's test has run (R447 step 4). -/
def State.coreTested (s : State) (c : Nat) (pass : Bool) : State :=
  let s := if pass then s else s.fenceCore c 3
  let k := s.core c
  let v := { k.health with underTest := false, lastTest := if pass then 1 else 2 }
  let v := if pass then { v with testedSinceFence := v.fenced } else { v with fenceReason := 3, testedSinceFence := false }
  let s := s.setCore c { k with buf := [], bufValid := [], acc := [], accValid := [], health := v }
  if pass then s else s.testFailed (c / 24) 0 c c

/-- SELFTEST (R446, R449, R485): it is accepted and answered with its handle; during a live update it waits (R445).
DEDUCED (log entry 106). -/
def execSelftest (q : Nat) (s : State) : Outcome State Fault Refusal :=
  .next (if s.dep.update.isSome then s else s.take q 0x40 1 (fun s r e => s.pfOnly r e (fun s =>
    match s.readDesc e.desc 16 with
    | none => s.finish r 0x0D 0 0
    | some d =>
      let offline := decide (recField d 1 1 = 1)
      let bad := firstOf [
        (decide (recField d 0 1 / 64 ≠ 0), 0), (decide (recField d 1 1 > 1), 1), (decide (recField d 2 1 / 4 ≠ 0), 2),
        (decide (recField d 3 1 ≠ 0), 3),
        (decide (recField d 4 2 > 191) || decide (recField d 4 2 > recField d 6 2), 4),
        (decide (recField d 6 2 > 191), 6), (decide (recField d 8 8 ≠ 0), 8)]
      match bad with
      | some off => s.finish r 0x0C off 0
      | none =>
        let jobs := (s.jobs.filter (fun e => e.2.live && decide (e.2.state = 0) && !e.2.faulted)).map (·.1)
        if offline && s.jobs.any (fun e => e.2.live) && !(recField d 2 1).testBit 0 then s.finish r 0x13 0 0
        else
          let h := s.nextHandle
          let s := if offline then jobs.foldl (fun s i => s.suspendJob i []) s else s
          let s := ({ s with nextHandle := h + 1 } : State).setTest h {
            live := true, reply := r, desc := d, units := s.testUnits d, jobs := if offline then jobs else [] }
          let s := s.finish r 0 0 h
          if (s.test h).units.isEmpty then s.endPass h else s)))

/-- CORE_TEST: the core that a running self-test has come to, or that was put under test when it was fenced (R431,
R447). -/
def execCoreTest (core : Nat) (pass : Bool) (s : State) : Outcome State Fault Refusal :=
  .next (
    let turn := match s.testNow with
      | some (h, u) => if u = (0, core) then some h else none
      | none => none
    let due := (s.core core).health.underTest
    if core ≥ 192 || (turn.isNone && !due) then s
    else if !s.dieUp (core / 24) then
      match turn with
      | some h => s.unitDone h 0 0
      | none => s
    else if s.lanternDown (core / 12) || (s.region (core / 12)).resetting then s
    else
      let k := s.core core
      let s := s.setCore core { k with health := { k.health with underTest := true } }
      let s := (s.emptyCore core true false).coreTested core pass
      match turn with
      | some h => s.unitDone h 1 (if pass then 0 else 1)
      | none => s)

/-- A unit of a self-test as the state numbers it. -/
def unitOf : TestUnit → Nat × Nat
  | .link n => (1, n)
  | .codec k e => (2, 2 * k + e)
  | .sluice k n => (3, 4 * k + n)
  | .collective k e => (4, 4 * k + e)
  | .sfuTables c => (5, c)

/-- An engine that takes no work outside the test: a codec engine after its frame, a sluice at an extent boundary (R448).
-/
def State.unitIdle (s : State) (u : Nat × Nat) : Bool :=
  match u with
  | (1, j) => !s.dieRecal j
  | (2, n) => !s.media.encs.any (fun e => decide (esDie e.2.desc = n / 2) && decide (e.2.engine = some (n % 2)))
  | (3, n) => !s.sluices.any (fun e => e.2.live && decide (s.sluiceUnit e.1 = n) && (e.2.phase = 3 || e.2.phase = 4))
  | _ => true

/-- The place of an engine among the units out of use, and its die, class and index in events. -/
def unitPlace (u : Nat × Nat) : Nat × Nat × Nat × Nat :=
  match u with
  | (2, n) => (64 + n, 8 + n / 2, 4, n)
  | (3, n) => (80 + n, 0x10 + n / 4, 5, n)
  | (_, n) => (96 + n, 0x0C + n / 4, 7, 0)

/-- A unit other than a core and its test (R448). DEDUCED (log entry 106). -/
def State.unitTested (s : State) (h : Nat) (u : Nat × Nat) (pass : Bool) : State :=
  let any := Config.freeNat s.freeCtr % 256
  if u.1 = 1 then
    let v := s.link u.2
    if v.state ≠ 4 || !s.alternates u.2 then (s.linkEvent u.2 0x0707 0 1).unitDone h 0 0
    else if pass then (s.linkEvent u.2 0x0707 0 0).unitDone h 1 0
    else ((s.setLink u.2 { v with state := 6, lost := true }).testFailed (linkDie u.2) 3 u.2 any).tick.unitDone h 1 1
  else if u.1 = 5 then
    if pass then s.unitDone h 1 0 else (s.tableRequest (u.2 / 12)).unitDone h 1 1
  else if pass then s.unitDone h 1 0
  else
    let p := unitPlace u
    let s := { s with dep := { s.dep with unitsOut := mapSet false s.dep.unitsOut p.1 true } }
    (s.testFailed p.2.1 p.2.2.1 p.2.2.2 any).tick.unitDone h 1 1

/-- UNIT_TEST (R448). -/
def execUnitTest (unit : TestUnit) (pass : Bool) (s : State) : Outcome State Fault Refusal :=
  .next (match s.testNow with
    | some (h, u) => if u = unitOf unit && s.unitIdle u then s.unitTested h u pass else s
    | none => s)

/-! ### Fencing by the runtime (R431, R450) -/

/-- A core under test is fenced: the test stops, and no test follows by itself. DEDUCED (log entry 105). -/
def State.stopTest (s : State) (c : Nat) : State :=
  let k := s.core c
  let s := match s.testNow with
    | some (h, u) => if u = (0, c) then s.unitDone h 0 0 else s
    | none => s
  let s := (s.setCore c { k with health := { k.health with underTest := false, fenced := false } }).fenceCore c 4
  let k := s.core c
  s.setCore c { k with health := { k.health with underTest := false } }

/-- DEDUCED (log entry 105). -/
def State.fenceRequest (s : State) (c : Nat) : State :=
  if c > 191 then s
  else if s.underTest c then s.stopTest c
  else s.fenceCore c 4

/-- An unfence: refused for a core that does not exist or has not passed a test since its fence; a core that is not
fenced stays as it is. DEDUCED (log entry 105). -/
def State.unfence (s : State) (c : Nat) : State :=
  let k := s.core c
  if c > 191 then { s with hub := { s.hub with fenceRefused := true } }
  else if !k.health.fenced then s
  else if !k.health.testedSinceFence then { s with hub := { s.hub with fenceRefused := true } }
  else
    let s := s.setCore c { k with health := { k.health with fenced := false, fenceReason := 0, testedSinceFence := false } }
    s.post { code := 0x0807, sev := 0, die := c / 24, cls := 0, index := c, detail := detailF c 0 }

/-- HUB_FENCE_CMD written: the command and core fields stay as written, `go` reads 0 (R431). DEDUCED (log entry 105). -/
def State.fenceCmd (s : State) (w : Nat) : State :=
  let c := w % 256
  let s := { s with hub := { s.hub with fenceCmd := bit (w.testBit 30) 30 + c } }
  if !w.testBit 31 then s else if w.testBit 30 then s.fenceRequest c else s.unfence c

def execCoreFenceCmd (core : BitVec 8) (s : State) : Outcome State Fault Refusal :=
  .next (if s.fnOpen 0 then s.fenceCmd (2 ^ 31 + 2 ^ 30 + core.toNat) else s)

def execCoreUnfenceCmd (core : BitVec 8) (s : State) : Outcome State Fault Refusal :=
  .next (if s.fnOpen 0 then s.fenceCmd (2 ^ 31 + core.toNat) else s)

/-- FENCE_WINDOW_EXPIRY (R431): the count of a core restarts. -/
def execFenceWindowExpiry (core : Nat) (s : State) : Outcome State Fault Refusal :=
  .next (
    let k := s.core core
    if core ≥ 192 then s else s.setCore core { k with health := { k.health with windowCount := 0 } })

/-! ### The causeway (R30) -/

/-- A failed resend on a port; the sixteenth in a row retires it. -/
def State.portFail (s : State) (port : Nat) : State :=
  let n := mapGet 0 s.dep.resends port + 1
  if port ≥ 32 || mapGet false s.portsDown port then s
  else if n < 16 then s.setDep { s.dep with resends := mapSet 0 s.dep.resends port n }
  else
    let s := s.setDep { s.dep with resends := mapSet 0 s.dep.resends port 0 }
    ({ s with portsDown := mapSet false s.portsDown port true } : State).post
      { code := 0x0801, sev := 1, die := port / 4, cls := 6, index := port }

/-- CAUSEWAY_CRC_FAIL: whether the resend got through. -/
def execCausewayCrcFail (port : Nat) (resent : Bool) (s : State) : Outcome State Fault Refusal :=
  .next (if resent then s.setDep { s.dep with resends := mapSet 0 s.dep.resends port 0 } else s.portFail port)

/-! ### Lanterns (R440, R441) -/

/-- The die of a lantern (R12). -/
def lanternDie (n : Nat) : Nat :=
  if n < 16 then n / 2 else if n < 24 then 8 + (n - 16) / 2 else if n < 28 then 0x0C + (n - 24)
  else if n < 30 then 0x10 + (n - 28) else if n < 38 then 0x12 else 0x13

/-- A lantern restarts from its image. DEDUCED (log entry 109). -/
def State.lanternRestart (s : State) (n : Nat) : State :=
  (s.setDep { s.dep with down := mapSet false s.dep.down n true }).lanternEvent n (lanternDie n) 0x080C 1 (detailF n 0)

/-- The warden's pair restarts (R442). DEDUCED (log entry 109). -/
def State.pairRestart (s : State) : State := s.setEv { s.ev with halted := true }

/-- A mismatch of the pair; the third within an hour is the last that the warden takes in full service (R443). -/
def State.pairMismatch (s : State) : State :=
  let times := s.dep.pairTimes.filter (fun t => decide (s.time < t + 3600 * second)) ++ [s.time]
  let s := s.setDep { s.dep with pairTimes := times }
  let e : Ev := { code := 0x080E, sev := 1, die := 0x13, cls := 7 }
  let s := s.pairRestart.post e
  if times.length ≥ 3 && !s.dep.safeMode then
    (s.setDep { s.dep with safeMode := true }).post { e with code := 0x080F, sev := 3 }
  else s

/-- The level of the reset that contains a lantern's failure. DEDUCED (log entry 104). -/
def containLevel (n : Nat) : Nat := if n < 16 then 2 else if n < 30 then 3 else 4

/-- The second expiry within a second (R441). DEDUCED (log entry 104). -/
def State.contain (s : State) (n : Nat) : State :=
  let s := s.lanternEvent n (lanternDie n) 0x080D 1 (detailF n (Config.resetLevel (containLevel n)))
  if n < 16 then (s.emptyRegion n true true).resetRegion n
  else if n < 30 then s.startDieReset (lanternDie n)
  else s.warmReset

/-! ### Live update: going back (R445) -/

/-- The regions and dies already switched run their previous images again. DEDUCED (log entry 110). -/
def State.updateBack (s : State) (n : Nat) : State :=
  match s.dep.update with
  | none => s
  | some u =>
    let d := lanternDie n
    let s := (s.setDep { s.dep with update := none }).lanternEvent n d 0x0813 1
      (d * 2 ^ 59 + (if n < 16 then n * 2 ^ 55 else 0))
    let s := { s with hub := { s.hub with updateActive := false } }
    let s := u.before.foldl (fun s e => s.setRunning e.1 e.2) s
    let s := (u.regions.filter (fun r => mapGet 0 u.times r ≠ 0)).foldl State.tableRequest s
    u.jobs.foldl (fun s i => if (s.job i).live && (s.job i).state = 2 then s.resumeJob i else s) s

/-- LANTERN_WATCHDOG_EXPIRY. DEDUCED (log entry 109). -/
def execLanternWatchdogExpiry (lantern : Nat) (s : State) : Outcome State Fault Refusal :=
  .next (
    if lantern ≥ 38 then
      if lantern ≤ 39 && s.boot.done.testBit 0 && !s.ev.halted then s.pairMismatch else s
    else if !s.dieUp (lanternDie lantern) || !s.hub.running then s
    else
      let last := mapGet 0 s.dep.expiry lantern
      let soon := decide (last ≠ 0) && decide (s.time + 1 ≤ last + second)
      let switched := match s.dep.update with
        | some u => mapGet 0 u.times lantern
        | none => 0
      let s := s.lanternRestart lantern
      if !soon then s.setDep { s.dep with expiry := mapSet 0 s.dep.expiry lantern (s.time + 1) }
      else
        let s := s.setDep { s.dep with expiry := mapSet 0 s.dep.expiry lantern 0 }
        if switched ≠ 0 && switched ≤ last && s.time + 1 ≤ switched + second then s.updateBack lantern
        else s.contain lantern)

/-- A walk in progress goes on from its next slot. -/
def Queued.rewalk (q : Queued) : Queued :=
  match q.flight with
  | .attn r => { q with flight := .attn r.rewalk }
  | _ => q

/-- DEDUCED (log entry 109). -/
def Slot.rewalk (sl : Slot) : Slot := { sl with qTa := sl.qTa.map Queued.rewalk }

/-- Walks in progress on the cores of a region are walked again from their next slots (R285, R440). -/
def State.rewalkRegion (s : State) (r : Nat) : State :=
  (coresOf r).foldl (fun s c =>
    let k := s.core c
    if k.slots.isEmpty then s else s.setCore c { k with slots := mapOver {} Slot.rewalk k.slots }) s

/-- LANTERN_RESTART_DONE. A tier lantern confirms no copy that it was carrying out. -/
def execLanternRestartDone (lantern : Nat) (s : State) : Outcome State Fault Refusal :=
  .next (
    if !s.lanternDown lantern then s
    else
      let s := s.setDep { s.dep with down := mapSet false s.dep.down lantern false }
      if lantern < 16 then s.rewalkRegion lantern
      else if lantern = 28 || lantern = 29 then s.stopSluices (lanternDie lantern)
      else s)

/-- HUB_HEARTBEAT_TIMEOUT (R441): 100 ms without a heartbeat. Which lantern the event names, no rule says. -/
def execHubHeartbeatTimeout (s : State) : Outcome State Fault Refusal :=
  .next (
    if !s.hub.running || s.ev.halted then s
    else
      (s.post { code := 0x080D, sev := 1, die := 0x13, cls := 7,
                detail := detailF (Config.freeNat s.freeCtr % 256) (Config.resetLevel 4) }).tick.warmReset)

/-- PAIR_OUTPUT_MISMATCH (R442, R443). -/
def execPairOutputMismatch (s : State) : Outcome State Fault Refusal :=
  .next (if s.boot.done.testBit 0 && !s.ev.halted then s.pairMismatch else s)

/-- WARDEN_PAIR_RESTART_DONE: journal writes and the host's limit that waited take effect (R442, R514). -/
def execWardenPairRestartDone (s : State) : Outcome State Fault Refusal :=
  .next (
    if !s.ev.halted then s
    else
      let v := { s.ev with halted := false, journalWait := [] }
      let s := s.setEv (s.ev.journalWait.foldl Events.journalAdd v)
      { s with power := { s.power with host := s.power.hostWaits.getD s.power.host, hostWaits := none } })

/-! ### Live update (R444, R445) -/

/-- An image is switched on: its die's report, and what it ran before. DEDUCED (log entry 110). -/
def State.switchImage (s : State) (u : Update) (d : Nat) (lanterns : List Nat) : State × Update :=
  let was := if u.before.any (fun e => decide (e.1 = d)) then u.before else u.before ++ [(d, s.running d)]
  let times := lanterns.foldl (fun m n => mapSet 0 m n (s.time + 1)) u.times
  (s.setRunning d ((s.imgSlot u.slotB).image (dieType d)), { u with before := was, times := times })

def coreEmpty (c : Core) : Bool := c.slots.all (fun e => !e.2.id.resident)

/-- REGION_FIRMWARE_SWITCH: steps 2 and 3 of R444 for the region whose turn it is. DEDUCED (log entry 110). -/
def execRegionFirmwareSwitch (region : Nat) (s : State) : Outcome State Fault Refusal :=
  .next (match s.dep.update with
    | none => s
    | some u =>
      let empty := (coresOf region).all (fun c => coreEmpty (s.core c))
      if s.updateRegion ≠ some region || (s.region region).resetting || s.lanternDown region
        || (!empty && s.time < u.since + u.wait * second) then s
      else
        let s := s.emptyRegion region true false
        let s := s.setRegion region { s.region region with resetting := false }
        let (s, u) := s.switchImage u (region / 2) [region]
        let s := s.setDep { s.dep with update := some { u with regions := u.regions ++ [region], since := s.time } }
        let s := (s.tableRequest region).lanternEvent region (region / 2) 0x0812 0 (region / 2 * 2 ^ 59 + region * 2 ^ 55)
        if s.updateRegion.isNone then
          match s.dep.update with
          | some u => s.setDep { s.dep with update := some { u with step := 4 } }
          | none => s
        else s)

/-- Media, link and tier dies that a live update has still to switch. -/
def State.diesLeft (s : State) (u : Update) : List Nat :=
  ((List.range 10).map (· + 8)).filter (fun d => s.dieUp d && !u.dies.contains d)

/-- A die stands at a frame or extent boundary (R444 step 4). -/
def State.dieIdle (s : State) (d : Nat) : Bool :=
  if d < 0x0C then !s.media.encs.any (fun e => decide (esDie e.2.desc = d - 8) && e.2.engine.isSome)
  else if d < 0x10 then true
  else !s.sluices.any (fun e => e.2.live && decide (s.sluiceDie e.1 = some d) && (e.2.phase = 3 || e.2.phase = 4))

/-- DIE_FIRMWARE_SWITCH: step 4 of R444 for one die. DEDUCED (log entry 110). -/
def execDieFirmwareSwitch (die : Nat) (s : State) : Outcome State Fault Refusal :=
  .next (match s.dep.update with
    | none => s
    | some u =>
      if u.step ≠ 4 || !(s.diesLeft u).contains die || !s.dieIdle die || (lanternsOf die).any s.lanternDown then s
      else
        let (s, u) := s.switchImage u die (lanternsOf die)
        let u := { u with dies := u.dies ++ [die] }
        let u := if (s.diesLeft u).isEmpty then { u with step := 5 } else u
        (s.setDep { s.dep with update := some u }).lanternEvent ((lanternsOf die).headD 0) die 0x0812 0 (die * 2 ^ 59))

/-- HUB_UPDATE_RESTART: step 5 of R444. Jobs that run begin to suspend; once every one has landed, the hub lanterns
restart, the jobs resume, and the slot is recorded as active. DEDUCED (log entry 110). -/
def execHubUpdateRestart (s : State) : Outcome State Fault Refusal :=
  .next (match s.dep.update with
    | none => s
    | some u =>
      if u.step ≠ 5 || s.ev.halted then s
      else
        let run := (s.jobs.filter (fun e => e.2.live && decide (e.2.state = 0) && !e.2.faulted)).map (·.1)
        let s := run.foldl (fun s i => s.suspendJob i []) s
        let u := { u with jobs := u.jobs ++ run }
        let s := s.jobs.foldl (fun s e => s.jobSuspended e.1) s
        if s.jobs.any (fun e => e.2.live && decide (e.2.state < 2) && !e.2.faulted) then
          s.setDep { s.dep with update := some u }
        else
          let s := s.setRunning 0x12 ((s.imgSlot u.slotB).image 1)
          let s := { s with dep := { s.dep with update := none }, hub := { s.hub with updateActive := false } }
          let s := u.jobs.foldl (fun s i => if (s.job i).live && (s.job i).state = 2 then s.resumeJob i else s) s
          s.activated u.slotB)

/-- FIRMWARE_REVERT: a switched lantern fails its start checks. -/
def execFirmwareRevert (lantern : Nat) (s : State) : Outcome State Fault Refusal :=
  .next (match s.dep.update with
    | none => s
    | some u => if mapGet 0 u.times lantern = 0 then s else s.updateBack lantern)

/-! ### SRAM errors (R434, R435) -/

/-- A correction is counted, and posted at most once a second for its unit with the count since the last post. -/
def State.corrected (s : State) (e : Ev) : State :=
  let key := e.code * 2 ^ 24 + e.cls * 65536 + e.die * 256 + e.index
  let n := mapGet 0 s.dep.corrected key + 1
  let last := mapGet 0 s.ev.lastPost key
  if last ≠ 0 && s.time + 1 < last + second then s.setDep { s.dep with corrected := mapSet 0 s.dep.corrected key n }
  else
    (s.setDep { s.dep with corrected := mapSet 0 s.dep.corrected key 0 }).postEachSecond key
      { e with detail := n % 2 ^ 32 * 2 ^ 32 }

/-- Where an SRAM lies, as die, class and index of events. -/
def sramPlace : SramPlace → Nat × Nat × Nat
  | .slotStore c _ => (c / 24, 0, c)
  | .clearBlock c => (c / 24, 0, c)
  | .icache c _ _ => (c / 24, 0, c)
  | .homeCache d => (d, 7, 0)
  | .pageQueue c _ => (c / 24, 0, c)
  | .sharedClean d => (d, 7, 0)
  | .sharedDirty d _ => (d, 7, 0)
  | .sfuBank c => (c / 24, 0, c)
  | .replayCauseway p => (p / 4, 6, p)
  | .replayLevee j => (linkDie j, 3, j)
  | .lantern n => (lanternDie n, 1, n)
  | .warden => (0x13, 7, 0)

def State.sramCorrected (s : State) (p : SramPlace) : State :=
  let (d, c, i) := sramPlace p
  let s := if c = 0 then
      let k := s.core i
      s.setCore i { k with health := { k.health with sramCorrected := satAdd 16 k.health.sramCorrected 1 } }
    else s
  s.corrected { code := 0x0808, sev := 0, die := d, cls := c, index := i }

/-- An attention command from its beginning, in reference mode. -/
def AttnRun.again (r : AttnRun) : AttnRun :=
  { op := r.op, desc := r.desc, handle := r.handle, dwork := r.dwork, q0 := r.q0, qRows := r.qRows, h0 := r.h0,
    heads := r.heads, k0 := r.k0, kCount := r.kCount, qTile := r.qTile, bank := r.bank, gen := r.gen, ref := true }

/-- A command that is under way and reads a table bank replays in reference mode (R435). -/
def Queued.replayRef (q : Queued) : Queued × NumCount :=
  match q.flight with
  | .row r =>
    if (r.op = .gate || r.op = .norm || r.op = .smax) && !r.ref && (q.granted || decide (r.row ≠ 0)) then
      ({ q with flight := .row { r with row := 0, ref := true, counted := {} } }, r.counted)
    else (q, {})
  | .attn r => if r.started && !r.ref then ({ q with flight := .attn r.again }, {}) else (q, {})
  | _ => (q, {})

/-- DEDUCED (log entry 108). -/
def Slot.replayRef (sl : Slot) : Slot :=
  let rs := sl.qSfu.map Queued.replayRef
  { sl with
    qSfu := rs.map (·.1), qTa := sl.qTa.map (fun q => q.replayRef.1)
    cnt := rs.foldl (fun c x => c.less x.2) sl.cnt }

/-- The event of an uncorrectable error, with an address that no rule fixes. DEDUCED (log entry 108). -/
def State.sramEvent (s : State) (p : SramPlace) (ctx : Nat) : State :=
  let (d, c, i) := sramPlace p
  (s.post { code := 0x0809, sev := 2, die := d, cls := c, index := i, ctx := ctx,
            detail := Config.freeNat s.freeCtr % 2 ^ 52 }).tick

/-- An uncorrectable error, by the storage it strikes (R435, R450). DEDUCED (log entry 108). -/
def State.sramLost (s : State) (p : SramPlace) : State :=
  match p with
  | .clearBlock _ => s
  | .slotStore c k =>
    let id := (s.slot c k).id
    if !id.resident then s
    else if id.state = 3 then (s.sramEvent p id.ctx).faultJob id.ctx 0x080B |>.countTowardFence c
    else ((((s.sramEvent p id.ctx).stopSlot { core := c, slot := k }).faultJob id.ctx 0x0809)).countTowardFence c
  | .icache c code line =>
    let k := s.core c
    ((s.setCore c { k with icache := k.icache.filter (fun e => e != (code, line)) }).sramEvent p 0).countTowardFence c
  | .homeCache d => (s.sramEvent p 0).countTowardFence (24 * d + Config.freeNat s.freeCtr % 24)
  | .pageQueue c k =>
    ((s.setSlot c k (s.slot c k).rewalk).sramEvent p 0).countTowardFence c
  | .sharedClean _ => s.sramEvent p 0
  | .sharedDirty _ name =>
    ({ s with mem := { s.mem with poison := mapSet false s.mem.poison (name / 64) true } } : State).sramEvent p 0
  | .sfuBank c =>
    let k := s.core c
    let s := s.setCore c { k with slots := mapOver {} Slot.replayRef k.slots }
    ((s.sramEvent p 0).tableRequest (c / 12)).countTowardFence c
  | .replayCauseway port => (s.sramEvent p 0).portFail port
  | .replayLevee j =>
    let v := s.link j
    if v.state = 4 || v.state = 5 then (s.sramEvent p 0).setLink j { v with naksSent := v.naksSent + 1 }
    else s.sramEvent p 0
  | .lantern n => if s.dieUp (lanternDie n) then (s.sramEvent p 0).lanternRestart n else s
  | .warden => if s.ev.halted then s else (s.sramEvent p 0).pairRestart

/-- The part exists. -/
def sramFits (s : State) : SramPlace → Bool
  | .slotStore c k => decide (c < 192) && decide (k < 4)
  | .clearBlock c => decide (c < 192)
  | .icache c _ _ => decide (c < 192)
  | .homeCache d => decide (d < 8)
  | .pageQueue c k => decide (c < 192) && decide (k < 4)
  | .sharedClean d => decide (d < 8)
  | .sharedDirty d name => decide (d < 8) && decide (name < hostBase)
  | .sfuBank c => decide (c < 192)
  | .replayCauseway p => decide (p < 32)
  | .replayLevee j => s.linkFitted j
  | .lantern n => decide (n < 38) && s.variant.fits (lanternDie n)
  | .warden => true

/-- SRAM_ECC_ERROR. DEDUCED (log entry 108). -/
def execSramEccError (place : SramPlace) (correctable : Bool) (s : State) : Outcome State Fault Refusal :=
  .next (
    if !sramFits s place then s
    else if correctable then s.sramCorrected place
    else s.sramLost place)

/-! ### Memory errors (R436 to R438) -/

/-- The device name at which the hub keeps the home entry of an extent (R25, R292): the extents of the stack range, then
those of the DDR range. -/
def entryName (x : Nat) : Nat :=
  16 * (if x < stackEnd / extentBytes then x else stackEnd / extentBytes + (x - ddrBase / extentBytes))

/-- A corrected word of a stack or of a DDR channel (R436, R512). -/
def State.memCorrected (s : State) (tier unit : Nat) : State :=
  let s := if tier = 1 then s.bump (tierReg (unit / 4) 0x30) 32 1 else s
  s.corrected { code := 0x080A, sev := 0, die := if tier = 1 then 0x10 + unit / 4 else unit / 2, cls := 2,
                index := if tier = 1 then 0x10 + unit else unit }

/-- A home entry that cannot be corrected (R438): quarantined, without slices; those it named are found free at the next
rebuild. -/
def State.loseEntry (s : State) (x : Nat) : State :=
  let h := s.home x
  let had (on : Bool) (tier slice m1 : Nat) : List (Nat × Nat × Nat) :=
    if on && decide (m1 < noSlices) then [(tier, slice, m1 + 1)] else []
  let m := s.mem
  let s := { s with mem := { m with
    lost := mapSet false m.lost x true
    held := m.held.filter (fun w => decide (w.extent ≠ x))
    orphans := m.orphans ++ had (decide (2 ≤ h.state)) h.tier h.slice h.slicesM1
      ++ had (decide (h.state = 3)) h.destTier h.destSlice h.destSlicesM1 } }
  let s := s.setHome x { state := 4, slicesM1 := noSlices, object := h.object, tier := h.tier }
  (s.settleFlips.skipReverted).post { code := 0x0814, sev := 2, die := 0x12, cls := 7, detail := x * extentBytes }

/-- MEM_ECC_ERROR. -/
def execMemEccError (place : MemPlace) (correctable : Bool) (s : State) : Outcome State Fault Refusal :=
  .next (match place with
    | .word name =>
      let h := s.home (name / extentBytes)
      if name ≥ hostBase || (h.state ≠ 2 && h.state ≠ 3) || h.tier = 2 then s
      else if correctable then
        s.memCorrected h.tier (if h.tier = 1 then ddrChannel (s.homeAddr name) h.salt else s.stackOf (s.homeAddr name) h.salt)
      else { s with mem := { s.mem with poison := mapSet false s.mem.poison (name / 64) true } }
    | .homeEntry x =>
      if !(x < stackEnd / extentBytes || (ddrBase / extentBytes ≤ x && x < (ddrBase + s.ddrBytes) / extentBytes)) then s
      else if correctable then s.memCorrected 0 (s.stackOf (entryName x) 0)
      else s.loseEntry x)

/-- PATROL_SCRUB: it reads both tiers and writes back what it corrects; what it finds wrong is a memory error of its
own. -/
def execPatrolScrub (s : State) : Outcome State Fault Refusal := .next s

end Sys2Proof.Machine
end

