-- ==== Sys2Proof/Machine/Polders.lean ====
section
/-!
DEFINITION. Polder pages, dikes and the binding of VFs (R319, R383 to R389), and the power of idle cores (R539).
-/
namespace Sys2Proof.Machine
open Host

/-! ### Polder pages (R319, R383, R384) -/

def Polder.ctrl (p : Polder) : Nat :=
  bit p.enable 31 + bit p.exclusive 30 + p.priority % 8 * 2 ^ 27 + p.slotQuota % 1024

/-- POLDER_STATUS (R384). -/
def State.polderStatus (s : State) (p : Nat) : Nat :=
  min (s.slotsHeld p) 1023 * 4096 + (s.jobs.filter (fun j => j.2.live && decide (j.2.polder = p))).length % 4096

/-- POLDER_CTRL written (R383). -/
def State.polderCtrl (s : State) (p w : Nat) : State :=
  s.setPolder p { s.polder p with
    enable := w.testBit 31, exclusive := w.testBit 30, priority := fieldOf w 27 3, slotQuota := fieldOf w 0 10 }

/-- POLDER_CTRL_WRITE: PF0 writes polder pages. -/
def execPolderCtrlWrite (polder : BitVec 4) (v : Lane) (s : State) : Outcome State Fault Refusal :=
  .next (if s.serves 0 then s.polderCtrl polder.toNat v.toNat else s)

/-- A salt register written (R319): a write of the high word makes the pair the salt. -/
def State.polderSalt (s : State) (p : Nat) (high : Bool) (w : Nat) : State :=
  let x := s.polder p
  s.setPolder p (if high then { x with salt := w % 16 * 2 ^ 32 + x.saltLo } else { x with saltLo := w })

/-- POLDER_SALT_WRITE. -/
def execPolderSaltWrite (polder : BitVec 4) (high : Bool) (v : Lane) (s : State) : Outcome State Fault Refusal :=
  .next (if s.serves 0 then s.polderSalt polder.toNat high v.toNat else s)

/-! ### Dikes (R386 to R389) -/

/-- The die of a dike's resource; none for an index that is not used (R387). -/
def dikeDie (i : Nat) : Option Nat :=
  if i < 8 then some i
  else if i = 8 then some 0x10
  else if 0x10 ≤ i && i < 0x30 then some ((i - 0x10) / 4)
  else if i < 0x30 then none
  else if i < 0x34 then some (0x0C + (i - 0x30))
  else if i = 0x34 then some 0x12
  else if i = 0x35 || i = 0x36 then some (0x10 + (i - 0x35))
  else if 0x38 ≤ i && i < 0x3C then some (8 + (i - 0x38))
  else none

/-- A dike exists on the variant; the others read 0 and ignore writes. -/
def State.dikeThere (s : State) (i : Nat) : Bool :=
  match dikeDie i with
  | some d => s.variant.fits d
  | none => false

/-- Tokens of a full bucket: bytes, or millionths of a microsecond (R387). -/
def burstTokens (i burst : Nat) : Int := if 0x38 ≤ i then burst * 1000000 else burst * 1024

/-- The registers of a dike as read (R388). -/
def State.dikeRate (s : State) (p i : Nat) : Nat := if s.dikeThere i then (s.dike p i).rate else 0
def State.dikeBurst (s : State) (p i : Nat) : Nat := if s.dikeThere i then (s.dike p i).burst else 0
def State.dikeWait (s : State) (p i : Nat) : Nat := if s.dikeThere i then min ((s.dike p i).waitUs / 1000) 0xFFFFFFFF else 0

/-- A register of a dike written (R388): the rate, or the burst, which lowers the tokens to it. A dike that begins to
regulate holds a full bucket. DEDUCED (log entry 94). -/
def State.dikePut (s : State) (p i : Nat) (burst : Bool) (x : Nat) : State :=
  let d := s.dike p i
  let w := x % 2 ^ 24
  if !s.dikeThere i then s
  else if burst then s.setDike p i { d with burst := max w 1, tokens := min d.tokens (burstTokens i (max w 1)) }
  else s.setDike p i { d with rate := w, tokens := if d.rate = 0xFFFFFF then burstTokens i d.burst else d.tokens }

/-- DIKE_REGISTER_WRITE. -/
def execDikeRegisterWrite (polder : BitVec 4) (dike : BitVec 6) (burst : Bool) (v : Lane) (s : State) :
    Outcome State Fault Refusal :=
  .next (if s.serves 0 then s.dikePut polder.toNat dike.toNat burst v.toNat else s)

/-- DIKE_TOKEN_ACCRUAL: `us` microseconds pass for a dike (R386); the time counts where it held a request (R388).
DEDUCED (log entry 94). -/
def execDikeTokenAccrual (polder : BitVec 4) (dike : BitVec 6) (us : Nat) (s : State) : Outcome State Fault Refusal :=
  .next (
    let p := polder.toNat
    let i := dike.toNat
    let d := s.dike p i
    if !s.dikeThere i then s
    else
      let held := if d.holding then us else 0
      let tokens := if d.rate = 0xFFFFFF then d.tokens else min (burstTokens i d.burst) (d.tokens + (d.rate * us : Nat))
      let d := { d with tokens := tokens, waitUs := d.waitUs + held, heldUs := d.heldUs + held }
      s.setDike p i { d with holding := d.holding && !d.open_ })

/-- DIKE_WINDOW: a window of one second ends; DIKE_PRESSURE is posted where the dike held requests in at least 900 ms
of it (R388, R395). DEDUCED (log entry 94). -/
def execDikeWindow (polder : BitVec 4) (dike : BitVec 6) (s : State) : Outcome State Fault Refusal :=
  .next (
    let p := polder.toNat
    let i := dike.toNat
    let d := s.dike p i
    let s := s.setDike p i { d with heldUs := 0 }
    if d.heldUs < 900000 || !s.dikeThere i then s
    else s.postEachSecond (0x0123 * 4096 + p * 64 + i)
      { code := 0x0123, sev := 0, die := 0x12, cls := 7, detail := jobDetail 0 p 0xFF 0 i })

/-! ### Binding of VFs (R385) -/

/-- A VF's polder holds a live context that the VF submitted. -/
def State.vfBusy (s : State) (k : Nat) : Bool :=
  s.jobs.any (fun j => j.2.live && decide (j.2.fn = k) && decide (j.2.polder = s.vfPolder k))

/-- A word of HUB_VF_POLDER as a write leaves it: fields of busy VFs stay, and VF 0 has none. -/
def State.vfWord (s : State) (high : Bool) (w : Nat) : Nat :=
  ((List.range 8).map (fun i =>
    let k := if high then i + 8 else i
    let f := if k = 0 then 0 else if s.vfBusy k then s.vfPolder k else fieldOf w (4 * i) 4
    f * 2 ^ (4 * i))).sum

def State.vfPolderPut (s : State) (high : Bool) (x : Nat) : State :=
  let w := s.vfWord high x
  { s with hub := if high then { s.hub with vfPolder1 := w } else { s.hub with vfPolder0 := w } }

/-- HUB_VF_POLDER_WRITE (R385). -/
def execHubVfPolderWrite (high : Bool) (v : Lane) (s : State) : Outcome State Fault Refusal :=
  .next (if s.fnOpen 0 then s.vfPolderPut high v.toNat else s)

/-! ### Power of cores (R539) -/

/-- CORE_POWER_OFF: a core that holds no context and waits for none is powered off. DEDUCED (log entry 95). -/
def execCorePowerOff (core : Nat) (s : State) : Outcome State Fault Refusal :=
  .next (
    let c := s.core core
    if core ≥ 192 || c.slots.any (fun k => k.2.id.resident) || s.underTest core then s
    else s.setCore core { c with icache := [], health := { c.health with off := true } })

end Sys2Proof.Machine
end

