-- ==== Sys2Proof/Machine/Power.lean ====
section
/-!
DEFINITION. The warden's power control (R540 to R544, R548), sensors (R566), and the faults of the input and of the
environment (R556, R557), with their events (R558).
-/
namespace Sys2Proof.Machine
open Host

def State.setPower (s : State) (p : Power) : State := { s with power := p }

/-- The warden runs: phase P0 is complete and its pair is not restarting. -/
def State.wardenRuns (s : State) : Bool := s.boot.done.testBit 0 && !s.ev.halted && !s.power.standbyOff

/-- The main rails are up. -/
def State.railsUp (s : State) : Bool := s.boot.done.testBit 1 && !s.power.mainOff && !s.power.standbyOff

/-! ### Events (R558) -/

/-- A value of a detail field that may be negative. -/
def low32 (v : Int) : Nat := (v % 2 ^ 32).toNat

/-- An event of the warden; `die` and `sub` are the fields of its detail. DESIGN CHOICE (log entry 111). -/
def powerEv (code sev : Nat) (value : Int) (die sub : Nat) : Ev :=
  { code := code, sev := sev, die := 0x13, cls := 7, detail := low32 value * 2 ^ 32 + die % 256 * 2 ^ 24 + sub % 256 * 65536 }

def State.powerEvent (s : State) (code sev : Nat) (value : Int) : State := s.post (powerEv code sev value 0x13 0)

/-- An event that is posted at most once a minute. -/
def State.postEachMinute (s : State) (e : Ev) : State :=
  let last := mapGet 0 s.ev.lastPost e.code
  if last ≠ 0 && s.time + 1 < last + 60 * second then s
  else
    let s := s.post e
    { s with ev := { s.ev with lastPost := mapSet 0 s.ev.lastPost e.code (s.time + 1) } }

/-! ### The limit in force (R540, R543) -/

def clampLimit (w : Nat) : Nat := max 1200 (min w 3300)

/-- What the inlet temperature leaves of the thermal term. -/
def Sensor.inletCap (v : Sensor) : Nat :=
  if v.fault = 0 && v.value > 450 then max 1200 (3300 - 6 * (v.value - 450).toNat) else 3300

/-- The limit that the warden holds, in W. DEDUCED (log entry 112). -/
def State.limit (s : State) : Nat :=
  let p := s.power
  let safe := if s.dep.safeMode then 2400 else 3300
  let cap := if p.flowCap || p.undervolt then 1200 else 3300
  [p.mgmt, p.host, safe, p.term, p.inlet.inletCap, cap].foldl min 3300

/-- Some engine is throttled. -/
def Power.throttled (p : Power) : Bool := decide (p.tensor < 32) || decide (p.other < 32) || p.idle

/-- A step that throttles, reported when it is the first after a second without. -/
def State.throttleStep (s : State) (p : Power) : State :=
  let first := decide (s.power.clearMs ≥ 1000)
  let limit := s.limit
  let s := s.setPower { p with clearMs := 0 }
  if first then s.powerEvent 0x0A01 0 limit else s

/-- POWER_LOOP_TICK: one millisecond of R541. -/
def execPowerLoopTick (watts : Nat) (s : State) : Outcome State Fault Refusal :=
  .next (
    if !s.wardenRuns || !s.railsUp then s
    else
      let limit := s.limit
      let p : Power := { s.power with watts := watts }
      let s :=
        if watts > limit then
          let p : Power := { p with underMs := 0 }
          if p.tensor > 4 then s.throttleStep { p with tensor := p.tensor - 1, overMs := 0 }
          else if p.other > 16 then s.throttleStep { p with other := p.other - 1, overMs := 0 }
          else if p.overMs + 1 ≥ 10 && !p.idle then
            (s.setPower { p with overMs := p.overMs + 1, idle := true }).powerEvent 0x0A02 1 watts
          else s.setPower { p with overMs := p.overMs + 1 }
        else
          let p : Power := { p with overMs := 0 }
          if watts * 100 < 98 * limit then
            let p : Power := { p with underMs := p.underMs + 1 }
            s.setPower (
              if p.underMs < 5 then p
              else if p.idle then { p with idle := false }
              else if p.other < 32 then { p with other := p.other + 1 }
              else if p.tensor < 32 then { p with tensor := p.tensor + 1 }
              else p)
          else s.setPower { p with underMs := 0 }
      let p : Power := s.power
      s.setPower (if p.throttled then { p with throttleMs := satAdd 16 p.throttleMs 1, clearMs := 0 }
        else { p with clearMs := p.clearMs + 1 }))

/-- OVERCURRENT_TRIP (R542): hardware halves the tensor steps. -/
def execOvercurrentTrip (watts : Nat) (s : State) : Outcome State Fault Refusal :=
  .next (
    if !s.railsUp || !decide (10 * watts > 11 * s.limit) then s
    else s.throttleStep { s.power with tensor := max 4 (s.power.tensor / 2) })

/-! ### Temperatures, flow, sensors (R543, R544, R566) -/

/-- The temperature of a die as last read. -/
def Power.temp (p : Power) (d : Nat) : Int := mapGet 0 p.temps d

/-- THERMAL_TERM_UPDATE: a die's temperature, after some milliseconds at it. DEDUCED (log entry 112). -/
def execThermalTermUpdate (die : Nat) (temp : Int) (ms : Nat) (s : State) : Outcome State Fault Refusal :=
  .next (
    if !s.wardenRuns || !s.variant.fits die then s
    else
      let was := s.power.temp die
      let p : Power := { s.power with temps := mapSet 0 s.power.temps die temp }
      let dies := (List.range 20).filter s.variant.fits
      let s :=
        if dies.any (fun d => decide (p.temp d ≥ 950)) then
          let s := s.setPower { p with term := max 1200 (p.term - 50 * ms), coolMs := 0 }
          if temp ≥ 950 then s.postEachSecond 0x0A03 (powerEv 0x0A03 1 temp die 0) else s
        else if dies.all (fun d => decide (p.temp d < 920)) && !p.undervolt then
          let n := p.coolMs + ms
          s.setPower { p with term := min 3300 (p.term + 50 * (n / 10)), coolMs := n % 10 }
        else s.setPower { p with coolMs := 0 }
      if temp < 1050 then s
      else
        let s := s.setPower { s.power with term := 1200 }
        if was < 1050 then s.post (powerEv 0x0A04 2 temp die 0) else s)

/-- FLOW_LOW_SUSTAINED (R543): a second below 1.0 L/min. DEDUCED (log entry 112). -/
def execFlowLowSustained (s : State) : Outcome State Fault Refusal :=
  .next (
    let p := s.power
    if s.wardenRuns && p.flow.fault = 0 && p.flow.value < 1000 then
      (s.setPower { p with flowCap := true }).postEachMinute (powerEv 0x0A07 1 p.flow.value 0x13 1)
    else s)

/-- A sensor takes a sample: a state of its input holds once ten samples in a row show it. -/
def Sensor.take (v : Sensor) : SensorReading → Sensor
  | .valid x =>
    if v.fault = 0 then { value := x }
    else if v.run + 1 ≥ 10 then { value := x } else { v with run := v.run + 1 }
  | .open_ => if v.fault = 1 then { v with run := 0 } else if v.run + 1 ≥ 10 then { v with fault := 1, run := 0 }
    else { v with run := v.run + 1 }
  | .short => if v.fault = 2 then { v with run := 0 } else if v.run + 1 ≥ 10 then { v with fault := 2, run := 0 }
    else { v with run := v.run + 1 }

/-- SENSOR_FAULT where an input has become faulty; its number among the sensors no rule states.
DESIGN CHOICE (log entry 111). -/
def State.sensorFault (s : State) (old new : Sensor) (base : Nat) : State :=
  if new.fault = old.fault || new.fault = 0 then s
  else (s.post (powerEv 0x0A08 1 ((base + new.fault : Nat) : Int) 0x13 (Config.freeNat s.freeCtr))).tick

/-- SENSOR_SAMPLE: one millisecond of R566. DESIGN CHOICE (log entry 111). -/
def execSensorSample (inlet flow : SensorReading) (s : State) : Outcome State Fault Refusal :=
  .next (
    if !s.wardenRuns then s
    else
      let p : Power := s.power
      let i := p.inlet.take inlet
      let f := p.flow.take flow
      let low := decide (f.fault = 0) && decide (f.value < 1000)
      let s := s.setPower { p with inlet := i, flow := f, flowCap := p.flowCap && low }
      let s := (s.sensorFault p.inlet i 0).sensorFault p.flow f 2
      let s := if i.fault = 0 && i.value > 450 then s.postEachMinute (powerEv 0x0A06 1 i.value 0x13 0) else s
      if f.fault = 0 && f.value < 2000 then s.postEachMinute (powerEv 0x0A07 1 f.value 0x13 1) else s)

/-! ### The input (R556) -/

/-- The state once the main rails are off: only the warden goes on, and memory contents are lost. -/
def State.afterMainLoss (s : State) : State :=
  { State.reset with
    variant := s.variant, time := s.time
    cores := s.journalCores
    ev := { s.ev.warm with log := [] }
    hub := { phase := 1 }
    ddrBytes := s.ddrBytes
    levee := { links := s.keptLinks }
    host := { perst := s.host.perst }
    dep := { pairTimes := s.dep.pairTimes, safeMode := s.dep.safeMode, refreshLog := s.dep.refreshLog }
    power := { s.power with mainOff := true, tensor := 32, other := 32, idle := false, overMs := 0, underMs := 0,
                            clearMs := 1000, throttleMs := 0, host := 0x0CE4, hostWaits := none }
    boot := { done := s.boot.done % 2 }
    sec := { s.sec with busy := false, collision := false, opcode := 0, reqLen := 0, req := [], answers := [], halted := [] }
    pending := s.pending, freeCtr := s.freeCtr }

/-- The main rails go off in reverse order of P1. DEDUCED (log entry 101). -/
def State.mainDown (s : State) : State := s.numberAll.afterMainLoss

/-- THERMAL_HOLD_EXPIRY (R543): a die at 115 °C, or for a second at 105 °C. DEDUCED (log entry 112). -/
def execThermalHoldExpiry (die : Nat) (temp : Int) (s : State) : Outcome State Fault Refusal :=
  .next (
    if !s.wardenRuns || !s.railsUp || !s.variant.fits die || temp < 1050 then s
    else (s.post (powerEv 0x0A05 3 temp die 0)).mainDown)

def State.setVolts (s : State) (v : Int) : State := s.setPower { s.power with volts := v }

/-- INPUT_REVERSED: P1 does not start. -/
def execInputReversed (volts10mV : Int) (s : State) : Outcome State Fault Refusal :=
  .next (
    if volts10mV ≥ 0 || s.power.standbyOff then s
    else ((s.setPower { s.power with reversed := true, volts := volts10mV }).powerEvent 0x0A09 3 volts10mV))

/-- INPUT_UNDERVOLT: below 40 V for 1 ms. DEDUCED (log entry 112). -/
def execInputUndervolt (volts10mV : Int) (s : State) : Outcome State Fault Refusal :=
  .next (
    if volts10mV ≥ 4000 || !s.railsUp then s
    else if s.power.undervolt then s.setVolts volts10mV
    else (s.setPower { s.power with undervolt := true, term := 1200, coolMs := 0, volts := volts10mV }).powerEvent
      0x0A0A 1 volts10mV)

/-- MAIN_POWER_LOST: below 36 V, or below 40 V for 100 ms. -/
def execMainPowerLost (volts10mV : Int) (s : State) : Outcome State Fault Refusal :=
  .next (
    if volts10mV ≥ 4000 || !s.railsUp then s
    else ((s.setVolts volts10mV).powerEvent 0x0A0C 3 volts10mV).mainDown)

/-- INPUT_OVERVOLT: above 60 V. -/
def execInputOvervolt (volts10mV : Int) (s : State) : Outcome State Fault Refusal :=
  .next (
    if volts10mV ≤ 6000 || s.power.standbyOff then s
    else (s.setVolts volts10mV).postEachMinute (powerEv 0x0A0B 1 volts10mV 0x13 0))

/-- INPUT_OVERVOLT_TRIP: above 63 V for 10 µs. DEDUCED (log entry 112). -/
def execInputOvervoltTrip (volts10mV : Int) (s : State) : Outcome State Fault Refusal :=
  .next (
    if volts10mV ≤ 6300 || !s.railsUp then s
    else (((s.setVolts volts10mV).powerEvent 0x0A0B 1 volts10mV).powerEvent 0x0A0C 3 volts10mV).mainDown)

/-- INPUT_RECOVERED: in range for 1 s. After a loss of main power, a cold start from P1. -/
def execInputRecovered (volts10mV : Int) (s : State) : Outcome State Fault Refusal :=
  .next (
    if volts10mV < 4000 || volts10mV > 6000 || s.power.standbyOff then s
    else
      let s := s.setPower { s.power with volts := volts10mV, reversed := false, undervolt := false }
      if s.power.mainOff then
        let s := s.coldReset
        { s with boot := { s.boot with done := 1 }, hub := { s.hub with phase := 1 } }
      else s)

/-- STANDBY_LOST: everything stops. DEDUCED (log entry 101). -/
def execStandbyLost (s : State) : Outcome State Fault Refusal :=
  .next (
    if s.power.standbyOff then s
    else
      let s := s.mainDown
      { s with power := { s.power with standbyOff := true }, boot := {}, hub := {} })

/-! ### Other faults (R548, R556, R557) -/

/-- DIMM_SUPPLY_FAULT: a socket's fuse opens. DEDUCED (log entry 115). -/
def execDimmSupplyFault (socket milliamps : Nat) (s : State) : Outcome State Fault Refusal :=
  .next (
    if socket ≥ 8 || s.variant = .tbx20d || s.power.fuses.contains socket || !s.railsUp then s
    else
      ((s.setPower { s.power with fuses := s.power.fuses ++ [socket] }).loseDdr false).post
        (powerEv 0x0A0D 2 milliamps (0x10 + socket / 4) socket))

/-- MGMT_BUS_RECOVERED: requests in flight are lost; none of them stays in the state. -/
def execMgmtBusRecovered (attempts : Nat) (s : State) : Outcome State Fault Refusal :=
  .next (if s.wardenRuns then s.powerEvent 0x0A0E 0 attempts else s)

/-- The PLL of a domain of R546 is one of a die. DEDUCED (log entry 113). -/
def pllOf (domain die : Nat) : Bool :=
  match domain with
  | 1 => decide (die < 0x13)
  | 2 => decide (die < 8)
  | 3 => decide (0x10 ≤ die) && decide (die < 0x12)
  | 4 => decide (8 ≤ die) && decide (die < 0x0C)
  | 5 => decide (die < 0x13)
  | _ => false

/-- PLL_UNLOCK (R548). The power-domain index in the detail is that of the region; for another die's PLL no rule says
which it is. DEDUCED (log entry 113). -/
def execPllUnlock (domain die region : Nat) (s : State) : Outcome State Fault Refusal :=
  .next (
    if domain = 0 then
      if region ≥ 16 || !s.dieUp (region / 2) || !s.railsUp then s
      else (s.post (powerEv 0x0A0F 1 domain (region / 2) (24 + region % 2))).regionReset region
    else if domain = 8 then
      if s.power.standbyOff then s else (s.post (powerEv 0x0A0F 1 domain 0x13 0)).coldReset
    else if !pllOf domain die || !s.dieUp die || !s.railsUp then s
    else (s.post (powerEv 0x0A0F 1 domain die (Config.freeNat s.freeCtr))).tick.dieReset die)

/-! ### Limits (R514, R540) -/

/-- MGMT_POWER_LIMIT: refused while the pair restarts, and in safe mode (R442, R443). DEDUCED (log entry 114). -/
def execMgmtPowerLimit (watts : Nat) (s : State) : Outcome State Fault Refusal :=
  .next (
    if !s.wardenRuns then s
    else if s.dep.safeMode then (s.refuse .mgmt (Config.freeNat s.freeCtr)).tick
    else s.setPower { s.power with mgmt := clampLimit watts })

/-- PWR_HOST_LIMIT written (R513): while the pair restarts the write waits. DEDUCED (log entry 114). -/
def State.hostLimit (s : State) (w : Nat) : State :=
  let w := clampLimit (w % 65536)
  s.setPower (if s.ev.halted then { s.power with hostWaits := some w } else { s.power with host := w })

/-- PWR_HOST_LIMIT_WRITE. -/
def execPwrHostLimitWrite (v : Lane) (s : State) : Outcome State Fault Refusal :=
  .next (if s.serves 0 then s.hostLimit v.toNat else s)

end Sys2Proof.Machine
end

