-- ==== Sys2Proof/Machine/Security.lean ====
section
/-!
DEFINITION. The root of trust (chapter 18): the security requests with the port-authority table, slots and activation,
the rollback counter, attestation, debug unlocks, JTAG and decommissioning, and PF0's mailbox (R515).
-/
namespace Sys2Proof.Machine
open Host

def State.setSec (s : State) (v : Security) : State := { s with sec := v }

/-! ### Requests and their answers (R515, R525, R531) -/

/-- A request is answered on its port. -/
def State.reply (s : State) (p : Port) (result : Nat) (rsp : List Byte) : State :=
  s.setSec { s.sec with answers := mapSet {} s.sec.answers (portNum p) { result := result, rsp := rsp } }

/-- The opcodes of R525. -/
def secOpcodes : List Nat := [0x01, 0x02, 0x03, 0x04, 0x10, 0x11, 0x12, 0x20, 0x21, 0x30]

/-- Status reads, certificates, attestation and PORT_STATS. -/
def statusOp (op : Nat) : Bool := decide (op ≤ 4)

/-- The port-authority table for the security requests (R531), with what safe mode (R443) and the recovery ROM (R524)
leave of it on the management port. -/
def State.permits (s : State) (p : Port) (op : Nat) : Bool :=
  match p with
  | .pf0 => statusOp op
  | .vf _ => false
  | .levee _ => false
  | .mgmt => (!s.dep.safeMode || statusOp op || decide (op = 0x11))
      && (!s.boot.recovery || statusOp op || decide (op = 0x10) || decide (op = 0x11))
  | .jtag => statusOp op && (match s.sec.unlock with | some u => u.mask.testBit 0x12 | none => false)

/-- Request bytes of the mailbox as written. -/
def State.secReq (s : State) : List Byte := mapSlice 0 s.sec.req 0 s.sec.reqLen

/-- A request reaches the hub on its port: the hub runs; the management port's warden is not restarting; PF0's mailbox is
free, or holds this very request. A denied request need not match byte for byte. -/
def State.reachesHub (s : State) (p : Port) (op : Nat) (body : List Byte) : Bool :=
  s.hub.running && (match p with
    | .pf0 => s.fnOpen 0 && (!s.sec.busy || (decide (s.sec.opcode = op) && (!statusOp op || decide (s.secReq = body))))
    | .mgmt => s.wardenRuns
    | _ => true)

/-- A request through the mailbox stands in its registers. -/
def State.latch (s : State) (p : Port) (op : Nat) (body : List Byte) : State :=
  match p with
  | .pf0 => s.setSec { s.sec with opcode := op, reqLen := body.length, req := mapPut 0 s.sec.req 0 body, busy := false }
  | _ => s

/-- A security request: outside the table it is counted and answered with 0x01. DEDUCED (log entry 102). -/
def State.secRequest (s : State) (p : Port) (op : Nat) (body : List Byte) (act : State → State) : State :=
  if !s.reachesHub p op body then s
  else if s.permits p op then act (s.latch p op body)
  else ((s.latch p op body).refuse p op).reply p 0x01 []

/-! ### Certificates and attestation (R521, R525, R529, R530) -/

def State.fitted (s : State) : List Nat := (List.range 20).filter s.variant.fits

/-- GET_CERTS. DESIGN CHOICE (log entry 116). -/
def execGetCerts (port : Port) (s : State) : Outcome State Fault Refusal :=
  .next (s.secRequest port 0x01 [] (fun s =>
    let certs := (1 :: s.fitted.map (· + 2)).map Config.certificate
    s.reply port 0 (certs.flatMap (fun c => toBytes 2 c.length ++ c))))

/-- The entry of a die in the report. -/
def State.dieEntry (s : State) (d : Nat) : List Byte :=
  if !s.variant.fits d then toBytes 1 d ++ toBytes 79 0
  else
    let i := s.running d
    toBytes 1 d ++ toBytes 1 (s.dieStatus d / 2 ^ 30) ++ toBytes 1 i.type ++ toBytes 1 0 ++ toBytes 4 i.version
      ++ toBytes 4 i.svn ++ toBytes 4 0 ++ padTo 0 64 i.measurement

/-- The attestation report (R529): a decommissioned module answers with the final one. -/
def State.report (s : State) (nonce : List Byte) : List Byte :=
  if s.sec.killed then s.sec.report
  else
    let level := match s.sec.unlock with | some u => u.level % 4 | none => 0
    let head := toBytes 4 0x54414252 ++ toBytes 2 1 ++ toBytes 2 1778 ++ padTo 0 32 nonce ++ toBytes 8 Config.serial
      ++ toBytes 8 s.time ++ toBytes 1 s.sec.counter ++ toBytes 1 (bit s.sec.activeB 0)
      ++ toBytes 1 (level + bit s.dep.safeMode 2 + bit s.dep.update.isSome 3 + bit s.boot.recovery 4) ++ toBytes 1 20
      ++ toBytes 4 0
    let body := head ++ (List.range 20).flatMap s.dieEntry
    body ++ padTo 0 114 (Config.sign 0x12 body)

/-- ATTEST. -/
def execAttest (port : Port) (nonce : List Byte) (s : State) : Outcome State Fault Refusal :=
  .next (s.secRequest port 0x02 nonce (fun s =>
    if nonce.length ≠ 32 then s.reply port 0x02 [] else s.reply port 0 (s.report nonce)))

/-- Where SPDM answers stand beside those of the security requests. -/
def spdmPort (p : Port) : Nat := 128 + portNum p

/-- SPDM_REQUEST: over the DOE mailbox of PF0, or on the management port (R464, R530). -/
def execSpdmRequest (port : Port) (req : SpdmReq) (s : State) : Outcome State Fault Refusal :=
  .next (
    let put (s : State) (result : Nat) (rsp : List Byte) : State :=
      s.setSec { s.sec with answers := mapSet {} s.sec.answers (spdmPort port) { result := result, rsp := rsp } }
    let open_ := match port with
      | .pf0 => !s.host.retry
      | .mgmt => s.wardenRuns
      | _ => false
    if !s.hub.running then s
    else if !open_ then
      match port with
      | .pf0 => s
      | .mgmt => s
      | p => (s.refuse p (Config.freeNat s.freeCtr)).tick
    else match req with
      | .certificate => put s 0 (([0, 1, 2 + 0x12].map Config.certificate).flatten)
      | .measurement i nonce =>
        if i = 0x30 then put s 0 (s.report nonce)
        else if 1 ≤ i && i ≤ 20 then
          put s 0 (if s.variant.fits (i - 1) then padTo 0 64 (s.running (i - 1)).measurement else toBytes 64 0)
        else put s 0x02 [])

/-! ### Slots and the rollback counter (R525 to R528) -/

def ImgSlot.status (s : State) (v : ImgSlot) : List Byte :=
  toBytes 1 (bit (!v.writing && (s.setFails v).isNone) 0) ++ toBytes 1 v.svn
    ++ (List.range 6).flatMap (fun t => toBytes 4 (imgVersion (v.header t)))

/-- SLOT_STATUS. -/
def execSlotStatus (port : Port) (s : State) : Outcome State Fault Refusal :=
  .next (s.secRequest port 0x03 [] (fun s =>
    s.reply port 0 (s.sec.slotA.status s ++ s.sec.slotB.status s ++ toBytes 1 (bit s.sec.activeB 0)
      ++ toBytes 1 s.sec.counter)))

/-- The ports of R534 in its order, by their numbers among the counters. DESIGN CHOICE (log entry 116). -/
def statPorts : List Nat := List.range 16 ++ [16] ++ (List.range 64).map (· + 32) ++ [17]

/-- PORT_STATS: read and cleared. DESIGN CHOICE (log entry 116). -/
def execPortStats (port : Port) (s : State) : Outcome State Fault Refusal :=
  .next (s.secRequest port 0x04 [] (fun s =>
    { s.reply port 0 (statPorts.flatMap (fun n => toBytes 4 (mapGet 0 s.refusals n))) with refusals := [] }))

def State.setSlotB (s : State) (b : Bool) (v : ImgSlot) : State :=
  s.setSec (if b then { s.sec with slotB := v } else { s.sec with slotA := v })

def slotWriteBody (slotB : Bool) (offset : Nat) (data : List Byte) : List Byte :=
  toBytes 8 (bit slotB 0) ++ toBytes 8 offset ++ data

/-- SLOT_WRITE (R526). -/
def execSlotWrite (port : Port) (slotB : Bool) (offset : Nat) (data : List Byte) (s : State) :
    Outcome State Fault Refusal :=
  .next (s.secRequest port 0x10 (slotWriteBody slotB offset data) (fun s =>
    if data.length > 4080 then s.reply port 0x02 []
    else if slotB = s.sec.activeB then s.reply port 0x06 []
    else
      let v := s.imgSlot slotB
      (s.setSlotB slotB { bytes := mapPut 0 v.bytes offset data, writing := true }).reply port 0 []))

/-- ACTIVATE (R444 step 1, R527). A decommissioned module accepts none; with which result, no rule says. Where no
lantern runs, in the recovery ROM, a live activation is recorded at once (a choice of the model).
DESIGN CHOICE (log entry 116). -/
def execActivate (port : Port) (slotB live : Bool) (updateWait : Nat) (s : State) : Outcome State Fault Refusal :=
  .next (s.secRequest port 0x11 (toBytes 1 (bit slotB 0 + bit live 1) ++ toBytes 4 updateWait) (fun s =>
    let v := s.imgSlot slotB
    if s.sec.killed then (s.reply port (1 + Config.freeNat s.freeCtr % 255) []).tick
    else if s.dep.update.isSome then s.reply port 0x06 []
    else match s.setFails v with
      | some (_, c) => s.reply port (if c = 4 then 0x05 else 0x04) []
      | none =>
        let s := s.setSlotB slotB { v with writing := false }
        if live && !s.boot.recovery then
          if !s.interoperable v then s.reply port 0x04 []
          else
            let s := s.setDep { s.dep with update := some {
              slotB := slotB, wait := if updateWait = 0 then 600 else updateWait, since := s.time } }
            ({ s with hub := { s.hub with updateActive := true } } : State).reply port 0 []
        else (s.activated slotB).reply port 0 []))

/-- SVN_COMMIT (R528). DESIGN CHOICE (log entry 116). -/
def execSvnCommit (port : Port) (s : State) : Outcome State Fault Refusal :=
  .next (s.secRequest port 0x12 [] (fun s =>
    if s.dep.update.isSome then s.reply port 0x06 []
    else
      let svn := (s.imgSlot s.sec.activeB).svn
      let n := max s.sec.counter (min svn 64)
      let s := s.setSec { s.sec with counter := n }
      let s := s.secEvent 0x0904 0 (portDetail port + secDetail 0 0 0 n)
      let s := if n < svn then s.secEvent 0x0905 1 (portDetail port + secDetail 0 0 0 svn) else s
      s.reply port 0 (toBytes 1 n)))

/-! ### Debug (R531 to R533) -/

/-- DEBUG_CHALLENGE: the serial, and sixteen bytes that no one can foresee. -/
def execDebugChallenge (port : Port) (s : State) : Outcome State Fault Refusal :=
  .next (s.secRequest port 0x20 [] (fun s =>
    let c := (List.range 16).map (fun i => Config.freeByte (s.freeCtr + i))
    let s := { s with freeCtr := s.freeCtr + 16 }
    (s.setSec { s.sec with challenge := some (c, s.time) }).reply port 0 (toBytes 8 Config.serial ++ c)))

def tkLevel (t : List Byte) : Nat := recField t 28 1
def tkForce (t : List Byte) : Bool := (recField t 29 1).testBit 0
def tkMask (t : List Byte) : Nat := recField t 32 4
def tkLife (t : List Byte) : Nat := recField t 36 4

/-- A token that R532 rejects. DESIGN CHOICE (log entry 117). -/
def State.tokenBad (s : State) (t : List Byte) : Bool :=
  decide (recField t 4 8 ≠ Config.serial)
    || (match s.sec.challenge with
      | some (c, since) => decide ((t.drop 12).take 16 ≠ c) || decide (s.time ≥ since + 600 * second)
      | none => true)
    || !Config.debugSigned (t.take 40) ((t.drop 40).take 114)
    || decide (recField t 0 4 ≠ 0x4B544244) || !(tkLevel t = 1 || tkLevel t = 2) || decide (recField t 29 1 ≥ 2)
    || decide (recField t 30 2 ≠ 0) || decide (tkLife t = 0)

def State.contextsExist (s : State) : Bool := s.jobs.any (fun e => e.2.live)

/-- Every job that runs begins to suspend. -/
def State.suspendAll (s : State) : State :=
  s.jobs.foldl (fun s e => if e.2.live && decide (e.2.state = 0) && !e.2.faulted then s.suspendJob e.1 [] else s) s

/-- DEBUG_UNLOCK (R532, R533). How the failed checks are numbered in the event, no rule says.
DESIGN CHOICE (log entry 117). -/
def execDebugUnlock (port : Port) (token : List Byte) (s : State) : Outcome State Fault Refusal :=
  .next (s.secRequest port 0x21 token (fun s =>
    if token.length ≠ 154 then s.reply port 0x02 []
    else if s.tokenBad token then
      ((s.secEvent 0x0908 1 (portDetail port + Config.freeNat s.freeCtr % 2 ^ 32)).tick).reply port 0x08 []
    else if tkLevel token = 2 && s.contextsExist && !tkForce token then s.reply port 0x07 []
    else
      let s := if tkLevel token = 2 && tkForce token then s.suspendAll else s
      let u : Unlock := { level := tkLevel token, mask := tkMask token, lifetime := tkLife token }
      let s := s.setSec { s.sec with unlock := some u, challenge := none }
      (s.secEvent 0x0907 1 (portDetail port + secDetail 0 0 1 u.level)).reply port 0 []))

/-- DEBUG_UNLOCK_EXPIRY: the lifetime of the unlock has passed. -/
def execDebugUnlockExpiry (s : State) : Outcome State Fault Refusal :=
  .next (match s.sec.unlock with
    | none => s
    | some u =>
      (s.setSec { s.sec with unlock := none, halted := [] }).secEvent 0x0907 1
        (portDetail .jtag + secDetail 0 0 2 u.level))

def jtagLevel : JtagKind → Nat
  | .readReg => 1
  | .halt => 2
  | .scan => 2
  | .memRead => 2
  | .memWrite => 2

/-- A JTAG memory access acts as the hub's own (R531). DESIGN CHOICE (log entry 117). -/
def State.jtagMem (s : State) (a : Nat) (data : Option Word) : State :=
  match s.checkRange hubWho data.isSome a 8 with
  | some _ => (s.reply .jtag (1 + Config.freeNat s.freeCtr % 255) []).tick
  | none => match data with
    | some w => (s.write 0 a (toBytes 8 w.toNat)).reply .jtag 0 []
    | none => s.reply .jtag 0 (s.memBytes a 8)

/-- JTAG_ACCESS: within the level and the dies of the unlock in force. What a scan chain holds and what a halted die
does not do, no rule says. DESIGN CHOICE (log entry 117). -/
def execJtagAccess (die : Nat) (kind : JtagKind) (addr : Word) (data : Option Word) (s : State) :
    Outcome State Fault Refusal :=
  .next (
    let scope := match s.sec.unlock with
      | some u => decide (die < 20) && u.mask.testBit die && decide (u.level ≥ jtagLevel kind)
      | none => false
    if !s.hub.running then s
    else if !scope then ((s.refuse .jtag (Config.freeNat s.freeCtr)).tick).reply .jtag 0x01 []
    else match kind with
      | .readReg => s.reply .jtag 0 (toBytes 4 (s.spaceWord die (addr.toNat % 2 ^ 32 / 4 * 4)))
      | .halt => (s.setSec { s.sec with halted := mapSet false s.sec.halted die true }).reply .jtag 0 []
      | .scan => (s.reply .jtag 0 (toBytes 8 (Config.freeWord s.freeCtr).toNat)).tick
      | .memRead => s.jtagMem (addr.toNat % 2 ^ 52) none
      | .memWrite => s.jtagMem (addr.toNat % 2 ^ 52) (some (data.getD 0)))

/-! ### Decommissioning (R535) -/

/-- Steps 1 to 5, once no context is left. DEDUCED (log entry 118). -/
def State.decommission (s : State) : State :=
  let final := s.report (List.replicate 32 0)
  let s := { s with
    mem := { bytes := s.mem.bytes.filter (fun e => decide (e.1 ≥ hostBase)) }
    objs := [], codes := [], sets := [], sems := [], sluices := [], media := { s.media with cache := [] }
    hub := { s.hub with phase := 3, jobOpen := false, updateActive := false }
    boot := { s.boot with done := s.boot.done % 8, recovery := true }
    ev := { s.ev with journal := [], journalLost := [], journalWait := [] }
    dep := { s.dep with update := none, refreshLog := [] }
    sec := { s.sec with slotA := {}, slotB := {}, killed := true, report := final } }
  s.secEvent 0x0909 3 (portDetail .mgmt)

/-- DECOMMISSION. -/
def execDecommission (port : Port) (force : Bool) (s : State) : Outcome State Fault Refusal :=
  .next (s.secRequest port 0x30 (toBytes 1 (bit force 0)) (fun s =>
    if s.contextsExist && !force then s.reply port 0x07 []
    else
      let s := s.jobs.foldl (fun s e => if e.2.live then s.cancelJob e.1 else s) s
      s.decommission.reply port 0 []))

end Sys2Proof.Machine
end

