-- ==== Sys2Proof/Machine/Startup.lean ====
section
/-!
DEFINITION. Start-up (R494, R524, R551, R554, R555): the phases P0 to P7.
-/
namespace Sys2Proof.Machine
open Host

/-- HUB_STATUS.phase: how many phases from P0 on have completed (R551). -/
def phaseOf (done : Nat) : Nat := ((List.range 8).takeWhile done.testBit).length

/-- A phase completes. -/
def State.complete_ (s : State) (n : Nat) : State :=
  let done := s.boot.done ||| 2 ^ n
  { s with boot := { s.boot with done := done }, hub := { s.hub with phase := min 7 (phaseOf done) } }

def State.phaseDone (s : State) (n : Nat) : Bool := s.boot.done.testBit n

/-- Start-up goes on: it runs no recovery ROM and did not stop at its memories. -/
def State.starting (s : State) : Bool := s.hub.running && !s.boot.recovery && !s.boot.stopped && s.railsUp

/-! ### P0 and P1 -/

/-- An image's bytes taken apart: its header and its body. -/
def imgParts (b : List Byte) : List Byte × List Byte := (padTo 0 256 (b.take 256), (b.drop 256).take (imgBody (b.take 256)))

def imgOfHeader (h : List Byte) (t : Nat) : DieImage :=
  { type := t, version := imgVersion h, svn := imgSvn h, measurement := imgMeasure h }

/-- An image of a slot as the warden stores it. -/
def ImgSlot.whole (v : ImgSlot) (t : Nat) : List Byte := v.header t ++ v.body t

/-- WARDEN_START: phase P0, after a cold reset or on the return of standby. A warden image that is not valid is
replaced by that of the active slot; without a valid one the phase does not complete (R524). DEDUCED (log entry 118). -/
def execWardenStart (s : State) : Outcome State Fault Refusal :=
  .next (
    let s := if s.power.standbyOff then s.coldReset else s
    if s.phaseDone 0 then s
    else
      let own := imgParts s.sec.warden
      let slot := s.imgSlot s.sec.activeB
      let s := if (s.imgFails own.1 own.2).isNone then s else s.setSec { s.sec with warden := slot.whole 0 }
      let run := imgParts s.sec.warden
      if (s.imgFails run.1 run.2).isNone then (s.setRunning 0x13 (imgOfHeader run.1 0)).complete_ 0 else s)

/-- RAIL_SEQUENCE: phase P1, once the 54 V input has been in range for 100 ms. -/
def execRailSequence (s : State) : Outcome State Fault Refusal :=
  .next (
    if !s.wardenRuns || s.phaseDone 1 || s.power.mainOff || s.power.reversed then s else s.complete_ 1)

/-! ### P2 -/

/-- The hub starts from a slot: the lanterns are loaded, and every fitted die reports its measurement. After a warm reset
the warden takes the slot's image too (R527). -/
def State.bootFrom (s : State) (b : Bool) : State :=
  let v := s.imgSlot b
  let s := s.fitted.foldl (fun s d => if d = 0x13 then s else s.setRunning d (v.image (dieType d))) s
  let s := if s.boot.warm then (s.setSec { s.sec with warden := v.whole 0 }).setRunning 0x13 (v.image 0) else s
  { s with hub := { s.hub with running := true } }

/-- A slot holds a set that boots. -/
def State.slotValid (s : State) (b : Bool) : Bool := !(s.imgSlot b).writing && (s.setFails (s.imgSlot b)).isNone

/-- The recovery ROM runs. DEDUCED (log entry 118). -/
def State.recoveryRom (s : State) : State :=
  { s with boot := { s.boot with recovery := true }, hub := { s.hub with running := true } }

/-- SLOT_VERIFY: phase P2. The events that the warden held are numbered as the hub starts (R453).
DEDUCED (log entry 118). -/
def execSlotVerify (s : State) : Outcome State Fault Refusal :=
  .next (
    if !s.wardenRuns || !s.railsUp || s.phaseDone 2 then s
    else
      let a := s.sec.activeB
      let s :=
        if s.sec.killed then s.recoveryRom
        else if s.slotValid a then s.bootFrom a
        else
          let f := (s.setFails (s.imgSlot a)).getD (0, 1)
          let s := s.secEvent 0x0901 2 (secDetail f.1 (bit a 0) 0 f.2)
          if s.slotValid (!a) then
            let s := s.setSec { s.sec with activeB := !a }
            let s := (s.secEvent 0x0902 1 (secDetail 0 (bit a 0) 0 (bit (!a) 0))).bootFrom (!a)
            { s with boot := { s.boot with fallback := true } }
          else s.recoveryRom
      s.numberEarly.complete_ 2)

/-! ### P3 -/

/-- CXL_READY: phase P3. The recovery ROM reaches readiness too, and the phase shown stays 3 (R524). -/
def execCxlReady (cxlMode : Bool) (width speed : Nat) (s : State) : Outcome State Fault Refusal :=
  .next (
    if !s.hub.running || s.host.perst || !s.host.retry || !s.railsUp then s
    else
      let s := s.setHost { s.host with retry := false, cxlMode := cxlMode, width := width, speed := speed }
      if s.boot.recovery then s else s.complete_ 3)

/-! ### P4 -/

/-- The home table restored after a warm reset (R302). -/
def State.restoreHomes (s : State) : State :=
  let moving := s.mem.home.filter (fun e => decide (e.2.state = 3))
  let slices := (moving.map (fun e => e.2.destSlicesM1 + 1)).sum + (s.mem.orphans.map (·.2.2)).sum
  let s := moving.foldl (fun s e => s.setHome e.1 { e.2 with state := 2, destTier := 0, destSlice := 0, destSlicesM1 := 0 }) s
  let s := { s with mem := { s.mem with orphans := [] } }
  s.post { code := 0x0324, sev := 0, die := 0x12, cls := 7, detail := moving.length % 2 ^ 32 * 2 ^ 32 + slices % 2 ^ 32 }

/-- A refresh that a warm reset found after its begin record and before its commit is abandoned (R224): the record
gives the address of its control block. DEDUCED (log entry 119). -/
def State.restoreRefresh (s : State) (r : RefreshRec) : State :=
  let old := (r.epoch + 2 ^ 32 - 1) % 2 ^ 32
  let (flipped, stages, s) :=
    match s.readDesc r.rcb 64 with
    | none => (0, 0, s)
    | some h =>
      match s.readDesc r.rcb (64 + 32 * rcStages h) with
      | none => (0, 0, s)
      | some b =>
        let w := weightsOf r.rcb b
        let s := w.entries.foldl (fun (s : State) (e : RefreshEntry) => match s.readDesc e.word 8 with
          | some x => if recField x 4 4 = r.epoch then s.putEpoch e.word old else s
          | none => s) s
        (recField h 14 2, w.entries.length, s.putRcb w old 0 0)
  (s.refreshRecord { r with type := 3, time := s.time }).refreshEvent r.ctx 0x0311 1 r.epoch flipped stages

/-- The DDR tier has a capacity: the tier exists, both its dies serve, and every channel is trained. -/
def State.ddrTrains (s : State) : Bool :=
  s.variant != .tbx20d && s.dieUp 0x10 && s.dieUp 0x11 && s.power.fuses.isEmpty && s.power.trainFailed.isEmpty
    && decide (s.ddrBytes ≠ 0)

/-- MEMORY_TRAIN: phase P4 (R551, R554). -/
def execMemoryTrain (res : TrainResult) (s : State) : Outcome State Fault Refusal :=
  .next (
    if !s.starting || !s.phaseDone 2 || s.phaseDone 4 then s
    else if res.badStacks.any (fun n => decide (n < 16)) then
      let s := (res.badStacks.filter (fun n => decide (n < 16))).foldl (fun s n =>
        s.post (powerEv 0x0A10 3 n (n / 2) 0)) s
      { s with boot := { s.boot with stopped := true } }
    else
      let s := if s.boot.warm then
          let s := s.restoreHomes
          (openRefreshes s.dep.refreshLog).foldl State.restoreRefresh s
        else s
      let bad := res.badChannels.filter (fun j => decide (j < 8) && s.variant != .tbx20d)
      let s := s.setPower { s.power with trainFailed := bad }
      let s := bad.foldl (fun s j => s.post (powerEv 0x0A11 2 j (0x10 + j / 4) j)) s
      let s := s.setHost { s.host with active1 := true }
      let s := if s.ddrTrains then s.setHost { s.host with active2 := true } else { s with ddrBytes := 0 }
      s.complete_ 4)

/-! ### P5, P6, P7 -/

/-- A core's start-up test (R433, R554). DEDUCED (log entry 107). -/
def State.startCore (s : State) (c : Nat) (pass : Bool) : State :=
  let s := if pass then s else s.fenceCore c 3
  let k := s.core c
  let v := { k.health with underTest := false, lastTest := if pass then 1 else 2 }
  s.setCore c { k with health :=
    if pass then { v with testedSinceFence := v.fenced } else { v with fenceReason := 3, testedSinceFence := false } }

/-- STARTUP_SELFTEST: phase P5, with the cores and the dies that fail. DEDUCED (log entry 107). -/
def execStartupSelftest (badCores badDies : List Nat) (s : State) : Outcome State Fault Refusal :=
  .next (
    if !s.starting || !s.phaseDone 4 || s.phaseDone 5 then s
    else
      let s := (List.range 192).foldl (fun s c =>
        s.startCore c (!badCores.contains c && !badDies.contains (c / 24))) s
      let out := badDies.filter (fun d => decide (8 ≤ d) && decide (d < 0x12) && s.variant.fits d)
      (out.foldl State.dieOut s).complete_ 5)

/-- STARTUP_LINK_TRAIN: phase P6. A cabled link that trains and is not up by its bound is at fault; one that waits for
a package ID, or has no cable, keeps its state. DEDUCED (log entry 119). -/
def execStartupLinkTrain (s : State) : Outcome State Fault Refusal :=
  .next (
    if !s.starting || !s.phaseDone 2 || s.phaseDone 6 then s
    else
      let s := s.levee.links.foldl (fun s e =>
        if s.linkFitted e.1 && e.2.enable && e.2.cable && (e.2.state = 1 || e.2.state = 2) then
          s.setLink e.1 { e.2 with state := 6 } else s) s
      s.complete_ 6)

/-- The eight sockets hold unequal capacities (R288, R512). -/
def Power.mismatch (p : Power) : Bool := p.dimms.any (fun g => decide (g ≠ p.dimms.headD 0))

/-- A DDR channel is trained and in use (R512). -/
def State.channelOk (s : State) (j : Nat) : Bool :=
  s.variant != .tbx20d && s.phaseDone 4 && s.dieUp (0x10 + j / 4) && !s.power.fuses.contains j
    && !s.power.trainFailed.contains j && decide (s.power.dimms.getD j 0 ≠ 0)

def State.openCores (s : State) : Nat := ((List.range 192).filter (fun c => !(s.core c).health.fenced)).length

/-- The start-up record (R555). -/
def State.startRecord (s : State) : Nat :=
  let channels := ((List.range 8).map (fun j => bit (s.channelOk j) j)).sum
  let links := ((List.range 64).filter (fun j => decide ((s.link j).state = 4))).length
  let out := ((List.range 20).filter (fun d => s.variant.fits d && (s.die d).out)).length
  bit s.boot.warm 63 + bit (s.variant != .tbx20d && s.power.mismatch) 62 + bit s.boot.fallback 61 + bit s.dep.safeMode 60
    + s.openCores * 2 ^ 52 + channels * 2 ^ 44 + links % 128 * 2 ^ 37 + out % 32 * 2 ^ 32
    + (s.time - s.boot.since) / 1100000 % 2 ^ 32

/-- JOB_MANAGER_OPEN: phase P7. -/
def execJobManagerOpen (s : State) : Outcome State Fault Refusal :=
  .next (
    if !s.starting || phaseOf s.boot.done ≠ 7 then s
    else
      let s := { s with hub := { s.hub with jobOpen := true } }
      (s.complete_ 7).post { code := 0x0A12, sev := 0, die := 0x12, cls := 7, detail := s.startRecord })

end Sys2Proof.Machine
end

