-- ==== Sys2Proof/Machine/Regs.lean ====
section
/-!
DEFINITION. BAR0 (R466, R467, R498 to R518): what each register reads, what a write of it does, and the commands that
reach registers: REGISTER_WRITE, RC_REGISTER_READ, HUB_TIME_LO_READ and HUB_STACK_SPLIT_WRITE.
-/
namespace Sys2Proof.Machine
open Host

/-! ### Pins of the module (R565) -/

/-- The warden's I3C address, from the straps. DESIGN CHOICE (log entry 5). -/
def State.i3cAddress (s : State) : Nat := 0x30 + s.power.straps % 4

/-- STATUS_LED# is driven low. -/
def State.statusLed (s : State) : Bool := decide (s.hub.phase = 7)

/-- FAULT_LED# is driven low. No rule gives a way to acknowledge an event, so a critical one in the journal lights it.
DEDUCED (log entry 6). -/
def State.faultLed (s : State) : Bool := s.dep.safeMode || s.ev.journal.any (fun e => decide (e.sev = 3))

/-! ### What registers read -/

/-- The timestamp that HUB_TIME_HI shows: the latched high word, else the current one (R500). DEDUCED (log entry 120). -/
def State.timeHi (s : State) (fn : Nat) : Nat :=
  match mapGet none s.host.timeLatch fn with
  | some x => x
  | none => s.time / 2 ^ 32 % 2 ^ 32

/-- HUB_CAPS0 (R1). -/
def Variant.caps0 : Variant → Nat
  | .tbx20 => 0xFFFFC000
  | .tbx20c => 0xFF0FC001
  | .tbx20l => 0xFFF3C002
  | .tbx20d => 0xFFFF0003

/-- HUB_CAPS1 (R505): the fitted DDR total once training has given the tier its capacity. PRESUMED (log entry 74). -/
def State.caps1 (s : State) : Nat :=
  let least := s.power.dimms.foldl min (s.power.dimms.headD 0)
  let gb := if s.variant = .tbx20d || !s.phaseDone 4 || s.ddrBytes = 0 then 0 else 8 * least % 4096
  gb * 2 ^ 20 + (if s.variant = .tbx20l then 32 else 64) * 2 ^ 13 + s.openCores % 256 * 2 ^ 5

/-- HUB_STATUS (R506). -/
def State.hubStatus (s : State) : Nat :=
  let h := s.hub
  h.phase % 16 * 2 ^ 28 + bit s.dep.safeMode 27 + bit h.updateActive 26 + bit h.partialWrite 3 + bit h.fenceRefused 2
    + bit h.splitRefused 1

/-- HUB_CXL_LINK (R460). -/
def HostIf.linkWord (h : HostIf) : Nat :=
  h.retrains % 65536 * 65536 + bit h.cxlMode 12 + h.speed % 16 * 256 + h.width % 256

/-- The HUB block (R503). -/
def State.hubWord (s : State) (fn off : Nat) : Nat :=
  match off with
  | 0x00 => (0x2B20 + s.variant.code) * 65536 + Config.stepping % 256 * 256 + 0x02
  | 0x04 => (s.running 0x12).version
  | 0x08 => Config.serial % 2 ^ 32
  | 0x0C => Config.serial / 2 ^ 32 % 2 ^ 32
  | 0x10 => s.variant.caps0
  | 0x14 => s.caps1
  | 0x20 => s.hubStatus
  | 0x28 => s.time % 2 ^ 32
  | 0x2C => s.timeHi fn
  | 0x40 => s.hub.dielocal
  | 0x60 => bit s.hub.pkgAssigned 31 + s.hub.pkgId
  | 0x80 => s.hub.vfPolder0
  | 0x84 => s.hub.vfPolder1
  | 0xA0 => s.hub.fenceWindowMin * 65536 + s.hub.fenceThreshold * 256 + bit s.hub.autoTest 0
  | 0xA4 => s.hub.fenceCmd
  | 0xC0 => s.host.bar2
  | 0xC4 => bit s.host.autoFlip 31 + s.host.autoFlips % 65536
  | 0xC8 => s.host.linkWord
  | o => if 0x100 ≤ o && o < 0x150 then s.dieStatus ((o - 0x100) / 4) else 0

/-- The EVENT block (R508). The ring's name follows from R25. -/
def State.eventWord (s : State) (off : Nat) : Nat :=
  let v := s.ev
  match off with
  | 0x00 => v.next
  | 0x04 => v.select
  | 0x08 => bit v.source 31
  | 0x0C => bit v.valid 31 + bit v.skipped 30
  | 0x10 => logFrame * extentBytes
  | 0x14 => 0
  | 0x18 => v.bootSel
  | o => if 0x20 ≤ o && o < 0x40 then v.dataWord ((o - 0x20) / 4) else 0

/-- The MSI-X table and the pending-bit array of a function (R462, R466), for its first `n` vectors.
PRESUMED (log entry 7). -/
def State.msixWord (s : State) (fn n off : Nat) : Nat :=
  if off < 16 * n then
    let x := s.msix fn (off / 16)
    match off % 16 with
    | 0 => x.addr % 2 ^ 32
    | 4 => x.addr / 2 ^ 32 % 2 ^ 32
    | 8 => x.data
    | _ => bit x.masked 0
  else if 0x8000 ≤ off && off < 0x8000 + n / 8 then
    ((List.range 32).map (fun i => bit (s.msix fn (8 * (off - 0x8000) + i)).pending i)).sum
  else 0

/-- A polder page (R319, R383, R384, R388). -/
def State.polderWord (s : State) (p off : Nat) : Nat :=
  match off with
  | 0x00 => (s.polder p).ctrl
  | 0x04 => s.polderStatus p
  | 0x80 => (s.polder p).saltLo
  | 0x84 => (s.polder p).salt / 2 ^ 32 % 16
  | o =>
    if 0x400 ≤ o && o < 0x600 then
      if o % 8 = 0 then s.dikeRate p ((o - 0x400) / 8) else s.dikeBurst p ((o - 0x400) / 8)
    else if 0x800 ≤ o && o < 0x900 then s.dikeWait p ((o - 0x800) / 4)
    else 0

/-- CORE_STATUS (R432). -/
def Core.statusWord (c : Core) (underTest : Bool) : Nat :=
  let h := c.health
  bit h.fenced 31 + bit underTest 30 + h.lastTest % 4 * 2 ^ 28 + h.fenceReason % 16 * 2 ^ 24
    + min h.windowCount 255 * 65536 + ((List.range 4).map (fun k => bit (c.slot k).id.resident k)).sum

/-- The status entry of a core (R510). -/
def State.coreWord (s : State) (c off : Nat) : Nat :=
  let k := s.core c
  if off = 0 then k.statusWord (s.underTest c)
  else if off = 4 then k.health.mismatches % 65536 * 65536 + k.health.sramCorrected % 65536
  else if off = 0x50 then k.tblWord
  else if 0x10 ≤ off && off < 0x50 then
    match off % 16 with
    | 0 => (k.slot ((off - 0x10) / 16)).id.word
    | 4 => (k.slot ((off - 0x10) / 16)).allot.word
    | _ => 0
  else 0

/-- A unit takes work: its die is in service, start-up has tested it, and no test has failed it (R448, R511, R512).
DEDUCED (log entry 123). -/
def State.unitServes (s : State) (d u : Nat) : Bool := s.dieUp d && s.phaseDone 5 && s.unitOk u

/-- The page of a media die (R511). DEDUCED (log entry 123). -/
def State.mediaWord (s : State) (k off : Nat) : Nat :=
  let d := 8 + k
  if !s.variant.fits d then 0
  else if off = 0 then
    bit (s.unitServes d (64 + 2 * k)) 30 + bit (s.unitServes d (65 + 2 * k)) 31
      + ((List.range 64).filter (fun i => decide (s.stream k i ≠ .none_))).length % 128 * 65536
  else if off = 0x10 || off = 0x14 || (0x20 ≤ off && off < 0x30) then mapGet 0 s.rc (mediaReg k off)
  else 0

/-- The page of a tier die (R512). DEDUCED (log entry 123). -/
def State.tierWord (s : State) (k off : Nat) : Nat :=
  let d := 0x10 + k
  if !s.variant.fits d then 0
  else if off = 0 then
    ((List.range 4).map (fun j => bit (s.channelOk (4 * k + j)) (28 + j))).sum
      + ((List.range 4).map (fun i => bit (s.unitServes d (80 + 4 * k + i)) (24 + i))).sum
      + bit s.power.mismatch 23
  else if 0x10 ≤ off && off < 0x20 then
    let j := 4 * k + (off - 0x10) / 4
    s.power.dimms.getD j 0 % 512 * 2 ^ 23 + (if s.channelOk j then 88 else 0) * 65536
      + bit (s.power.fuses.contains j) 15 + bit (s.power.trainFailed.contains j) 14
  else if 0x20 ≤ off && off < 0x30 then min (mapGet 0 s.rc (tierReg k off) / 2 ^ 20) 0xFFFFFFFF
  else if off = 0x30 then mapGet 0 s.rc (tierReg k off)
  else 0

/-- The page of a link (R410, R411). -/
def State.linkWord (s : State) (j off : Nat) : Nat :=
  if !s.variant.fits (linkDie j) then 0
  else match off with
    | 0 => (s.link j).stateWord
    | 4 => (s.link j).ctrlWord
    | 8 => (s.link j).peerWord
    | 12 => (s.link j).errWord
    | _ => 0

/-- The hottest fitted die (R513). DEDUCED (log entry 123). -/
def State.hottest (s : State) : Nat :=
  s.fitted.foldl (fun h d => if s.power.temp d > s.power.temp h then d else h) 0

/-- A signed quantity in 16 bits. -/
def low16 (v : Int) : Nat := (v % 65536).toNat

/-- The POWER block (R513, R514). DEDUCED (log entry 123). -/
def State.powerWord (s : State) (off : Nat) : Nat :=
  let p := s.power
  match off with
  | 0x00 => bit s.ev.halted 31
  | 0x04 => low16 p.volts * 65536 + min p.watts 65535
  | 0x08 => p.mgmt * 65536 + s.limit
  | 0x0C => p.host
  | 0x10 => p.tensor * 100 / 32 * 2 ^ 24 + p.other * 100 / 32 * 65536 + p.throttleMs
  | 0x14 => low16 (p.temp s.hottest) * 65536 + s.hottest
  | 0x18 => (if p.inlet.fault = 0 then low16 p.inlet.value else 0x8000) * 65536
      + (if p.flow.fault = 0 then low16 p.flow.value else 0xFFFF)
  | 0x1C => bit (!p.fuses.isEmpty) 4 + bit (p.flow.fault = 2) 3 + bit (p.flow.fault = 1) 2 + bit (p.inlet.fault = 2) 1
      + bit (p.inlet.fault = 1) 0
  | _ => 0

/-- The SEC block (R515). -/
def State.secWord (s : State) (off : Nat) : Nat :=
  let v := s.sec
  let a : Answer := mapGet {} v.answers (portNum .pf0)
  if off = 0 then bit v.busy 31 + v.opcode % 256 * 65536 + v.reqLen % 65536
  else if off = 4 then bit v.busy 31 + bit v.collision 30 + a.result % 256 * 65536 + a.rsp.length % 65536
  else if 0x1000 ≤ off && off < 0x2000 then ofBytes (mapSlice 0 v.req (off - 0x1000) 4)
  else if 0x4000 ≤ off && off < 0x10000 then recField a.rsp (off - 0x4000) 4
  else 0

/-- Offsets of PF0 whose value no rule gives: the CXL component registers, laid out by the CXL standard (R518), and
PWR_STANDBY, which nothing in the model measures. DEDUCED (log entry 98). -/
def freeReg (off : Nat) : Bool := (decide (0x50000 ≤ off) && decide (off < 0x60000)) || decide (off = 0x600020)

/-- A register of PF0 at an aligned offset (R466); outside the blocks it reads 0. -/
def State.pfWord (s : State) (off : Nat) : Nat :=
  if off < 0x10000 then s.hubWord 0 off
  else if off < 0x20000 then s.eventWord (off - 0x10000)
  else if 0x700000 ≤ off && off < 0x710000 then s.secWord (off - 0x700000)
  else if freeReg off || !s.serves 0 then (Config.freeLane s.freeCtr).toNat
  else if off < 0x40000 then (s.queue ((off - 0x20000) / 32)).word (off % 32 / 4)
  else if off < 0x50000 then s.msixWord 0 2048 (off - 0x40000)
  else if 0x100000 ≤ off && off < 0x110000 then s.polderWord ((off - 0x100000) / 0x1000) (off % 0x1000)
  else if 0x200000 ≤ off && off < 0x20C000 then s.coreWord ((off - 0x200000) / 0x100) (off % 0x100)
  else if 0x300000 ≤ off && off < 0x340000 then s.mediaWord ((off - 0x300000) / 0x10000) (off % 0x10000)
  else if 0x400000 ≤ off && off < 0x420000 then s.tierWord ((off - 0x400000) / 0x10000) (off % 0x10000)
  else if 0x500000 ≤ off && off < 0x510000 then s.linkWord ((off - 0x500000) / 0x400) (off % 0x400)
  else if 0x600000 ≤ off && off < 0x610000 then s.powerWord (off - 0x600000)
  else 0

/-- A register of a VF (R467). DEDUCED (log entry 120). -/
def State.vfRegWord (s : State) (fn off : Nat) : Nat :=
  if off = 0x10 || off = 0xC8 then s.hubWord fn off
  else if !s.serves fn then (Config.freeLane s.freeCtr).toNat
  else if 0x1000 ≤ off && off < 0x2000 then s.polderWord (s.vfPolder fn) (off - 0x1000)
  else if 0x20000 ≤ off && off < 0x22000 then
    match s.queueOf fn ((off - 0x20000) / 32) with
    | some q => (s.queue q).word (off % 32 / 4)
    | none => 0
  else if 0x40000 ≤ off && off < 0x50000 then s.msixWord fn 64 (off - 0x40000)
  else 0

def State.regWord (s : State) (fn off : Nat) : Nat := (if fn = 0 then s.pfWord off else s.vfRegWord fn off) % 2 ^ 32

/-! ### Reads (R498 to R500, R509) -/

/-- What a 32-bit read of a register of PF0 changes: fields that a read clears, the timestamp's latch, the event
selection. A VF's registers are read-only copies. DEDUCED (log entry 120). -/
def State.afterRead (s : State) (fn off : Nat) : State :=
  let h := s.host
  if off = 0x28 && fn = 0 then s.setHost { h with timeLatch := mapSet none h.timeLatch fn (some (s.time / 2 ^ 32 % 2 ^ 32)) }
  else if off = 0x2C && fn = 0 then s.setHost { h with timeLatch := mapSet none h.timeLatch fn none }
  else if fn ≠ 0 then s
  else if off = 0xC4 then s.setHost { h with autoFlips := 0 }
  else if off = 0xC8 then s.setHost { h with retrains := 0 }
  else if off = 0x1003C then s.setEv s.ev.advance
  else if !s.serves 0 then s
  else if 0x100000 ≤ off && off < 0x110000 && decide (0x800 ≤ off % 0x1000) && decide (off % 0x1000 < 0x900) then
    let p := (off - 0x100000) / 0x1000
    let i := (off % 0x1000 - 0x800) / 4
    if s.dikeThere i then s.setDike p i { s.dike p i with waitUs := 0 } else s
  else if 0x200000 ≤ off && off < 0x20C000 && off % 0x100 = 4 then
    let c := (off - 0x200000) / 0x100
    let k := s.core c
    s.setCore c { k with health := { k.health with mismatches := 0, sramCorrected := 0 } }
  else if 0x400000 ≤ off && off < 0x420000 && decide (0x20 ≤ off % 0x10000) && decide (off % 0x10000 < 0x30) then
    { s with rc := mapSet 0 s.rc off (mapGet 0 s.rc off % 2 ^ 20) }
  else if 0x300000 ≤ off && off < 0x420000 then { s with rc := mapSet 0 s.rc off 0 }
  else if 0x500000 ≤ off && off < 0x510000 && off % 0x400 = 12 then
    let j := (off - 0x500000) / 0x400
    s.setLink j { s.link j with replays := 0, uncorrectable := 0 }
  else if off = 0x600010 then s.setPower { s.power with throttleMs := 0 }
  else s

/-- A 32-bit read: the register's value, and the state that it leaves. -/
def State.readWord (s : State) (fn off : Nat) : State × Nat := ((s.afterRead fn off).tick, s.regWord fn off)

/-- A read of BAR0 (R498, R499): 64 bits are two 32-bit reads, the lower address first; a narrow aligned read returns
its bytes and clears nothing; a misaligned one returns 0. DEDUCED (log entry 120). -/
def State.readReg (s : State) (fn off width : Nat) : State :=
  if !s.fnOpen fn then s
  else if width = 4 && off % 4 = 0 then
    let (s', x) := s.readWord fn off
    s'.answerReg x
  else if width = 8 && off % 8 = 0 then
    let (s1, x) := s.readWord fn off
    let (s2, y) := s1.readWord fn (off + 4)
    s2.answerReg (x + 2 ^ 32 * y)
  else if (width = 1 || width = 2) && off % width = 0 then
    s.answerReg (s.regWord fn (off / 4 * 4) / 2 ^ (8 * (off % 4)) % 2 ^ (8 * width))
  else s.answerReg 0

/-- RC_REGISTER_READ (R499). DEDUCED (log entry 120). -/
def execRcRegisterRead (fn offset width : Nat) (s : State) : Outcome State Fault Refusal :=
  .next (s.readReg fn offset width)

/-- HUB_TIME_LO_READ (R500): every read of the register latches the high word, a narrow one too. -/
def execHubTimeLoRead (fn width : Nat) (s : State) : Outcome State Fault Refusal :=
  .next (
    let r := s.readReg fn 0x28 width
    if (width = 1 || width = 2) && s.fnOpen fn then r.afterRead fn 0x28 else r)

/-! ### Writes (R498, R499, R503, R516) -/

/-- Some object has a stack home; the semaphore table of a live context is such an object (R24, R25).
DEDUCED (log entry 122). -/
def State.stackHomes (s : State) : Bool :=
  s.mem.home.any (fun e => decide (e.2.state ≠ 0) && (decide (e.2.tier = 0) || (decide (e.2.state = 3) && decide (e.2.destTier = 0))))
    || s.jobs.any (fun e => e.2.live)

/-- HUB_STACK_SPLIT written (R22, R24). The names of the hub's own structures do not move with it (R25). -/
def State.stackSplitWrite (s : State) (w : Nat) : State :=
  let d := w % 256
  if d > 128 || s.stackHomes then { s with hub := { s.hub with splitRefused := true } }
  else { s with hub := { s.hub with dielocal := d } }

/-- HUB_STACK_SPLIT_WRITE. -/
def execHubStackSplitWrite (v : Lane) (s : State) : Outcome State Fault Refusal :=
  .next (if s.fnOpen 0 then s.stackSplitWrite v.toNat else s)

/-- The HUB block written by PF0. -/
def State.hubPutReg (s : State) (off w : Nat) : State :=
  let h := s.hub
  match off with
  | 0x20 => { s with hub := { h with partialWrite := h.partialWrite && !w.testBit 3,
                                     fenceRefused := h.fenceRefused && !w.testBit 2,
                                     splitRefused := h.splitRefused && !w.testBit 1 } }
  | 0x40 => s.stackSplitWrite w
  | 0x60 => s.writePkgId w
  | 0x80 => s.vfPolderPut false w
  | 0x84 => s.vfPolderPut true w
  | 0xA0 => { s with hub := { h with fenceWindowMin := max 1 (fieldOf w 16 16), fenceThreshold := fieldOf w 8 8,
                                     autoTest := w.testBit 0 } }
  | 0xA4 => s.fenceCmd w
  | 0xC0 => s.setHost { s.host with bar2 := w % 2 ^ 18 }
  | 0xC4 => s.setHost { s.host with autoFlip := w.testBit 31 }
  | _ => s

/-- The EVENT block written by PF0. -/
def State.eventPutReg (s : State) (off w : Nat) : State :=
  match off with
  | 0x04 => s.eventSelect w
  | 0x08 => s.eventCtrl w
  | 0x0C => s.setEv { s.ev with skipped := s.ev.skipped && !w.testBit 30 }
  | 0x18 => s.setEv { s.ev with bootSel := w % 65536 }
  | _ => s

/-- SEC_CMD written while the mailbox is free (R515, R516): with `go` a request begins, one whose opcode or length is
not known completing at once; the others complete with their commands. DEDUCED (log entry 102). -/
def State.secGo (s : State) (w : Nat) : State :=
  let op := fieldOf w 16 8
  let n := w % 65536
  let s := s.setSec { s.sec with opcode := op, reqLen := n }
  if !w.testBit 31 then s
  else if !secOpcodes.contains op then s.reply .pf0 0x03 []
  else if n > 4096 || (decide (n ≠ 0) && (op = 0x01 || op = 0x03 || op = 0x04)) then s.reply .pf0 0x02 []
  else s.setSec { s.sec with busy := true }

/-- The SEC block written by PF0. -/
def State.secPutReg (s : State) (off w : Nat) : State :=
  if off = 4 then s.setSec { s.sec with collision := s.sec.collision && !w.testBit 30 }
  else if off = 0 || (0x1000 ≤ off && off < 0x2000) then
    if s.sec.busy then s.setSec { s.sec with collision := true }
    else if off = 0 then s.secGo w
    else s.setSec { s.sec with req := mapPut 0 s.sec.req (off - 0x1000) (toBytes 4 w) }
  else s

/-- A word of an MSI-X table written; a vector that is unmasked sends what was held (R462). PRESUMED (log entry 7). -/
def State.msixPutReg (s : State) (fn n off w : Nat) : State :=
  if off ≥ 16 * n then s
  else
    let v := off / 16
    let x := s.msix fn v
    match off % 16 with
    | 0 => s.setMsix fn v { x with addr := x.addr / 2 ^ 32 * 2 ^ 32 + w }
    | 4 => s.setMsix fn v { x with addr := w * 2 ^ 32 + x.addr % 2 ^ 32 }
    | 8 => s.setMsix fn v { x with data := w }
    | _ => (s.setMsix fn v { x with masked := w.testBit 0 }).sendPending fn

/-- A polder page written by PF0: its registers and its dikes. -/
def State.polderPutReg (s : State) (p off w : Nat) : State :=
  match off with
  | 0x00 => s.polderCtrl p w
  | 0x80 => s.polderSalt p false w
  | 0x84 => s.polderSalt p true w
  | o => if 0x400 ≤ o && o < 0x600 then s.dikePut p ((o - 0x400) / 8) (decide (o % 8 ≠ 0)) w else s

/-- A doorbell of a function's queue. -/
def State.doorbell (s : State) (fn q off w : Nat) : State :=
  match s.queueOf fn q with
  | some g => if off = 0 then s.sqTail g w else if off = 4 then s.cqHead g w else s
  | none => s

/-- A 32-bit write of PF0 (R466, R518). -/
def State.pfPut (s : State) (off w : Nat) : State :=
  if off < 0x10000 then s.hubPutReg off w
  else if off < 0x20000 then s.eventPutReg (off - 0x10000) w
  else if 0x700000 ≤ off && off < 0x710000 then s.secPutReg (off - 0x700000) w
  else if !s.serves 0 then s
  else if off < 0x40000 then
    if off % 32 / 4 = 5 then s.ownerWrite ((off - 0x20000) / 32) w else s.ownWrite 0 ((off - 0x20000) / 32) (off % 32 / 4) w
  else if off < 0x50000 then s.msixPutReg 0 2048 (off - 0x40000) w
  else if 0x100000 ≤ off && off < 0x110000 then s.polderPutReg ((off - 0x100000) / 0x1000) (off % 0x1000) w
  else if 0x500000 ≤ off && off < 0x510000 then
    if off % 0x400 = 4 then s.linkCtrl ((off - 0x500000) / 0x400) w else s
  else if off = 0x60000C then s.hostLimit w
  else if 0x1000000 ≤ off && off < 0x2000000 then s.doorbell 0 ((off - 0x1000000) / 0x1000) (off % 0x1000) w
  else s

/-- A 32-bit write of a VF (R467). -/
def State.vfPut (s : State) (fn off w : Nat) : State :=
  if !s.serves fn then s
  else if 0x20000 ≤ off && off < 0x22000 then s.ownWrite fn ((off - 0x20000) / 32) (off % 32 / 4) w
  else if 0x40000 ≤ off && off < 0x50000 then s.msixPutReg fn 64 (off - 0x40000) w
  else if 0x100000 ≤ off && off < 0x200000 then s.doorbell fn ((off - 0x100000) / 0x1000) (off % 0x1000) w
  else s

/-- DEDUCED (log entry 121). -/
def State.putWord (s : State) (fn off w : Nat) : State := if fn = 0 then s.pfPut off w else s.vfPut fn off w

/-- A write of BAR0 (R498, R499): 64 bits are two 32-bit writes, the lower address first; a narrow or misaligned one
is ignored and sets partial_write. DEDUCED (log entry 121). -/
def State.writeReg (s : State) (fn off width v : Nat) : State :=
  if !s.fnOpen fn then s
  else if width = 4 && off % 4 = 0 then s.putWord fn off (v % 2 ^ 32)
  else if width = 8 && off % 8 = 0 then (s.putWord fn off (v % 2 ^ 32)).putWord fn (off + 4) (v / 2 ^ 32 % 2 ^ 32)
  else { s with hub := { s.hub with partialWrite := true } }

/-- REGISTER_WRITE (R499). -/
def execRegisterWrite (fn offset width : Nat) (v : Word) (s : State) : Outcome State Fault Refusal :=
  .next (s.writeReg fn offset width v.toNat)

end Sys2Proof.Machine
end

