-- ==== Sys2Proof/Machine/Dispatch.lean ====
section
/-!
DEFINITION. The dispatch: one arm per command, each a direct call of its meaning.
-/
namespace Sys2Proof.Machine
open Host

def exec (i : Instr) (s : State) : Host.Outcome State Fault Refusal :=
  match i with
  | .add a form f => Sys2Proof.Machine.execAdd a form f s
  | .sub a form f => Sys2Proof.Machine.execSub a form f s
  | .and a form f => Sys2Proof.Machine.execAnd a form f s
  | .or a form f => Sys2Proof.Machine.execOr a form f s
  | .xor a form f => Sys2Proof.Machine.execXor a form f s
  | .sll a form f => Sys2Proof.Machine.execSll a form f s
  | .srl a form f => Sys2Proof.Machine.execSrl a form f s
  | .sra a form f => Sys2Proof.Machine.execSra a form f s
  | .slt a form f => Sys2Proof.Machine.execSlt a form f s
  | .sltu a form f => Sys2Proof.Machine.execSltu a form f s
  | .min a form f => Sys2Proof.Machine.execMin a form f s
  | .max a form f => Sys2Proof.Machine.execMax a form f s
  | .mul a form f => Sys2Proof.Machine.execMul a form f s
  | .mulh a form f => Sys2Proof.Machine.execMulh a form f s
  | .mulhu a form f => Sys2Proof.Machine.execMulhu a form f s
  | .div a form f => Sys2Proof.Machine.execDiv a form f s
  | .divu a form f => Sys2Proof.Machine.execDivu a form f s
  | .rem a form f => Sys2Proof.Machine.execRem a form f s
  | .remu a form f => Sys2Proof.Machine.execRemu a form f s
  | .movi a f => Sys2Proof.Machine.execMovi a f s
  | .movhi a f => Sys2Proof.Machine.execMovhi a f s
  | .movSd a f => Sys2Proof.Machine.execMovSd a f s
  | .movDs a f => Sys2Proof.Machine.execMovDs a f s
  | .movSa a f => Sys2Proof.Machine.execMovSa a f s
  | .movAs a f => Sys2Proof.Machine.execMovAs a f s
  | .movVs a f => Sys2Proof.Machine.execMovVs a f s
  | .movSv a f => Sys2Proof.Machine.execMovSv a f s
  | .movPs a f => Sys2Proof.Machine.execMovPs a f s
  | .movSp a f => Sys2Proof.Machine.execMovSp a f s
  | .info a minor f => Sys2Proof.Machine.execInfo a minor f s
  | .scalarLoad a minor f => Sys2Proof.Machine.execScalarLoad a minor f s
  | .scalarStore a minor f => Sys2Proof.Machine.execScalarStore a minor f s
  | .amoadd a f => Sys2Proof.Machine.execAmoadd a f s
  | .amoswap a f => Sys2Proof.Machine.execAmoswap a f s
  | .amocas a f => Sys2Proof.Machine.execAmocas a f s
  | .amomax a f => Sys2Proof.Machine.execAmomax a f s
  | .amomin a f => Sys2Proof.Machine.execAmomin a f s
  | .beq a f => Sys2Proof.Machine.execBeq a f s
  | .bne a f => Sys2Proof.Machine.execBne a f s
  | .blt a f => Sys2Proof.Machine.execBlt a f s
  | .bge a f => Sys2Proof.Machine.execBge a f s
  | .bltu a f => Sys2Proof.Machine.execBltu a f s
  | .bgeu a f => Sys2Proof.Machine.execBgeu a f s
  | .jal a f => Sys2Proof.Machine.execJal a f s
  | .jalr a f => Sys2Proof.Machine.execJalr a f s
  | .illegalOpcode a w => Sys2Proof.Machine.execIllegalOpcode a w s
  | .fadd a f => Sys2Proof.Machine.execFadd a f s
  | .fsub a f => Sys2Proof.Machine.execFsub a f s
  | .fmul a f => Sys2Proof.Machine.execFmul a f s
  | .fma a f => Sys2Proof.Machine.execFma a f s
  | .fms a f => Sys2Proof.Machine.execFms a f s
  | .fnma a f => Sys2Proof.Machine.execFnma a f s
  | .fmin a f => Sys2Proof.Machine.execFmin a f s
  | .fmax a f => Sys2Proof.Machine.execFmax a f s
  | .fabs a f => Sys2Proof.Machine.execFabs a f s
  | .fneg a f => Sys2Proof.Machine.execFneg a f s
  | .fcvtW a f => Sys2Proof.Machine.execFcvtW a f s
  | .fcvtS a f => Sys2Proof.Machine.execFcvtS a f s
  | .bpack a f => Sys2Proof.Machine.execBpack a f s
  | .bunpkL a f => Sys2Proof.Machine.execBunpkL a f s
  | .bunpkH a f => Sys2Proof.Machine.execBunpkH a f s
  | .cmpEq a f => Sys2Proof.Machine.execCmpEq a f s
  | .cmpNe a f => Sys2Proof.Machine.execCmpNe a f s
  | .cmpLt a f => Sys2Proof.Machine.execCmpLt a f s
  | .cmpLe a f => Sys2Proof.Machine.execCmpLe a f s
  | .cmpUnord a f => Sys2Proof.Machine.execCmpUnord a f s
  | .cmpLtu a f => Sys2Proof.Machine.execCmpLtu a f s
  | .iadd a f => Sys2Proof.Machine.execIadd a f s
  | .isub a f => Sys2Proof.Machine.execIsub a f s
  | .imul a f => Sys2Proof.Machine.execImul a f s
  | .iand a f => Sys2Proof.Machine.execIand a f s
  | .ior a f => Sys2Proof.Machine.execIor a f s
  | .ixor a f => Sys2Proof.Machine.execIxor a f s
  | .ishl a f => Sys2Proof.Machine.execIshl a f s
  | .ishr a f => Sys2Proof.Machine.execIshr a f s
  | .isar a f => Sys2Proof.Machine.execIsar a f s
  | .imin a f => Sys2Proof.Machine.execImin a f s
  | .imax a f => Sys2Proof.Machine.execImax a f s
  | .iminu a f => Sys2Proof.Machine.execIminu a f s
  | .imaxu a f => Sys2Proof.Machine.execImaxu a f s
  | .vbcast a f => Sys2Proof.Machine.execVbcast a f s
  | .vsel a f => Sys2Proof.Machine.execVsel a f s
  | .viota a f => Sys2Proof.Machine.execViota a f s
  | .vmov a f => Sys2Proof.Machine.execVmov a f s
  | .vld a f => Sys2Proof.Machine.execVld a f s
  | .vldW a f => Sys2Proof.Machine.execVldW a f s
  | .vst a f => Sys2Proof.Machine.execVst a f s
  | .vstN a f => Sys2Proof.Machine.execVstN a f s
  | .vperm a f => Sys2Proof.Machine.execVperm a f s
  | .vrot a f => Sys2Proof.Machine.execVrot a f s
  | .vzip a f => Sys2Proof.Machine.execVzip a f s
  | .vunzip a f => Sys2Proof.Machine.execVunzip a f s
  | .vtrans32 a f => Sys2Proof.Machine.execVtrans32 a f s
  | .vgather a f => Sys2Proof.Machine.execVgather a f s
  | .vscatter a f => Sys2Proof.Machine.execVscatter a f s
  | .pand a f => Sys2Proof.Machine.execPand a f s
  | .por a f => Sys2Proof.Machine.execPor a f s
  | .pxor a f => Sys2Proof.Machine.execPxor a f s
  | .pandn a f => Sys2Proof.Machine.execPandn a f s
  | .pnot a f => Sys2Proof.Machine.execPnot a f s
  | .pset a f => Sys2Proof.Machine.execPset a f s
  | .pclr a f => Sys2Proof.Machine.execPclr a f s
  | .pfirst a f => Sys2Proof.Machine.execPfirst a f s
  | .pcount a f => Sys2Proof.Machine.execPcount a f s
  | .pany a f => Sys2Proof.Machine.execPany a f s
  | .rsum a f => Sys2Proof.Machine.execRsum a f s
  | .rmax a f => Sys2Proof.Machine.execRmax a f s
  | .rmin a f => Sys2Proof.Machine.execRmin a f s
  | .rsumsq a f => Sys2Proof.Machine.execRsumsq a f s
  | .irsum a f => Sys2Proof.Machine.execIrsum a f s
  | .argmax a f => Sys2Proof.Machine.execArgmax a f s
  | .argmin a f => Sys2Proof.Machine.execArgmin a f s
  | .dmaLd a f => Sys2Proof.Machine.execDmaLd a f s
  | .dmaSt a f => Sys2Proof.Machine.execDmaSt a f s
  | .dmaBb a f => Sys2Proof.Machine.execDmaBb a f s
  | .cvt a f => Sys2Proof.Machine.execCvt a f s
  | .mcopy a f => Sys2Proof.Machine.execMcopy a f s
  | .mfill a f => Sys2Proof.Machine.execMfill a f s
  | .fence a f => Sys2Proof.Machine.execFence a f s
  | .semPost a f => Sys2Proof.Machine.execSemPost a f s
  | .semWait a f => Sys2Proof.Machine.execSemWait a f s
  | .semWaitge a f => Sys2Proof.Machine.execSemWaitge a f s
  | .semSet a f => Sys2Proof.Machine.execSemSet a f s
  | .semRead a f => Sys2Proof.Machine.execSemRead a f s
  | .semWaitTimeout a => Sys2Proof.Machine.execSemWaitTimeout a s
  | .barSync a f => Sys2Proof.Machine.execBarSync a f s
  | .waitEng a f => Sys2Proof.Machine.execWaitEng a f s
  | .nop a f => Sys2Proof.Machine.execNop a f s
  | .trap a f => Sys2Proof.Machine.execTrap a f s
  | .cntRead a f => Sys2Proof.Machine.execCntRead a f s
  | .time a f => Sys2Proof.Machine.execTime a f s
  | .endTask a f => Sys2Proof.Machine.execEndTask a f s
  | .stest a f => Sys2Proof.Machine.execStest a f s
  | .tmm a f w2 => Sys2Proof.Machine.execTmm a f w2 s
  | .tensorTileRun core upset => Sys2Proof.Machine.execTensorTileRun core upset s
  | .taccZero a f w2 => Sys2Proof.Machine.execTaccZero a f w2 s
  | .taccSt a f w2 => Sys2Proof.Machine.execTaccSt a f w2 s
  | .taccLd a f w2 => Sys2Proof.Machine.execTaccLd a f w2 s
  | .taccVrd a f w2 => Sys2Proof.Machine.execTaccVrd a f w2 s
  | .taccVwr a f w2 => Sys2Proof.Machine.execTaccVwr a f w2 s
  | .exp a f => Sys2Proof.Machine.execExp a f s
  | .exp2 a f => Sys2Proof.Machine.execExp2 a f s
  | .log a f => Sys2Proof.Machine.execLog a f s
  | .log2 a f => Sys2Proof.Machine.execLog2 a f s
  | .rcp a f => Sys2Proof.Machine.execRcp a f s
  | .rsqrt a f => Sys2Proof.Machine.execRsqrt a f s
  | .sqrt a f => Sys2Proof.Machine.execSqrt a f s
  | .sin a f => Sys2Proof.Machine.execSin a f s
  | .cos a f => Sys2Proof.Machine.execCos a f s
  | .tanh a f => Sys2Proof.Machine.execTanh a f s
  | .sigmoid a f => Sys2Proof.Machine.execSigmoid a f s
  | .erf a f => Sys2Proof.Machine.execErf a f s
  | .gelu a f => Sys2Proof.Machine.execGelu a f s
  | .geluT a f => Sys2Proof.Machine.execGeluT a f s
  | .silu a f => Sys2Proof.Machine.execSilu a f s
  | .softplus a f => Sys2Proof.Machine.execSoftplus a f s
  | .dgelu a f => Sys2Proof.Machine.execDgelu a f s
  | .dgeluT a f => Sys2Proof.Machine.execDgeluT a f s
  | .dsoftplus a f => Sys2Proof.Machine.execDsoftplus a f s
  | .dsilu a f => Sys2Proof.Machine.execDsilu a f s
  | .gate a f => Sys2Proof.Machine.execGate a f s
  | .normFwd a f => Sys2Proof.Machine.execNormFwd a f s
  | .smaxFwd a f => Sys2Proof.Machine.execSmaxFwd a f s
  | .normBwd a f => Sys2Proof.Machine.execNormBwd a f s
  | .smaxBwd a f => Sys2Proof.Machine.execSmaxBwd a f s
  | .rowCommandRow a => Sys2Proof.Machine.execRowCommandRow a s
  | .conv a f w2 => Sys2Proof.Machine.execConv a f w2 s
  | .maxpool a f w2 => Sys2Proof.Machine.execMaxpool a f w2 s
  | .avgpool a f w2 => Sys2Proof.Machine.execAvgpool a f w2 s
  | .dwconv a f w2 => Sys2Proof.Machine.execDwconv a f w2 s
  | .convPass a => Sys2Proof.Machine.execConvPass a s
  | .penumbraTimeout a => Sys2Proof.Machine.execPenumbraTimeout a s
  | .attnFwd a f w2 => Sys2Proof.Machine.execAttnFwd a f w2 s
  | .attnBwdKv a f w2 => Sys2Proof.Machine.execAttnBwdKv a f w2 s
  | .attnBwdQ a f w2 => Sys2Proof.Machine.execAttnBwdQ a f w2 s
  | .attnMerge a f w2 => Sys2Proof.Machine.execAttnMerge a f w2 s
  | .attnStep a => Sys2Proof.Machine.execAttnStep a s
  | .pageWrite a f w2 => Sys2Proof.Machine.execPageWrite a f w2 s
  | .pageShare a f w2 => Sys2Proof.Machine.execPageShare a f w2 s
  | .pageDrop a f w2 => Sys2Proof.Machine.execPageDrop a f w2 s
  | .pageSeal a f w2 => Sys2Proof.Machine.execPageSeal a f w2 s
  | .frameFreeAfterWalk set frame => Sys2Proof.Machine.execFrameFreeAfterWalk set frame s
  | .pageWalk a => Sys2Proof.Machine.execPageWalk a s
  | .pageFetchDeadline a => Sys2Proof.Machine.execPageFetchDeadline a s
  | .pageWaitLimit a => Sys2Proof.Machine.execPageWaitLimit a s
  | .tierUp a f => Sys2Proof.Machine.execTierUp a f s
  | .tierDown a f => Sys2Proof.Machine.execTierDown a f s
  | .tierWhere a f => Sys2Proof.Machine.execTierWhere a f s
  | .collAllreduce a f => Sys2Proof.Machine.execCollAllreduce a f s
  | .collRedscat a f => Sys2Proof.Machine.execCollRedscat a f s
  | .collAllgather a f => Sys2Proof.Machine.execCollAllgather a f s
  | .collAlltoall a f => Sys2Proof.Machine.execCollAlltoall a f s
  | .collBcast a f => Sys2Proof.Machine.execCollBcast a f s
  | .collComplete ctx group peers => Sys2Proof.Machine.execCollComplete ctx group peers s
  | .collJoinTimeout ctx group => Sys2Proof.Machine.execCollJoinTimeout ctx group s
  | .collAbortIn ctx group => Sys2Proof.Machine.execCollAbortIn ctx group s
  | .engineDispatch core eng => Sys2Proof.Machine.execEngineDispatch core eng s
  | .claimGrant core => Sys2Proof.Machine.execClaimGrant core s
  | .icacheFill a => Sys2Proof.Machine.execIcacheFill a s
  | .completionPost a => Sys2Proof.Machine.execCompletionPost a s
  | .coreCtxIdWrite core slot v start => Sys2Proof.Machine.execCoreCtxIdWrite core slot v start s
  | .coreCtxAllotWrite core slot v => Sys2Proof.Machine.execCoreCtxAllotWrite core slot v s
  | .registerWrite fn offset width v => Sys2Proof.Machine.execRegisterWrite fn offset width v s
  | .rcRegisterRead fn offset width => Sys2Proof.Machine.execRcRegisterRead fn offset width s
  | .hubTimeLoRead fn width => Sys2Proof.Machine.execHubTimeLoRead fn width s
  | .hubStackSplitWrite v => Sys2Proof.Machine.execHubStackSplitWrite v s
  | .hubPkgIdWrite v => Sys2Proof.Machine.execHubPkgIdWrite v s
  | .hubVfPolderWrite high v => Sys2Proof.Machine.execHubVfPolderWrite high v s
  | .coreFenceCmd core => Sys2Proof.Machine.execCoreFenceCmd core s
  | .coreUnfenceCmd core => Sys2Proof.Machine.execCoreUnfenceCmd core s
  | .polderCtrlWrite polder v => Sys2Proof.Machine.execPolderCtrlWrite polder v s
  | .polderSaltWrite polder high v => Sys2Proof.Machine.execPolderSaltWrite polder high v s
  | .dikeRegisterWrite polder dike burst v => Sys2Proof.Machine.execDikeRegisterWrite polder dike burst v s
  | .dikeWindow polder dike => Sys2Proof.Machine.execDikeWindow polder dike s
  | .linkEnableWrite link v => Sys2Proof.Machine.execLinkEnableWrite link v s
  | .linkRecalReq link => Sys2Proof.Machine.execLinkRecalReq link s
  | .linkRecalDrained link => Sys2Proof.Machine.execLinkRecalDrained link s
  | .linkRetrainReq link => Sys2Proof.Machine.execLinkRetrainReq link s
  | .queueOwnerWrite q v => Sys2Proof.Machine.execQueueOwnerWrite q v s
  | .queueEnable fn q v => Sys2Proof.Machine.execQueueEnable fn q v s
  | .queueDisable fn q => Sys2Proof.Machine.execQueueDisable fn q s
  | .dbSqTail fn q v => Sys2Proof.Machine.execDbSqTail fn q v s
  | .dbCqHead fn q v => Sys2Proof.Machine.execDbCqHead fn q v s
  | .msixCoalesceTimer q => Sys2Proof.Machine.execMsixCoalesceTimer q s
  | .eventSelectWrite v => Sys2Proof.Machine.execEventSelectWrite v s
  | .eventCtrlWrite v => Sys2Proof.Machine.execEventCtrlWrite v s
  | .eventData7Read width => Sys2Proof.Machine.execEventData7Read width s
  | .pwrHostLimitWrite v => Sys2Proof.Machine.execPwrHostLimitWrite v s
  | .submit q => Sys2Proof.Machine.execSubmit q s
  | .suspend q => Sys2Proof.Machine.execSuspend q s
  | .suspendComplete kind ctx handle => Sys2Proof.Machine.execSuspendComplete kind ctx handle s
  | .resume q => Sys2Proof.Machine.execResume q s
  | .cancel q => Sys2Proof.Machine.execCancel q s
  | .progress q => Sys2Proof.Machine.execProgress q s
  | .release q => Sys2Proof.Machine.execRelease q s
  | .codeLoad q => Sys2Proof.Machine.execCodeLoad q s
  | .codeUnload q => Sys2Proof.Machine.execCodeUnload q s
  | .objCreate q => Sys2Proof.Machine.execObjCreate q s
  | .objDestroy q => Sys2Proof.Machine.execObjDestroy q s
  | .move q => Sys2Proof.Machine.execMove q s
  | .biasSet q => Sys2Proof.Machine.execBiasSet q s
  | .hostPoolAdd q => Sys2Proof.Machine.execHostPoolAdd q s
  | .cachesetCreate q => Sys2Proof.Machine.execCachesetCreate q s
  | .cachesetDestroy q => Sys2Proof.Machine.execCachesetDestroy q s
  | .batchqCreate q => Sys2Proof.Machine.execBatchqCreate q s
  | .batchqDestroy q => Sys2Proof.Machine.execBatchqDestroy q s
  | .encOpen q => Sys2Proof.Machine.execEncOpen q s
  | .encClose q => Sys2Proof.Machine.execEncClose q s
  | .routeLoad q => Sys2Proof.Machine.execRouteLoad q s
  | .exportLoad q => Sys2Proof.Machine.execExportLoad q s
  | .groupCreate q => Sys2Proof.Machine.execGroupCreate q s
  | .groupDestroy q => Sys2Proof.Machine.execGroupDestroy q s
  | .selftest q => Sys2Proof.Machine.execSelftest q s
  | .tableReload q => Sys2Proof.Machine.execTableReload q s
  | .entryBad q => Sys2Proof.Machine.execEntryBad q s
  | .sfuTableBankWrite region => Sys2Proof.Machine.execSfuTableBankWrite region s
  | .sfuTableFlip core => Sys2Proof.Machine.execSfuTableFlip core s
  | .taskPlace => Sys2Proof.Machine.execTaskPlace s
  | .stripedStagePlace ctx stage => Sys2Proof.Machine.execStripedStagePlace ctx stage s
  | .stripedStageReserve ctx stage => Sys2Proof.Machine.execStripedStageReserve ctx stage s
  | .jobComplete ctx => Sys2Proof.Machine.execJobComplete ctx s
  | .jobTeardown ctx => Sys2Proof.Machine.execJobTeardown ctx s
  | .taskMove a saved => Sys2Proof.Machine.execTaskMove a saved s
  | .corePowerOff core => Sys2Proof.Machine.execCorePowerOff core s
  | .codecPowerOff media eng => Sys2Proof.Machine.execCodecPowerOff media eng s
  | .refreshBegin ctx => Sys2Proof.Machine.execRefreshBegin ctx s
  | .refreshBeginDurable ctx => Sys2Proof.Machine.execRefreshBeginDurable ctx s
  | .refreshStageFlip ctx stage => Sys2Proof.Machine.execRefreshStageFlip ctx stage s
  | .refreshCommitDurable ctx => Sys2Proof.Machine.execRefreshCommitDurable ctx s
  | .refreshTimerExpiry ctx => Sys2Proof.Machine.execRefreshTimerExpiry ctx s
  | .sluiceMark handle => Sys2Proof.Machine.execSluiceMark handle s
  | .sluiceDrained handle => Sys2Proof.Machine.execSluiceDrained handle s
  | .sluiceCopyDone handle => Sys2Proof.Machine.execSluiceCopyDone handle s
  | .sluiceSourceFree handle => Sys2Proof.Machine.execSluiceSourceFree handle s
  | .sluiceCopy handle => Sys2Proof.Machine.execSluiceCopy handle s
  | .afterglowImageSwitch extent => Sys2Proof.Machine.execAfterglowImageSwitch extent s
  | .hotChannelWindow group counts busyPercent polder => Sys2Proof.Machine.execHotChannelWindow group counts busyPercent polder s
  | .sampleRequestTake bq => Sys2Proof.Machine.execSampleRequestTake bq s
  | .decodeStart bq seq => Sys2Proof.Machine.execDecodeStart bq seq s
  | .codecFrame media eng => Sys2Proof.Machine.execCodecFrame media eng s
  | .sampleComplete bq seq => Sys2Proof.Machine.execSampleComplete bq seq s
  | .sampleDeadlineExpiry bq seq => Sys2Proof.Machine.execSampleDeadlineExpiry bq seq s
  | .batchAssemble bq => Sys2Proof.Machine.execBatchAssemble bq s
  | .encFrameTake enc => Sys2Proof.Machine.execEncFrameTake enc s
  | .encodeFrame enc eng => Sys2Proof.Machine.execEncodeFrame enc eng s
  | .encodeCloseComplete enc => Sys2Proof.Machine.execEncodeCloseComplete enc s
  | .hostMemRead path fn addr len => Sys2Proof.Machine.execHostMemRead path fn addr len s
  | .hostMemWrite path fn addr data => Sys2Proof.Machine.execHostMemWrite path fn addr data s
  | .hdmDecoderCommit dec base size ways => Sys2Proof.Machine.execHdmDecoderCommit dec base size ways s
  | .cxlLinkRetrain width speed => Sys2Proof.Machine.execCxlLinkRetrain width speed s
  | .hostAccessTimeout a => Sys2Proof.Machine.execHostAccessTimeout a s
  | .vfFlr vf => Sys2Proof.Machine.execVfFlr vf s
  | .pfFlr => Sys2Proof.Machine.execPfFlr s
  | .perstAssert => Sys2Proof.Machine.execPerstAssert s
  | .remoteAccessIn link src acc => Sys2Proof.Machine.execRemoteAccessIn link src acc s
  | .packetForward src dst ctx hops => Sys2Proof.Machine.execPacketForward src dst ctx hops s
  | .remoteRequestTimeout req => Sys2Proof.Machine.execRemoteRequestTimeout req s
  | .flitCrcFail link => Sys2Proof.Machine.execFlitCrcFail link s
  | .flitNakReceived link seq => Sys2Proof.Machine.execFlitNakReceived link seq s
  | .linkTrain link obs => Sys2Proof.Machine.execLinkTrain link obs s
  | .linkTrainAttemptTimeout link => Sys2Proof.Machine.execLinkTrainAttemptTimeout link s
  | .linkIdentComplete link farAssigned farPkg farLink => Sys2Proof.Machine.execLinkIdentComplete link farAssigned farPkg farLink s
  | .laneLockLost link lane => Sys2Proof.Machine.execLaneLockLost link lane s
  | .fecRateWindow link codewords uncorrectable => Sys2Proof.Machine.execFecRateWindow link codewords uncorrectable s
  | .linkLossTimeout link => Sys2Proof.Machine.execLinkLossTimeout link s
  | .cablePresenceChange link present => Sys2Proof.Machine.execCablePresenceChange link present s
  | .causewayCrcFail port resent => Sys2Proof.Machine.execCausewayCrcFail port resent s
  | .sramEccError place correctable => Sys2Proof.Machine.execSramEccError place correctable s
  | .memEccError place correctable => Sys2Proof.Machine.execMemEccError place correctable s
  | .patrolScrub => Sys2Proof.Machine.execPatrolScrub s
  | .fenceWindowExpiry core => Sys2Proof.Machine.execFenceWindowExpiry core s
  | .coreTest core pass => Sys2Proof.Machine.execCoreTest core pass s
  | .unitTest unit pass => Sys2Proof.Machine.execUnitTest unit pass s
  | .lanternWatchdogExpiry lantern => Sys2Proof.Machine.execLanternWatchdogExpiry lantern s
  | .lanternRestartDone lantern => Sys2Proof.Machine.execLanternRestartDone lantern s
  | .hubHeartbeatTimeout => Sys2Proof.Machine.execHubHeartbeatTimeout s
  | .pairOutputMismatch => Sys2Proof.Machine.execPairOutputMismatch s
  | .wardenPairRestartDone => Sys2Proof.Machine.execWardenPairRestartDone s
  | .regionFirmwareSwitch region => Sys2Proof.Machine.execRegionFirmwareSwitch region s
  | .dieFirmwareSwitch die => Sys2Proof.Machine.execDieFirmwareSwitch die s
  | .hubUpdateRestart => Sys2Proof.Machine.execHubUpdateRestart s
  | .firmwareRevert lantern => Sys2Proof.Machine.execFirmwareRevert lantern s
  | .eventPost => Sys2Proof.Machine.execEventPost s
  | .powerLoopTick watts => Sys2Proof.Machine.execPowerLoopTick watts s
  | .overcurrentTrip watts => Sys2Proof.Machine.execOvercurrentTrip watts s
  | .thermalTermUpdate die temp ms => Sys2Proof.Machine.execThermalTermUpdate die temp ms s
  | .flowLowSustained => Sys2Proof.Machine.execFlowLowSustained s
  | .thermalHoldExpiry die temp => Sys2Proof.Machine.execThermalHoldExpiry die temp s
  | .sensorSample inlet flow => Sys2Proof.Machine.execSensorSample inlet flow s
  | .inputReversed volts10mV => Sys2Proof.Machine.execInputReversed volts10mV s
  | .inputUndervolt volts10mV => Sys2Proof.Machine.execInputUndervolt volts10mV s
  | .mainPowerLost volts10mV => Sys2Proof.Machine.execMainPowerLost volts10mV s
  | .inputOvervolt volts10mV => Sys2Proof.Machine.execInputOvervolt volts10mV s
  | .inputOvervoltTrip volts10mV => Sys2Proof.Machine.execInputOvervoltTrip volts10mV s
  | .inputRecovered volts10mV => Sys2Proof.Machine.execInputRecovered volts10mV s
  | .standbyLost => Sys2Proof.Machine.execStandbyLost s
  | .dimmSupplyFault socket milliamps => Sys2Proof.Machine.execDimmSupplyFault socket milliamps s
  | .mgmtBusRecovered attempts => Sys2Proof.Machine.execMgmtBusRecovered attempts s
  | .pllUnlock domain die region => Sys2Proof.Machine.execPllUnlock domain die region s
  | .mgmtPowerLimit watts => Sys2Proof.Machine.execMgmtPowerLimit watts s
  | .coreReset core => Sys2Proof.Machine.execCoreReset core s
  | .regionReset region => Sys2Proof.Machine.execRegionReset region s
  | .dieReset die => Sys2Proof.Machine.execDieReset die s
  | .dieResetTimeout die => Sys2Proof.Machine.execDieResetTimeout die s
  | .warmReset => Sys2Proof.Machine.execWarmReset s
  | .coldReset => Sys2Proof.Machine.execColdReset s
  | .wardenStart => Sys2Proof.Machine.execWardenStart s
  | .railSequence => Sys2Proof.Machine.execRailSequence s
  | .slotVerify => Sys2Proof.Machine.execSlotVerify s
  | .cxlReady cxlMode width speed => Sys2Proof.Machine.execCxlReady cxlMode width speed s
  | .memoryTrain res => Sys2Proof.Machine.execMemoryTrain res s
  | .startupSelftest badCores badDies => Sys2Proof.Machine.execStartupSelftest badCores badDies s
  | .startupLinkTrain => Sys2Proof.Machine.execStartupLinkTrain s
  | .jobManagerOpen => Sys2Proof.Machine.execJobManagerOpen s
  | .getCerts port => Sys2Proof.Machine.execGetCerts port s
  | .attest port nonce => Sys2Proof.Machine.execAttest port nonce s
  | .spdmRequest port req => Sys2Proof.Machine.execSpdmRequest port req s
  | .slotStatus port => Sys2Proof.Machine.execSlotStatus port s
  | .portStats port => Sys2Proof.Machine.execPortStats port s
  | .slotWrite port slotB offset data => Sys2Proof.Machine.execSlotWrite port slotB offset data s
  | .activate port slotB live updateWait => Sys2Proof.Machine.execActivate port slotB live updateWait s
  | .svnCommit port => Sys2Proof.Machine.execSvnCommit port s
  | .debugChallenge port => Sys2Proof.Machine.execDebugChallenge port s
  | .debugUnlock port token => Sys2Proof.Machine.execDebugUnlock port token s
  | .debugUnlockExpiry => Sys2Proof.Machine.execDebugUnlockExpiry s
  | .jtagAccess die kind addr data => Sys2Proof.Machine.execJtagAccess die kind addr data s
  | .decommission port force => Sys2Proof.Machine.execDecommission port force s
  | .dikeTokenAccrual polder dike us => Sys2Proof.Machine.execDikeTokenAccrual polder dike us s
  | .perstDeassert => Sys2Proof.Machine.execPerstDeassert s
  | .pmPowerStateWrite fn d3hot => Sys2Proof.Machine.execPmPowerStateWrite fn d3hot s
  | .vfEnableSet => Sys2Proof.Machine.execVfEnableSet s
  | .cxlCacheSnoop line kind => Sys2Proof.Machine.execCxlCacheSnoop line kind s
  | .dieBackInService die => Sys2Proof.Machine.execDieBackInService die s
  | .regionBackInService region => Sys2Proof.Machine.execRegionBackInService region s

end Sys2Proof.Machine
end

