-- ==== Sys2Proof/Machine/Step.lean ====
section
/-!
DEFINITION. The step of the block: the command at the front of the queue runs on the state with the queue's
rest; with no command waiting, the package timestamp counts one cycle (R136).
-/
namespace Sys2Proof.Machine
open Host

/-- One step: with nothing waiting, one tick of the package timestamp. DESIGN CHOICE (log entries 1, 128). -/
def step (s : State) : Outcome State Fault Refusal :=
  match s.pending with
  | [] => .next { s with time := s.time + 1 }
  | c :: rest => exec c { s with pending := rest }

/-- The table gives no row bits, so no word spells a command and the state is as it was. DESIGN CHOICE (log entry 2). -/
def State.withFetchWord (s : State) (nbits w : Nat) : State :=
  match decodeTableWord nbits w with
  | some c => { s with pending := c :: s.pending }
  | none => s

end Sys2Proof.Machine
end

