-- ==== Sys2Proof/Safety.lean ====
section
/-!
DEFINITION. The terms in which claims speak: when an instruction can issue, what a completed instruction leaves, what an
event leaves in the log, and the invariants of the machine.
-/
namespace Sys2Proof.Machine
open Host

/-! ### Instructions of a core -/

/-- An instruction of `len` bytes can issue (R40, R50, R60, R115, R532): its slot exists, is resident and running, has no
fault and waits for nothing, its die is not halted over JTAG, and its words lie in the code section and in the instruction
cache. -/
abbrev State.Ready (s : State) (a : At) (len : Nat) : Prop :=
  a.core < 192 ∧ a.slot < 4 ∧ (s.at_ a).id.resident = true ∧ (s.at_ a).faulted = false
    ∧ mapGet false s.sec.halted (a.core / 24) = false ∧ (s.at_ a).id.state = 1 ∧ (s.at_ a).wait = none
    ∧ ((s.at_ a).code = 0 ∨ ((s.at_ a).pc + len ≤ (s.code (s.at_ a).code).codeBytes
      ∧ (s.core a.core).icache.contains ((s.at_ a).code, (s.at_ a).pc / 256) = true
      ∧ (s.core a.core).icache.contains ((s.at_ a).code, ((s.at_ a).pc + len - 8) / 256) = true))

/-- The fields of an instruction's first word pass R108 in the slot's profile. -/
abbrev State.Legal (s : State) (a : At) (u : Use) (f : Fields) : Prop := badField (s.at_ a).id.profile u f = none

/-- An instruction has completed: its slot holds `v`, it is counted and the pc has moved past its words. -/
def State.done (s : State) (a : At) (len : Nat) (v : Slot) : State := (s.setAt a v).advance a len

/-- An instruction of one word has written a scalar register (R39: s0 discards the write). -/
def State.wrote (s : State) (a : At) (r : BitVec 5) (v : Word) : State := s.done a 8 ((s.at_ a).ws r v)

/-! ### Commands of the submission queues -/

/-- The command at the head of SQ `q` is taken now (R483, R486, R494): it can be read and has opcode `op`, the job manager is
open and no command is held (or it is not open and this is PROGRESS), nothing it must wait for is in flight, and the CQ has room
for its completions. -/
abbrev State.Takes (s : State) (q op need : Nat) (bs : List Byte) : Prop :=
  s.front q = .entry bs ∧ recField bs 0 1 = op ∧ (s.hub.jobOpen = true ∧ (s.queue q).held = [] ∨ s.hub.jobOpen = false ∧ op = 5)
    ∧ ((recField bs 1 1).testBit 0 = true → (s.queue q).inFlight = 0)
    ∧ need ≤ (s.queue q).cqSize - ((s.queue q).written - (s.queue q).read) - (s.queue q).owed

/-- The state once a command is taken: the SQ head has moved on, and its completions are owed (R483, R486). -/
def State.taken (s : State) (q need : Nat) : State :=
  let v := s.queue q
  (s.ringTouch false v v.sqHi (v.sqBase + v.head * 64) 64).setQueue q
    { v with head := (v.head + 1) % v.sqSize, inFlight := v.inFlight + 1, owed := v.owed + need }

/-- Where the completions of a command go (R487). -/
def State.replyOf (s : State) (q : Nat) (bs : List Byte) : Reply := { q := q, id := recField bs 2 2, fn := (s.queue q).fn }

/-- The fields of an SQ entry (R484). -/
def sqeOf (bs : List Byte) : Sqe :=
  { op := recField bs 0 1, target := recField bs 4 2 % 4096, desc := recField bs 8 8, arg0 := recField bs 16 8,
    arg1 := recField bs 24 8 }

/-- The machine answers with a state. -/
def answers (c : Instr) (s t : State) : Prop := exec c s = .next t

/-! ### Invariants -/

/-- The maps of device memory are in canonical form: keys rise strictly, and no entry equals the default. -/
def Mem.wf (m : Mem) : Bool :=
  mapWf 0 m.bytes && mapWf false m.poison && mapWf {} m.home && mapWf false m.bias && mapWf 0 m.glow && mapWf 0 m.undo
    && mapWf false m.lost && mapWf 0 m.hot

/-- What every step keeps. -/
abbrev State.Inv (s : State) : Prop := s.mem.wf = true

end Sys2Proof.Machine
end

