-- ==== Sys2Proof/Certificates/Slice0/Obligations.lean ====
section
/-!
DEFINITION. The statements for the provers, from the numbered rules of the spec.
-/
open Sys2Proof Sys2Proof.Machine Host


/-! ### The queue of commands -/

/-- A step takes the command at the front of the queue and runs it on the state with the queue's rest; with nothing waiting
the package timestamp counts one cycle (log entry 1). -/
def Obligations.StepRunsFront : Prop :=
  (∀ (c : Instr) (s : State) (rest : List Instr), s.pending = c :: rest → step s = exec c { s with pending := rest })
    ∧ (∀ s : State, s.pending = [] → step s = .next { s with time := s.time + 1 })

/-- R1: every step answers with a next state, no command stopping the block; it never changes the variant, through resets
too, and takes exactly the front command from the queue. -/
def Obligations.VariantAndQueue : Prop :=
  ∀ s : State, ∃ t, step s = .next t ∧ t.variant = s.variant ∧ t.pending = s.pending.tail

/-! ### Scalar instructions -/

/-- R111: division never faults; a divisor of 0 gives a quotient of all ones and the dividend as the remainder, and the
signed division of -2^63 by -1 gives -2^63 with remainder 0. R144: in the compatibility profile a divisor of 0 gives 0. -/
def Obligations.DivisionResult : Prop :=
  ∀ (s : State) (a : At) (form : AluForm) (f : Fields), s.Ready a 8 → s.Legal a (aluUse form) f →
    let x := (s.at_ a).rs f.src1
    let y := aluOperand (s.at_ a) form f
    let gives (c : Instr) (v : Word) : Prop := answers c s (s.wrote a f.dst v)
    ((s.at_ a).id.profile = true → y = 0 → gives (.div a form f) 0 ∧ gives (.divu a form f) 0 ∧ gives (.rem a form f) 0
        ∧ gives (.remu a form f) 0)
      ∧ ((s.at_ a).id.profile = false → y = 0 → gives (.div a form f) (BitVec.allOnes 64) ∧ gives (.divu a form f) (BitVec.allOnes 64)
        ∧ gives (.rem a form f) x ∧ gives (.remu a form f) x)
      ∧ (x.toInt = -2 ^ 63 → y.toInt = -1 → gives (.div a form f) x ∧ gives (.rem a form f) 0)
      ∧ (y ≠ 0 → gives (.divu a form f) (BitVec.ofNat 64 (x.toNat / y.toNat))
        ∧ gives (.remu a form f) (BitVec.ofNat 64 (x.toNat % y.toNat))
        ∧ gives (.div a form f) (BitVec.ofInt 64 (x.toInt.tdiv y.toInt))
        ∧ gives (.rem a form f) (BitVec.ofInt 64 (x.toInt.tmod y.toInt)))

/-- R110: the result of each scalar ALU instruction in both its forms; everything but dst, the pc and the counters of the
slot's issue is unchanged, for the answer is the state with just these written. R112: the moves between register files, the
immediate moves and INFO in minor order; the moves of lanes and of predicate groups wait for an earlier command of the slot
on the vector unit. -/
def Obligations.ScalarRegisterResult : Prop :=
  (∀ (s : State) (a : At) (form : AluForm) (f : Fields), s.Ready a 8 → s.Legal a (aluUse form) f →
      let x := (s.at_ a).rs f.src1
      let y := aluOperand (s.at_ a) form f
      let gives (c : Instr) (v : Word) : Prop := answers c s (s.wrote a f.dst v)
      gives (.add a form f) (x + y)
        ∧ gives (.sub a form f) (x - y)
        ∧ gives (.and a form f) (x &&& y)
        ∧ gives (.or a form f) (x ||| y)
        ∧ gives (.xor a form f) (x ^^^ y)
        ∧ gives (.sll a form f) (x <<< (y.toNat % 64))
        ∧ gives (.srl a form f) (x >>> (y.toNat % 64))
        ∧ gives (.sra a form f) (x.sshiftRight (y.toNat % 64))
        ∧ gives (.slt a form f) (if x.toInt < y.toInt then 1 else 0)
        ∧ gives (.sltu a form f) (if x.toNat < y.toNat then 1 else 0)
        ∧ gives (.min a form f) (if x.toInt < y.toInt then x else y)
        ∧ gives (.max a form f) (if x.toInt < y.toInt then y else x)
        ∧ gives (.mul a form f) (BitVec.ofNat 64 (x.toNat * y.toNat))
        ∧ gives (.mulh a form f) (BitVec.ofInt 64 (x.toInt * y.toInt / 2 ^ 64))
        ∧ gives (.mulhu a form f) (BitVec.ofNat 64 (x.toNat * y.toNat / 2 ^ 64))) ∧
  (∀ (s : State) (a : At) (f : Fields) (minor : BitVec 6), s.Ready a 8 →
      let sl := s.at_ a
      let legal (dst src1 : Kind) (res : List (Nat × Nat)) : Prop :=
        s.Legal a { dst := dst, src1 := src1, src2 := .none_, src3 := .none_, imm := res } f
      let gives (c : Instr) (v : Slot) : Prop := answers c s (s.done a 8 v)
      (legal .s .none_ [] → gives (.movi a f) (sl.ws f.dst (f.imm.signExtend 64))
          ∧ gives (.movhi a f) (sl.ws f.dst (BitVec.ofNat 64 (f.imm.toNat * 2 ^ 32 + (sl.rs f.dst).toNat % 2 ^ 32))))
        ∧ (legal .d .s [(0, 32)] → gives (.movSd a f) (sl.wd f.dst.toNat (sl.rs f.src1)))
        ∧ (legal .s .d [(0, 32)] → gives (.movDs a f) (sl.ws f.dst (sl.rd f.src1.toNat)))
        ∧ (legal .a .s [(0, 32)] → gives (.movSa a f) (sl.wa f.dst.toNat (sl.rs f.src1)))
        ∧ (legal .s .a [(0, 32)] → gives (.movAs a f) (sl.ws f.dst (sl.ra f.src1.toNat)))
        ∧ (legal .v .s [(10, 22)] → sl.qVec = [] → gives (.movVs a f) (sl.wv f.dst (fun i =>
            if i = f.imm.toNat % 1024 then (sl.rs f.src1).setWidth 32 else sl.lane f.dst i)))
        ∧ (legal .s .v [(10, 22)] → sl.qVec = [] →
            gives (.movSv a f) (sl.ws f.dst ((sl.lane f.src1 (f.imm.toNat % 1024)).setWidth 64)))
        ∧ (legal .p .s [(4, 28)] → sl.qVec = [] → ∃ p : PredBits, gives (.movPs a f) (sl.wp f.dst.toNat p)
            ∧ ∀ i : Nat, i < 1024 → p.getLsbD i = if i / 64 = f.imm.toNat % 16 then (sl.rs f.src1).getLsbD (i % 64)
              else (sl.rp f.dst.toNat).getLsbD i)
        ∧ (legal .s .p [(4, 28)] → sl.qVec = [] →
            gives (.movSp a f) (sl.ws f.dst ((sl.rp f.src1.toNat).extractLsb' (64 * (f.imm.toNat % 16)) 64)))
        ∧ (legal .s .none_ [(0, 32)] → minor.toNat ≤ 6 → gives (.info a minor f) (sl.ws f.dst (BitVec.ofNat 64
            ([a.core, sl.id.ctx, a.slot, sl.id.polder, bit sl.id.profile 0, sl.stage, sl.task].getD minor.toNat 0)))))

/-- R113: scalar loads and stores of the operand buffer, aligned and within the allotment, and of device memory where the
access is permitted (R19 to R21): bit 2 of the minor zero-extends, bits [1:0] give the size. R113, R139: in the native
profile a scalar load or store whose address is no multiple of its size takes MISALIGNED with the low 16 bits of the address,
and one of the buffer that runs past the allotment takes DESC_OUT_OF_ALLOT. -/
def Obligations.ScalarMemory : Prop :=
  (∀ (s : State) (a : At) (f : Fields) (minor : BitVec 6), s.Ready a 8 → s.Legal a siUse f → minor.toNat.testBit 5 = false →
      let sl := s.at_ a
      let x := (sl.rs f.src1 + f.imm.signExtend 64).toNat
      let n := 2 ^ (minor.toNat % 4)
      let word (bs : List Byte) : Word :=
        if minor.toNat.testBit 2 then BitVec.ofNat 64 (ofBytes bs) else BitVec.ofInt 64 (sext (8 * n) (ofBytes bs))
      let span (w : Bool) : Span := { acc := false, write := w, base := x, len := n }
      x % n = 0 →
      (minor.toNat.testBit 4 = true → x + n ≤ sl.allot.bufLen → hazard sl [span false] = false →
          answers (.scalarLoad a minor f) s (s.wrote a f.dst (word (s.bufBytes a x n))))
        ∧ (minor.toNat.testBit 4 = true → minor.toNat.testBit 2 = false → x + n ≤ sl.allot.bufLen →
            hazard sl [span true] = false →
            answers (.scalarStore a minor f) s ((s.bufWrite a x (toBytes n (sl.rs f.dst).toNat)).advance a 8))
        ∧ (minor.toNat.testBit 4 = false → s.devStop (s.whoAt a) false x n = none →
            answers (.scalarLoad a minor f) s
              (((s.devSpend (s.whoAt a) false x n).passFree x n).wrote a f.dst (word (s.devRead x n))))
        ∧ (minor.toNat.testBit 4 = false → minor.toNat.testBit 2 = false → s.devStop (s.whoAt a) true x n = none →
            answers (.scalarStore a minor f) s
              (((s.devSpend (s.whoAt a) true x n).devWrite sl.id.ctx x (toBytes n (sl.rs f.dst).toNat)).advance a 8))) ∧
  (∀ (s : State) (a : At) (f : Fields) (minor : BitVec 6), s.Ready a 8 → (s.at_ a).id.profile = false → s.Legal a siUse f →
      minor.toNat.testBit 5 = false →
      let sl := s.at_ a
      let x := (sl.rs f.src1 + f.imm.signExtend 64).toNat
      let n := 2 ^ (minor.toNat % 4)
      (x % n ≠ 0 → answers (.scalarLoad a minor f) s (s.instrFault a 0x0105 0x03 (x % 65536)))
        ∧ (x % n ≠ 0 → minor.toNat.testBit 2 = false →
            answers (.scalarStore a minor f) s (s.instrFault a 0x0105 0x03 (x % 65536)))
        ∧ (x % n = 0 → minor.toNat.testBit 4 = true → x + n > sl.allot.bufLen →
            answers (.scalarLoad a minor f) s (s.tileFault a 0x0220 0x20 sl.allot.bufLen (x + n - sl.allot.bufLen))))

/-- R114: each atomic gives dst the old word and memory the new one, where the aligned word may be read and written and its
extent is not moving. -/
def Obligations.AtomicResult : Prop :=
  ∀ (s : State) (a : At) (f : Fields), s.Ready a 8 →
    let sl := s.at_ a
    let x := (sl.rs f.src1).toNat
    let old := BitVec.ofNat 64 (ofBytes (s.devRead x 8))
    let y := sl.rs f.src2
    let gives (c : Instr) (new : Word) : Prop :=
      answers c s (((((s.devSpend (s.whoAt a) true x 8).passFree x 8).devWrite sl.id.ctx x (toBytes 8 new.toNat))).wrote a
        f.dst old)
    x % 8 = 0 → s.devStop (s.whoAt a) true x 8 = none → s.devStop (s.whoAt a) false x 8 = none →
    (∀ e ∈ blocksOf extentBytes (x % 2 ^ 52) 8, (s.home e).state ≠ 3) →
    (s.Legal a amoUse f → gives (.amoadd a f) (old + y) ∧ gives (.amoswap a f) y
        ∧ gives (.amomax a f) (if old.toInt < y.toInt then y else old)
        ∧ gives (.amomin a f) (if old.toInt < y.toInt then old else y))
      ∧ (s.Legal a { amoUse with src3 := .s } f → gives (.amocas a f) (if old = y then sl.rs f.src3 else old))

/-- R115: a branch goes to pc + 8 × imm where its comparison holds, and to the next instruction where it does not; a taken
transfer outside the code section, or to no multiple of 8, takes PC_OUT_OF_CODE. R115: JAL goes to pc + 8 × imm and JALR to
s[src1] + 8 × imm; both write the offset of the next instruction to dst. R108, R109, R139: a word of an unassigned major or
minor opcode takes ILLEGAL_OPCODE in the native profile, with the minor as its info; while the hub runs the event is the next
one detected, in the layout of R139, the slot stops, and a live job that has not ended has its first fault. -/
def Obligations.ControlFlow : Prop :=
  (∀ (s : State) (a : At) (f : Fields), s.Ready a 8 → s.Legal a branchUse f →
      let sl := s.at_ a
      let x := sl.rs f.src1
      let y := sl.rs f.src2
      let t := (BitVec.ofNat 64 sl.pc + 8 * f.imm.signExtend 64).toNat
      let gives (c : Instr) (taken : Prop) : Prop :=
        (¬ taken → answers c s (s.advance a 8))
          ∧ (taken → t % 8 = 0 → (sl.code = 0 ∨ t < (s.code sl.code).codeBytes) → answers c s (s.jumpTo a t))
          ∧ (taken → (t % 8 ≠ 0 ∨ (sl.code ≠ 0 ∧ (s.code sl.code).codeBytes ≤ t)) →
              answers c s (s.instrFault a 0x010B 0x04 0))
      gives (.beq a f) (x = y) ∧ gives (.bne a f) (x ≠ y) ∧ gives (.blt a f) (x.toInt < y.toInt)
        ∧ gives (.bge a f) (y.toInt ≤ x.toInt) ∧ gives (.bltu a f) (x.toNat < y.toNat) ∧ gives (.bgeu a f) (y.toNat ≤ x.toNat)) ∧
  (∀ (s : State) (a : At) (f : Fields), s.Ready a 8 →
      let sl := s.at_ a
      let gives (c : Instr) (t : Nat) : Prop :=
        t % 8 = 0 → (sl.code = 0 ∨ t < (s.code sl.code).codeBytes) →
          answers c s ((s.setAt a (sl.ws f.dst (BitVec.ofNat 64 (sl.pc + 8)))).jumpTo a t)
      (s.Legal a { dst := .s, src1 := .none_, src2 := .none_, src3 := .none_, imm := [] } f →
          gives (.jal a f) (BitVec.ofNat 64 sl.pc + 8 * f.imm.signExtend 64).toNat)
        ∧ (s.Legal a { dst := .s, src1 := .s, src2 := .none_, src3 := .none_, imm := [] } f →
          gives (.jalr a f) (sl.rs f.src1 + 8 * f.imm.signExtend 64).toNat)) ∧
  (∀ (s : State) (a : At) (w : Word), s.Ready a 8 → (s.at_ a).id.profile = false → s.hub.running = true →
      let major := w.toNat / 2 ^ 58
      let minor := w.toNat / 2 ^ 52 % 64
      opcodeAssigned major minor = false →
      ∃ t, answers (.illegalOpcode a w) s t ∧ (t.at_ a).faulted = true ∧ (t.at_ a).pc = (s.at_ a).pc
        ∧ t.mem = s.mem
        ∧ t.ev.detected = s.ev.detected ++ [{
            time := s.time, boot := s.ev.bootCount % 65536, code := 0x0101, sev := 2, die := a.core / 24, cls := 0,
            index := a.core, ctx := (s.at_ a).id.ctx, fn := (s.job (s.at_ a).id.ctx).fn,
            detail := a.core * 2 ^ 56 + a.slot * 2 ^ 54 + major * 2 ^ 48 + minor * 2 ^ 32 + (s.at_ a).pc % 2 ^ 32 }]
        ∧ ((s.at_ a).id.ctx ≠ 0 → (s.job (s.at_ a).id.ctx).live = true → (s.job (s.at_ a).id.ctx).faulted = false →
            (s.job (s.at_ a).id.ctx).state < 3 →
            (t.job (s.at_ a).id.ctx).faulted = true ∧ (t.job (s.at_ a).id.ctx).faultCode = 0x0101))

/-- R39, R110 to R112, R115: what a scalar instruction that computes or branches leaves alone, whatever it does (completes,
waits or faults): memory, semaphores, the registers, buffer and accumulators of its own slot but for s[dst], every other
slot, and what is outside the cores but for events and the fault of its job. R113, R114: a scalar store or an atomic writes
no byte of memory outside the bytes at its address, and a load none at all; a store or load of the operand buffer, by minor
bit 4, writes no byte of memory. -/
def Obligations.ScalarFrames : Prop :=
  (∀ (s t : State) (a : At) (f : Fields) (c : Instr),
      (∃ form : AluForm, c ∈ [.add a form f, .sub a form f, .and a form f, .or a form f, .xor a form f, .sll a form f,
          .srl a form f, .sra a form f, .slt a form f, .sltu a form f, .min a form f, .max a form f, .mul a form f,
          .mulh a form f, .mulhu a form f, .div a form f, .divu a form f, .rem a form f, .remu a form f,
          .movi a f, .movhi a f, .movDs a f, .movAs a f, .beq a f, .bne a f, .blt a f, .bge a f, .bltu a f, .bgeu a f,
          .jal a f, .jalr a f]) →
      exec c s = .next t →
      t.mem = s.mem ∧ t.sems = s.sems ∧ t.hub = s.hub ∧ t.levee = s.levee ∧ t.host = s.host ∧ t.polders = s.polders
        ∧ t.objs = s.objs ∧ t.media = s.media ∧ t.power = s.power ∧ t.time = s.time
        ∧ (∀ c k, ¬ (c = a.core ∧ k = a.slot) → t.slot c k = s.slot c k)
        ∧ (t.core a.core).buf = (s.core a.core).buf ∧ (t.core a.core).acc = (s.core a.core).acc
        ∧ (∀ r, r ≠ f.dst → (t.at_ a).rs r = (s.at_ a).rs r)
        ∧ (t.at_ a).d = (s.at_ a).d ∧ (t.at_ a).a = (s.at_ a).a ∧ (t.at_ a).v = (s.at_ a).v ∧ (t.at_ a).p = (s.at_ a).p) ∧
  (∀ (s t : State) (a : At) (f : Fields) (minor : BitVec 6) (x : Nat),
      let sl := s.at_ a
      let at_ := (sl.rs f.src1 + f.imm.signExtend 64).toNat % 2 ^ 52
      let word := (sl.rs f.src1).toNat % 2 ^ 52
      (exec (.scalarLoad a minor f) s = .next t → mapGet 0 t.mem.bytes x = mapGet 0 s.mem.bytes x)
        ∧ (exec (.scalarStore a minor f) s = .next t →
          (minor.toNat.testBit 4 = true ∨ ∀ i < 2 ^ (minor.toNat % 4), x ≠ s.keyOf (at_ + i)) →
          mapGet 0 t.mem.bytes x = mapGet 0 s.mem.bytes x)
        ∧ (∀ c ∈ [Instr.amoadd a f, .amoswap a f, .amomax a f, .amomin a f, .amocas a f], exec c s = .next t →
          (∀ i < 8, x ≠ s.keyOf (word + i)) → mapGet 0 t.mem.bytes x = mapGet 0 s.mem.bytes x))

/-! ### Vector instructions -/

/-- R116, R117, R429: vector floating point in FP32 or BF16 lanes, under predication, with the guarded arithmetic at rest.
Where it rests on the model's own readings and choices: log entry 19. -/
def Obligations.VectorFloatResult : Prop :=
  ∀ (s : State) (a : At) (f : Fields), s.Ready a 8 → (s.at_ a).qVec = [] → a.upset = .ok →
    let sl := s.at_ a
    let ready (src2 src3 : Kind) (fmts : List Nat) : Prop := s.Legal a (vUse .v .v src2 src3) f ∧ f.fmt ∈ fmts
    let gives (c : Instr) (g : Lane → Lane → Lane → Lane) : Prop := answers c s (s.done a 8
      (sl.wvPred f (fun i => g (sl.lane f.src1 i) (sl.lane f.src2 i) (sl.lane f.src3 i))))
    (ready .v .none_ [0, 1] →
        gives (.fadd a f) (fpLane f.fmt (fun x y _ => x.add y))
          ∧ gives (.fsub a f) (fpLane f.fmt (fun x y _ => x.sub y))
          ∧ gives (.fmul a f) (fpLane f.fmt (fun x y _ => x.mul y))
          ∧ gives (.fmin a f) (fun x y _ => fpLane f.fmt (fun p q _ => fvMin p q) x y 0)
          ∧ gives (.fmax a f) (fun x y _ => fpLane f.fmt (fun p q _ => fvMax p q) x y 0))
      ∧ (ready .v .v [0, 1] →
        gives (.fma a f) (fpLane f.fmt (fun x y z => (x.mul y).add z))
          ∧ gives (.fms a f) (fpLane f.fmt (fun x y z => (x.mul y).sub z))
          ∧ gives (.fnma a f) (fpLane f.fmt (fun x y z => (x.mul y).neg.add z)))
      ∧ (ready .none_ .none_ [0, 1] →
        gives (.fabs a f) (fun x _ _ => x &&& (if f.fmt = 1 then 0x7FFF7FFF else 0x7FFFFFFF))
          ∧ gives (.fneg a f) (fun x _ _ => x ^^^ (if f.fmt = 1 then 0x80008000 else 0x80000000)))
      ∧ (ready .none_ .none_ [0] →
        gives (.fcvtW a f) (fun x _ _ => toInt32 (.ofLane x))
          ∧ gives (.fcvtS a f) (fun x _ _ => (Fv.ofInt x.toInt).toLane)
          ∧ gives (.bunpkL a f) (fun x _ _ => (bf16.decode (x.toNat % 65536)).toLane)
          ∧ gives (.bunpkH a f) (fun x _ _ => (bf16.decode (x.toNat / 65536)).toLane))
      ∧ (ready .v .none_ [0] → gives (.bpack a f) (fun x y _ => halves (bf16.round (.ofLane x)) (bf16.round (.ofLane y))))

/-- R117: compares write a predicate, of FP32 or INT32 lanes. -/
def Obligations.VectorCompareResult : Prop :=
  ∀ (s : State) (a : At) (f : Fields), s.Ready a 8 → (s.at_ a).qVec = [] → s.Legal a (vUse .p .v .v .none_) f →
    let sl := s.at_ a
    let gives (c : Instr) (g : Lane → Lane → Bool) : Prop := answers c s (s.done a 8
      (sl.wpPred f (fun i => g (sl.lane f.src1 i) (sl.lane f.src2 i))))
    (f.fmt = 0xD →
        gives (.cmpEq a f) (fun x y => decide (x.toInt = y.toInt)) ∧ gives (.cmpNe a f) (fun x y => decide (x.toInt ≠ y.toInt))
          ∧ gives (.cmpLt a f) (fun x y => decide (x.toInt < y.toInt)) ∧ gives (.cmpLe a f) (fun x y => decide (x.toInt ≤ y.toInt))
          ∧ gives (.cmpUnord a f) (fun _ _ => false) ∧ gives (.cmpLtu a f) (fun x y => decide (x.toNat < y.toNat)))
      ∧ (f.fmt = 0 →
        gives (.cmpEq a f) (fun x y => (Fv.ofLane x).eq (.ofLane y)) ∧ gives (.cmpNe a f) (fun x y => !(Fv.ofLane x).eq (.ofLane y))
          ∧ gives (.cmpLt a f) (fun x y => (Fv.ofLane x).lt (.ofLane y))
          ∧ gives (.cmpLe a f) (fun x y => (Fv.ofLane x).le (.ofLane y))
          ∧ gives (.cmpUnord a f) (fun x y => (Fv.ofLane x).isNan || (Fv.ofLane y).isNan))

/-- R117: vector integer arithmetic in INT32 lanes. -/
def Obligations.VectorIntegerResult : Prop :=
  ∀ (s : State) (a : At) (f : Fields), s.Ready a 8 → (s.at_ a).qVec = [] → s.Legal a (vUse .v .v .v .none_) f → f.fmt = 0xD →
    let sl := s.at_ a
    let gives (c : Instr) (g : Lane → Lane → Lane) : Prop := answers c s (s.done a 8
      (sl.wvPred f (fun i => g (sl.lane f.src1 i) (sl.lane f.src2 i))))
    gives (.iadd a f) (fun x y => BitVec.ofNat 32 (x.toNat + y.toNat))
      ∧ gives (.isub a f) (fun x y => BitVec.ofInt 32 (x.toInt - y.toInt))
      ∧ gives (.imul a f) (fun x y => BitVec.ofNat 32 (x.toNat * y.toNat))
      ∧ gives (.iand a f) (fun x y => x &&& y)
      ∧ gives (.ior a f) (fun x y => x ||| y)
      ∧ gives (.ixor a f) (fun x y => x ^^^ y)
      ∧ gives (.ishl a f) (fun x y => BitVec.ofNat 32 (x.toNat * 2 ^ (y.toNat % 32)))
      ∧ gives (.ishr a f) (fun x y => BitVec.ofNat 32 (x.toNat / 2 ^ (y.toNat % 32)))
      ∧ gives (.isar a f) (fun x y => BitVec.ofInt 32 (x.toInt / 2 ^ (y.toNat % 32)))
      ∧ gives (.imin a f) (fun x y => if x.toInt < y.toInt then x else y)
      ∧ gives (.imax a f) (fun x y => if x.toInt < y.toInt then y else x)
      ∧ gives (.iminu a f) (fun x y => if x.toNat < y.toNat then x else y)
      ∧ gives (.imaxu a f) (fun x y => if x.toNat < y.toNat then y else x)

/-- R117, R120: broadcast, select, iota, move and the permutes. R122: predicate logic. PFIRST gives the lowest min(s[src1],
1,024) lanes, PCOUNT the number of set bits, PANY whether one is set. -/
def Obligations.PermuteAndPredicate : Prop :=
  (∀ (s : State) (a : At) (f : Fields), s.Ready a 8 → (s.at_ a).qVec = [] →
      let sl := s.at_ a
      let gives (c : Instr) (u : Use) (fmts : List Nat) (g : Nat → Lane) : Prop :=
        s.Legal a u f → f.fmt ∈ fmts → answers c s (s.done a 8 (sl.wvPred f g))
      gives (.vbcast a f) (vUse .v .s .none_ .none_) [0, 0xD] (fun _ => (sl.rs f.src1).setWidth 32)
        ∧ gives (.vsel a f) (vUse .v .v .v .p) [0, 0xD]
          (fun i => if (sl.rp f.src3.toNat).getLsbD i then sl.lane f.src1 i else sl.lane f.src2 i)
        ∧ gives (.viota a f) (vUse .v .none_ .none_ .none_) [0xD] (fun i => BitVec.ofNat 32 i)
        ∧ gives (.vmov a f) (vUse .v .v .none_ .none_) [0, 0xD] (fun i => sl.lane f.src1 i)
        ∧ gives (.vperm a f) (vUse .v .v .v .none_) [0, 1, 0xD] (fun i => sl.lane f.src1 ((sl.lane f.src2 i).toNat % 1024))
        ∧ gives (.vrot a f) (vUse .v .v .none_ .s) [0, 1, 0xD] (fun i => sl.lane f.src1 ((i + (sl.rs f.src3).toNat) % 1024))
        ∧ gives (.vzip a f) (vUse .v .v .v .none_) [0, 1, 0xD]
          (fun i => if i % 2 = 0 then sl.lane f.src1 (i / 2) else sl.lane f.src2 (i / 2))
        ∧ gives (.vunzip a f) (vUse .v .v .v .none_) [0, 1, 0xD]
          (fun i => if i < 512 then sl.lane f.src1 (2 * i) else sl.lane f.src2 (2 * (i - 512)))
        ∧ gives (.vtrans32 a f) (vUse .v .v .none_ .none_) [0, 1, 0xD] (fun i => sl.lane f.src1 (32 * (i % 32) + i / 32))) ∧
  (∀ (s : State) (a : At) (f : Fields), s.Ready a 8 → (s.at_ a).qVec = [] →
      let sl := s.at_ a
      let x := sl.rp f.src1.toNat
      let y := sl.rp f.src2.toNat
      let gives (c : Instr) (u : Use) (v : Slot) : Prop := s.Legal a u f → answers c s (s.done a 8 v)
      gives (.pand a f) (pUse .p .p .p) (sl.wp f.dst.toNat (x &&& y))
        ∧ gives (.por a f) (pUse .p .p .p) (sl.wp f.dst.toNat (x ||| y))
        ∧ gives (.pxor a f) (pUse .p .p .p) (sl.wp f.dst.toNat (x ^^^ y))
        ∧ gives (.pandn a f) (pUse .p .p .p) (sl.wp f.dst.toNat (x &&& ~~~y))
        ∧ gives (.pnot a f) (pUse .p .p .none_) (sl.wp f.dst.toNat (~~~x))
        ∧ gives (.pset a f) (pUse .p .none_ .none_) (sl.wp f.dst.toNat (BitVec.allOnes 1024))
        ∧ gives (.pclr a f) (pUse .p .none_ .none_) (sl.wp f.dst.toNat 0)
        ∧ (s.Legal a (pUse .p .s .none_) f → ∃ p : PredBits, answers (.pfirst a f) s (s.done a 8 (sl.wp f.dst.toNat p))
          ∧ ∀ i : Nat, i < 1024 → p.getLsbD i = decide (i < (sl.rs f.src1).toNat))
        ∧ gives (.pcount a f) (pUse .s .p .none_)
          (sl.ws f.dst (BitVec.ofNat 64 ((List.range 1024).filter (fun i => x.getLsbD i)).length))
        ∧ gives (.pany a f) (pUse .s .p .none_) (sl.ws f.dst (if x = 0 then 0 else 1)))

/-- R119, R121: vector loads, stores, gathers and scatters. Loads that pass their checks write the lanes of their elements
under predication; VLD takes whole lanes where the descriptor carries the lane format. Stores and scatters leave every
register and all of device memory as it was. -/
def Obligations.VectorMemoryResult : Prop :=
  ∀ (s : State) (a : At) (f : Fields), s.Ready a 8 → (s.at_ a).id.profile = false →
    let sl := s.at_ a
    let w := sl.rd f.src1.toNat
    let quiet (c : Instr) : Prop := ∃ t, answers c s t ∧ t.mem = s.mem ∧ (t.at_ a).s = sl.s ∧ (t.at_ a).v = sl.v
      ∧ (t.at_ a).p = sl.p ∧ (t.at_ a).d = sl.d ∧ (t.at_ a).a = sl.a ∧ (t.at_ a).pc = sl.pc + 8
    (vldStop false false f s a = none → answers (.vld a f) s (s.done a 8 (sl.wvPred f (fun i =>
        BitVec.ofNat 32 (ofBytes ((List.range 4).map (fun j =>
          BitVec.ofNat 8 (s.descByte a w (vldOffset sl f) (4 * i + j)))))))))
      ∧ (vldStop true false f s a = none → answers (.vldW a f) s (s.done a 8 (sl.wvPred f (fun i =>
        elemLane f.fmt (fp32.decode (sigmaBits sl f)) (decodeAt (descFmt w) (s.descByte a w (vldOffset sl f)) i)))))
      ∧ (gatherStop false f s a = none → answers (.vgather a f) s (((s.setAt a (sl.wvPred f (fun i =>
        BitVec.ofNat 32 (ofBytes ((List.range 4).map (fun j =>
          BitVec.ofNat 8 (s.descByte a w (4 * (sl.lane f.src2 i).toNat) j))))))).count a {}).advance a 8))
      ∧ (vldStop false true f s a = none → quiet (.vst a f))
      ∧ (vldStop true true f s a = none → quiet (.vstN a f))
      ∧ (gatherStop true f s a = none → quiet (.vscatter a f))

/-- R123: reductions over aligned segments of 2^g lanes: every lane of a segment takes its result under predication. The sums
add in the fixed pairwise order; a masked lane counts as the operation's identity. Where it rests on the model's own readings
and choices: log entries 17, 18. -/
def Obligations.ReductionResult : Prop :=
  ∀ (s : State) (a : At) (f : Fields), s.Ready a 8 → (s.at_ a).qVec = [] → a.upset = .ok → s.Legal a reduceUse f →
    reduceG f ≤ 10 →
    let sl := s.at_ a
    let g := reduceG f
    let gives (c : Instr) (red : List (Option Lane) → Lane) : Prop := answers c s ((s.done a 8
      (sl.wvPred f (fun i => ((List.range (1024 / 2 ^ g)).map (fun j => red (segment sl f g j))).getD (i / 2 ^ g) 0))).tick)
    (f.fmt = 0 →
        gives (.rsum a f) (fun l => pairTree addLane 0 g (l.map (fun x => x.getD 0)))
          ∧ gives (.rsumsq a f) (fun l => pairTree addLane 0 g (l.map (fun x => (x.map (fun y => mulLane y y)).getD 0)))
          ∧ gives (.rmax a f) (extremeSeg fvMax (.inf true))
          ∧ gives (.rmin a f) (extremeSeg fvMin (.inf false)))
      ∧ (f.fmt = 0xD → gives (.irsum a f) (fun l => (l.map (fun x => x.getD 0)).foldl (· + ·) 0))
      ∧ ((f.fmt = 0 ∨ f.fmt = 0xD) → (∀ j < 1024 / 2 ^ g, ∃ x ∈ segment sl f g j, x ≠ none) →
        gives (.argmax a f) (fun l => BitVec.ofNat 32 ((argSeg (fun x y => y.lt x) f.fmt l).getD 0))
          ∧ gives (.argmin a f) (fun l => BitVec.ofNat 32 ((argSeg (fun x y => x.lt y) f.fmt l).getD 0)))

/-! ### Data movement, semaphores and control -/

/-- R124, R126, R307: DMA in one run, memory copy and fill, and tier hints, where the accesses are permitted: the bytes
moved, the counted bytes and the post that falls due. R125: CVT reads rows in one format and quantises them into another; the
saturations, zero blocks and markers count, and device memory and every register stay as they were. Where it rests on the
model's own readings and choices: log entries 20, 21, 22. -/
def Obligations.DataMovement : Prop :=
  (∀ (s : State) (a : At) (f : Fields), s.Ready a 8 →
      let sl := s.at_ a
      let who := s.whoAt a
      let dst := (sl.rs f.dst).toNat
      let src := (sl.rs f.src1).toNat
      let n := (sl.rs f.src2).toNat
      let moved (t : State) (len : Nat) : State := ((t.countDma a len).duePost a (postOf f)).advance a 8
      (dmaBbStop f s a = none → ∃ bs, bs.length = descLen (sl.rd f.dst.toNat)
          ∧ answers (.dmaBb a f) s (moved (((s.bufWrite a (descBase (sl.rd f.dst.toNat)) bs).countClip a
            (clipped sl (sl.rd f.dst.toNat) || clipped sl (sl.rd f.src1.toNat)))) (descLen (sl.rd f.dst.toNat))))
        ∧ (dmaStop false f s a = none → shapeRows (sl.rs f.src2) = 1 → descLen (sl.rd f.dst.toNat) ≠ 0 →
            s.devStop who false src (descLen (sl.rd f.dst.toNat)) = none →
            answers (.dmaLd a f) s (moved (((((s.devSpend who false src (descLen (sl.rd f.dst.toNat))).emulateTier a src).passFree
              src (descLen (sl.rd f.dst.toNat))).bufWrite a (descBase (sl.rd f.dst.toNat)) (s.devRead src
                (descLen (sl.rd f.dst.toNat)))).countClip a (clipped sl (sl.rd f.dst.toNat))) (descLen (sl.rd f.dst.toNat))))
        ∧ (dmaStop true f s a = none → shapeRows (sl.rs f.src2) = 1 → descLen (sl.rd f.dst.toNat) ≠ 0 →
            s.devStop who true src (descLen (sl.rd f.dst.toNat)) = none →
            answers (.dmaSt a f) s (moved ((((s.devSpend who true src (descLen (sl.rd f.dst.toNat))).emulateTier a src).devWrite
              sl.id.ctx src (s.bufBytes a (descBase (sl.rd f.dst.toNat)) (descLen (sl.rd f.dst.toNat)))).countClip a
                (clipped sl (sl.rd f.dst.toNat))) (descLen (sl.rd f.dst.toNat))))
        ∧ (s.Legal a (mUse .s .s .s .none_) f → sl.qDma = [] → dst % 16 = 0 → src % 16 = 0 → n % 16 = 0 →
            s.devStop who false src n = none → s.devStop who true dst n = none →
            answers (.mcopy a f) s (moved ((((((s.devSpend who false src n).devSpend who true dst n).passFree src n).devWrite
              sl.id.ctx dst (s.devRead src n)).emulateTier a src).emulateTier a dst) n))
        ∧ (s.Legal a (mUse .s .none_ .s .s) f → sl.qDma = [] → dst % 16 = 0 → n % 16 = 0 → s.devStop who true dst n = none →
            answers (.mfill a f) s (moved (((s.devSpend who true dst n).devWrite sl.id.ctx dst
              ((List.range n).map (fun i => BitVec.ofNat 8 ((sl.rs f.src3).toNat / 2 ^ (8 * (i % 8)))))).emulateTier a dst) n))) ∧
  (∀ (s : State) (a : At) (f : Fields), s.Ready a 8 → cvtStop f s a = none → (s.at_ a).id.profile = false →
      let sl := s.at_ a
      let src := sl.rd f.src1.toNat
      let dst := sl.rd f.dst.toNat
      ∃ n rows, cvtShape (descFmt src) (descLen src) (sl.rs f.src3).toNat = some (n, rows)
        ∧ descLen dst = rows * rowBytes (descFmt dst) n
        ∧ ∃ given t, answers (.cvt a f) s t
          ∧ t = ((s.bufWrite a (descBase dst) (convertRows (descFmt src) (descFmt dst) given (s.descByte a src 0) n 0 rows).1).count
              a (convertRows (descFmt src) (descFmt dst) given (s.descByte a src 0) n 0 rows).2).advance a 8
          ∧ t.mem = s.mem)

/-- R130 to R132: a post adds its count where the sum fits, SEM.SET sets the value, each then serving the waiters in order;
SEM.READ reads it; a wait that is met takes its count (WAITGE leaves it) and gives 1; one that is not met stands at the end
of the waiters and holds the slot. R132: the timeout of a pending wait gives 0 and leaves the order of the waiters; a wait
without a limit has none. Where it rests on the model's own readings and choices: log entry 24. -/
def Obligations.Semaphores : Prop :=
  (∀ (s : State) (a : At) (f : Fields), s.Ready a 8 →
      let sl := s.at_ a
      let i := ((sl.rs f.src1).toNat + f.imm.toNat % 65536) % 65536
      let n := (sl.rs f.src2).toNat % 2 ^ 32
      let m := s.sem sl.id.ctx i
      m.poison = false →
      (s.Legal a (semUse .none_ .s .none_) f → s.outstanding a = false → m.value + n ≤ 0xFFFFFFFF →
          answers (.semPost a f) s ((s.semValue sl.id.ctx i (m.value + n)).advance a 8))
        ∧ (s.Legal a (semUse .none_ .s .none_) f → s.outstanding a = false →
          answers (.semSet a f) s ((s.semValue sl.id.ctx i n).advance a 8))
        ∧ (s.Legal a (semUse .s .none_ .none_) f → answers (.semRead a f) s (s.wrote a f.dst (BitVec.ofNat 64 m.value)))
        ∧ (s.Legal a (semUse .s .s .s) f → (n = 0 ∨ (m.waiters = [] ∧ n ≤ m.value)) →
          answers (.semWaitge a f) s (s.wrote a f.dst 1)
            ∧ answers (.semWait a f) s ((s.setSem sl.id.ctx i { m with value := m.value - n }).wrote a f.dst 1))
        ∧ (s.Legal a (semUse .s .s .s) f → n ≠ 0 → (m.waiters ≠ [] ∨ m.value < n) →
          ∃ t u, answers (.semWait a f) s t ∧ answers (.semWaitge a f) s u
            ∧ (t.sem sl.id.ctx i).value = m.value ∧ (u.sem sl.id.ctx i).value = m.value
            ∧ (t.at_ a).pc = sl.pc ∧ (t.at_ a).wait = some (.sem i n f.dst.toNat false ((sl.rs f.src3).toNat % 2 ^ 32))
            ∧ (u.at_ a).wait = some (.sem i n f.dst.toNat true ((sl.rs f.src3).toNat % 2 ^ 32)))) ∧
  (∀ (s : State) (a : At) (i n dst us : Nat) (keep : Bool), (s.at_ a).wait = some (.sem i n dst keep us) →
      (us = 0 → answers (.semWaitTimeout a) s s)
        ∧ (us ≠ 0 → answers (.semWaitTimeout a) s
          ((s.wake (4 * a.core + a.slot) 0).dropWaiter (s.at_ a).id.ctx i (4 * a.core + a.slot))))

/-- R134: BAR.SYNC adds the task to those arrived at its barrier; the last one to arrive releases the generation. -/
def Obligations.BarrierResult : Prop :=
  ∀ (s : State) (a : At) (f : Fields), s.Ready a 8 →
    s.Legal a { dst := .none_, src1 := .none_, src2 := .none_, src3 := .none_, imm := [(16, 16), (8, 8)] } f →
    let sl := s.at_ a
    let i := f.imm.toNat % 256
    let j := s.job sl.id.ctx
    let b := j.barrier sl.stage i
    let s1 := (s.setJob sl.id.ctx (j.setBarrier sl.stage i { b with arrived := b.arrived ++ [sl.task] })).advance a 0
    let s2 := s1.setAt a { s1.at_ a with wait := some (.bar i b.gen) }
    answers (.barSync a f) s (s2.settleBarrier (s2.flipHeld sl.id.ctx sl.stage i) sl.id.ctx sl.stage i)

/-- R128, R131, R136, R137, R447: NOP, FENCE and WAIT.ENG only advance once nothing is outstanding, CNT.READ reads a counter,
TIME the timestamp, TRAP ends the job with fault TRAP, STEST puts the core under test for context 0. R134, R136: END ends the
task: its place among the job's tasks says so, the slot is freed, and the barriers of its group are settled without it. R307,
R308: TIER.UP and TIER.DOWN write the number of extents named and hint each of them, TIER.WHERE writes the home entry's
state, tier and slices. Where it rests on the model's own readings and choices: log entries 24, 30, 126. -/
def Obligations.SystemInstructions : Prop :=
  (∀ (s : State) (a : At) (f : Fields), s.Ready a 8 →
      let sl := s.at_ a
      (s.Legal a (xUse .none_ [(0, 32)]) f → answers (.nop a f) s (s.advance a 8))
        ∧ (s.Legal a (xUse .none_ [(2, 30)]) f → f.imm.toNat % 4 ≠ 3 → s.outstanding a = false →
          answers (.fence a f) s (s.advance a 8))
        ∧ (s.Legal a { dst := .none_, src1 := .none_, src2 := .none_, src3 := .none_, imm := [(16, 16), (6, 10)] } f →
          s.engBusy a (f.imm.toNat % 64) = false → answers (.waitEng a f) s (s.advance a 8))
        ∧ (∀ v, s.Legal a (xUse .s [(8, 24)]) f → counterValue sl s.freeCtr (f.imm.toNat % 256) = some v →
          answers (.cntRead a f) s ((s.setAt a (sl.ws f.dst v)).tick.advance a 8))
        ∧ (s.Legal a (xUse .s [(0, 32)]) f → answers (.time a f) s (s.wrote a f.dst (BitVec.ofNat 64 s.time)))
        ∧ (s.Legal a (xUse .none_ [(16, 16)]) f → answers (.trap a f) s (s.instrFault a 0x0108 0x3E (f.imm.toNat % 65536)))
        ∧ (s.Legal a (xUse .none_ [(0, 32)]) f → sl.id.ctx = 0 →
          ∃ t, answers (.stest a f) s t ∧ (t.core a.core).health.underTest = true ∧ (t.at_ a).pc = sl.pc + 8)
        ∧ (s.Legal a (xUse .none_ [(0, 32)]) f → sl.id.ctx ≠ 0 → answers (.stest a f) s (s.instrFault a 0x0107 0x3E 0))) ∧
  (∀ (s : State) (a : At) (f : Fields), s.Ready a 8 → s.Legal a (xUse .none_ [(0, 32)]) f → s.outstanding a = false →
      let sl := s.at_ a
      let j := s.job sl.id.ctx
      j.live = true →
      answers (.endTask a f) s
        (((s.setJob sl.id.ctx (j.setTask sl.stage sl.task { j.task sl.stage sl.task with state := 4 })).freeSlot a.core
          a.slot).settleGroup sl.id.ctx sl.stage)) ∧
  (∀ (s : State) (a : At) (f : Fields), s.Ready a 8 → s.variant ≠ .tbx20d →
      let sl := s.at_ a
      let xs := blocksOf extentBytes (sl.rs f.src1).toNat (sl.rs f.src2).toNat
      let hinted (tier : Nat) : State :=
        let s' := xs.foldl (fun s x => s.hint a tier x) s
        s'.done a 8 ((s'.at_ a).ws f.dst (BitVec.ofNat 64 xs.length))
      (tierStop false f s a = none → answers (.tierUp a f) s (hinted 0) ∧ answers (.tierDown a f) s (hinted 1))
        ∧ (tierStop true f s a = none → answers (.tierWhere a f) s (s.wrote a f.dst (BitVec.ofNat 64
            ((s.home ((sl.rs f.src1).toNat / extentBytes)).state + (s.home ((sl.rs f.src1).toNat / extentBytes)).tier * 16
              + (s.home ((sl.rs f.src1).toNat / extentBytes)).slicesM1 * 64)))))

/-- R40 to R44, R60, R131: a lantern's write of CORE_CTX_ID or CORE_CTX_ALLOT acts on a slot that exists; a line of
instructions that arrives lets its slot issue again; the oldest due post of a slot is delivered. R54, R56: an idle engine
takes the head command of the next slot in order; the arbiter grants the oldest claim whose engines no older claim names and
no granted claim holds. Where it rests on the model's own readings and choices: log entry 84. -/
def Obligations.SlotsAndEngines : Prop :=
  (∀ (s : State) (a : At) (v : Lane) (start : TaskStart), a.core < 192 → a.slot < 4 →
      let sl := s.at_ a
      answers (.coreCtxIdWrite a.core a.slot v start) s (s.writeCtxId a.core a.slot v.toNat start)
        ∧ answers (.coreCtxAllotWrite a.core a.slot v) s (s.writeAllot a.core a.slot v.toNat)
        ∧ (∀ i rest, sl.posts = i :: rest → s.writesHeld sl.id.ctx = false →
          answers (.completionPost a) s ((s.setAt a { sl with posts := rest }).semPost1 sl.id.ctx i (some a)))
        ∧ (sl.held = some .icacheMiss → sl.id.resident = true → sl.code ≠ 0 →
          (s.core a.core).icache.contains (sl.code, sl.pc / 256) = false →
          s.devStop (s.whoAt a) false ((s.code sl.code).addr + 256 + sl.pc / 256 * 256) 256 = none →
          ∃ t, answers (.icacheFill a) s t ∧ (t.at_ a).held = none
            ∧ (t.core a.core).icache.contains (sl.code, sl.pc / 256) = true)) ∧
  (∀ (s : State) (core : Nat) (eng : Engine),
      (∀ k, s.turn core eng (fun _ => true) = some k →
          ∃ t, answers (.engineDispatch core eng) s t ∧ mapGet 0 (t.core core).taken (engNum eng) = k + 1
            ∧ (t.core core).slots = (s.core core).slots)
        ∧ (∀ key q rest, s.firstClaim core [] (s.core core).claims = some key →
          (s.slot core (key / 8)).queueOf (engOf (key % 8)) = q :: rest →
          ∃ t, answers (.claimGrant core) s t ∧ (t.core core).claims = (s.core core).claims.filter (fun k => decide (k ≠ key))
            ∧ (t.slot core (key / 8)).queueOf (engOf (key % 8)) = { q with granted := true } :: rest))

/-! ### Engines -/

/-- R147, R155: a TMM that passes its checks reads its table once and joins the tensor sub-queue with its registers captured;
nothing else waits for it. R54, R162: the tensor array runs one tile of the TMM whose turn it is, and the round-robin has
then served its slot. Where it rests on the model's own readings and choices: log entries 28, 29. -/
def Obligations.TmmIssueAndTile : Prop :=
  (∀ (s : State) (a : At) (f : Fields) (w2 : Word), s.Ready a 16 → tmmStop f w2 s a = none →
      let sl := s.at_ a
      let t := s.tableAt a f
      let h := sl.ra f.dst.toNat
      let d := sl.rd f.src2.toNat
      queueStop sl .tensor (tmmSpans t h d) = none →
      ∃ u q r, answers (.tmm a f w2) s u ∧ (u.at_ a).qTa = sl.qTa ++ [q] ∧ q.flight = .tmm r ∧ q.post = postOf f
        ∧ q.claims = [] ∧ r.table = t ∧ r.handle = h ∧ r.dstage = d ∧ r.tile = 0
        ∧ (u.at_ a).pc = sl.pc + 16 ∧ (u.at_ a).s = sl.s ∧ u.mem = s.mem) ∧
  (∀ (s : State) (core k : Nat) (q : Queued) (r : TmmRun) (rest : List Queued) (u : TileUpset),
      s.turn core .tensor isTmm = some k → (s.slot core k).qTa = q :: rest → q.flight = .tmm r →
      answers (.tensorTileRun core u) s ((s.served core .tensor k).runTile { core := core, slot := k } q r u))

/-- R163 to R166: the accumulator instructions. TACC.ZERO writes +0 to the tile; TACC.VRD gives a vector register the entries
of a chunk and 0 beyond the tile; TACC.VWR writes those of a chunk that lie in the tile; TACC.LD of the operand buffer writes
the decoded elements and TACC.ST to it the quantised rows, with their post falling due. Where it rests on the model's own
readings and choices: log entry 25. -/
def Obligations.AccumulatorResult : Prop :=
  ∀ (s : State) (a : At) (f : Fields) (w2 : Word), s.Ready a 16 → (s.at_ a).id.profile = false →
    let sl := s.at_ a
    let h := sl.ra f.dst.toNat
    let g := sl.ra f.src1.toNat
    let d := sl.rd f.src2.toNat
    let off := (sl.rs f.src1).toNat
    let c := taccFmt f
    let p := taccPitch c (sl.rs f.src3).toNat (handleCols h)
    (s.Legal a { dst := .a, src1 := .none_, src2 := .none_, src3 := .none_, imm := [(0, 32)] } f →
        badWord2 false w2 [(0, 58)] = none → badHandle sl 0 47 f.dst.toNat = none →
        mustWait sl (some .tensor) [handleSpan h] = none →
        answers (.taccZero a f w2) s ((s.accWrite a (accBaseOf h) (List.replicate (handleSize h) 0)).advance a 16))
      ∧ (chunkStop f w2 s a = none → answers (.taccVrd a f w2) s (s.done a 16 (sl.wv f.dst (fun i =>
          if 1024 * chunkOf f + i < handleSize g then s.accAt a (accBaseOf g + (1024 * chunkOf f + i)) else 0))))
      ∧ (chunkStop f w2 s a = none → answers (.taccVwr a f w2) s
          ((s.accWrite a (accBaseOf g + 1024 * chunkOf f)
            ((List.range (min 1024 (handleSize g - 1024 * chunkOf f))).map (sl.lane f.dst))).advance a 16))
      ∧ (taccStop false c [0, 1, 2] f w2 s a = none → taccToBuf f = true → c ≠ 15 →
          s.rowsStop a true c off 0 p (handleRows h) (handleCols h) = none →
          ∃ excess, answers (.taccLd a f w2) s ((((s.tick.accWrite a (accBaseOf h)
            ((List.range (handleRows h)).flatMap (fun r =>
              (decodeRow c (fun i => s.descByte a d off (elemByteOff c (((r * p : Nat) : Int)) + i).toNat)
                (handleCols h)).map (fun e => e.val.toLane)))).countClip a excess).duePost a (postOf f)).advance a 16))
      ∧ (taccStop true c allFmts f w2 s a = none → taccToBuf f = true → c ≠ 15 →
          ∃ t, answers (.taccSt a f w2) s t ∧ t.mem = s.mem ∧ (t.at_ a).pc = sl.pc + 16
            ∧ (t.at_ a).posts = sl.posts ++ (match postOf f with | some i => [i] | none => []))

/-- R168, R169, R205: each elementwise function writes the lanes of its function, in the reference mode where the slot is in
it, and counts the values that saturate. Where it rests on the model's own readings and choices: log entries 31, 32. -/
def Obligations.SpecialFunctionResult : Prop :=
  ∀ (s : State) (a : At) (f : Fields), s.Ready a 8 → a.upset = .ok →
    let sl := s.at_ a
    let gives (c : Instr) (fn : SfuFn) (deriv : Bool) : Prop := sfuStop fn deriv f s a = none →
      let r := s.sfuLane (s.refMode a) fn (laneFmt [0, 1] f) (f.imm.toNat % 8) (deriv && f.imm.toNat.testBit 3) sl f
      answers c s (((((s.setAt a (sl.wvPred f (fun i => (r i).1))).count a
        { satOnStore := ((List.range 1024).map (fun i => if laneOn f sl i then (r i).2 else 0)).sum })).passN 2048).advance a 8)
    gives (.exp a f) .exp false ∧ gives (.exp2 a f) .exp2 false ∧ gives (.log a f) .log false
      ∧ gives (.log2 a f) .log2 false ∧ gives (.rcp a f) .rcp false ∧ gives (.rsqrt a f) .rsqrt false
      ∧ gives (.sqrt a f) .sqrt false ∧ gives (.sin a f) .sin false ∧ gives (.cos a f) .cos false
      ∧ gives (.tanh a f) .tanh false ∧ gives (.sigmoid a f) .sigmoid false ∧ gives (.erf a f) .erf false
      ∧ gives (.gelu a f) .gelu false ∧ gives (.geluT a f) .geluT false ∧ gives (.silu a f) .silu false
      ∧ gives (.softplus a f) .softplus false ∧ gives (.dgelu a f) .dgelu true ∧ gives (.dgeluT a f) .dgeluT true
      ∧ gives (.dsoftplus a f) .dsoftplus true ∧ gives (.dsilu a f) .dsilu true

/-- R176, R178, R180, R208: a row instruction that passes its checks joins its engine's sub-queue with the table bank in
force and claims the SFU and the vector unit; one of no rows leaves its post due. R176: a row of the command whose claim is
granted is written at its pitch behind the output descriptor's base, with its counts; the claim is given back, and the last
row completes the command. R191, R193: the inactive banks of a region are written once no core holds them; each core's flip
makes the written bank the active one. Where it rests on the model's own readings and choices: log entries 36, 37. -/
def Obligations.RowCommands : Prop :=
  (∀ (s : State) (a : At) (f : Fields), s.Ready a 8 →
      let sl := s.at_ a
      let block (c : Instr) (u : Use) (g : Nat) (r : RowCmd) : Prop :=
        s.blockAddr a g = none → s.Legal a u f → descReserved sl r.descs = none →
        (sl.id.profile = true ∨ blockReserved r.op r.fromAcc (s.paramBlock g) = none) → r.stop sl = none →
        answers c s ((((s.devSpend (s.whoAt a) false g 64).passFree g 64).startRows a r (postOf f)).advance a 8)
      (s.Legal a gateUse f → descReserved sl (gateCmd sl f).descs = none → (gateCmd sl f).stop sl = none →
          answers (.gate a f) s ((s.startRows a (gateCmd sl f) (postOf f)).advance a 8))
        ∧ block (.normFwd a f) fwdUse (sl.rs f.src2).toNat (fwdCmd .norm f sl (s.paramBlock (sl.rs f.src2).toNat))
        ∧ block (.smaxFwd a f) fwdUse (sl.rs f.src2).toNat (fwdCmd .smax f sl (s.paramBlock (sl.rs f.src2).toNat))
        ∧ block (.normBwd a f) (bwdUse (dyAcc f)) (sl.rs f.src3).toNat (bwdCmd .normBwd f sl (s.paramBlock (sl.rs f.src3).toNat))
        ∧ block (.smaxBwd a f) (bwdUse (dyAcc f)) (sl.rs f.src3).toNat (bwdCmd .smaxBwd f sl (s.paramBlock (sl.rs f.src3).toNat))
        ∧ (∀ (r : RowCmd) (post : Option Nat), r.rows ≠ 0 → ∃ q x, ((s.startRows a r post).at_ a).queueOf r.op.engine
              = sl.queueOf r.op.engine ++ [q] ∧ q.claims = [.sfu, .vector] ∧ q.granted = false ∧ q.post = post
            ∧ q.flight = .row x ∧ x.row = 0 ∧ x.rows = r.rows ∧ x.bank = (s.core a.core).tables.activeBank)) ∧
  (∀ (s : State) (a : At) (q : Queued) (r : RowRun), s.rowHead a = some (q, r) → a.upset = .ok →
      let c := outputFmt (descFmt r.din) r.dout
      let out := (s.rowOut a r).1
      let quant := quantRow c (storeGiven c r.qmode r.scale) out.vals
      let cnt : NumCount := { satOnStore := quant.sat, zeroBlocks := quant.zeros, markersRead := (s.rowOut a r).2 }
      answers (.rowCommandRow a) s
        (((((s.bufWrite a (descBase r.dout + r.row * outPitch c r.width)
          (quant.bytes.take (descLen r.dout - r.row * outPitch c r.width))).putLanes a out.side).count a cnt).passN
            out.used).updateHead a r.op.engine (if r.row + 1 ≥ r.rows then none
              else some { q with granted := false, flight := .row { r with row := r.row + 1, counted := r.counted.add cnt } }))) ∧
  (∀ (s : State) (region core : Nat),
      ((s.region region).tblStep = 2 → (∀ c ∈ coresOf region, (s.core c).heldInactive = 0) →
          ∃ t, answers (.sfuTableBankWrite region) s t ∧ (t.region region).tblStep = 4
            ∧ ∀ c ∈ coresOf region, (t.core c).tables.flipDue = true
              ∧ (t.core c).tables.activeBank = (s.core c).tables.activeBank
              ∧ (if (s.core c).tables.activeBank then (t.core c).tables.gen0 else (t.core c).tables.gen1)
                = (s.region region).tblGen)
        ∧ ((s.core core).tables.flipDue = true → ∃ t, answers (.sfuTableFlip core) s t
          ∧ (t.core core).tables.activeBank = !(s.core core).tables.activeBank ∧ (t.core core).tables.flipDue = false))

/-- R227, R228: a convolution or pooling instruction whose descriptor may be read and passes every check joins the sub-queue
of its engine. R227, R228, R108: the same in the native profile, where the reserved bits of the words, the registers and the
descriptor are 0 as well. R233, R240, R243: a pass of the command whose claim is granted runs where its penumbra rows are
there; one that waits for a counter gives its claim back, and a poisoned counter takes SEM_POISONED. Where it rests on the
model's own readings and choices: log entries 38, 39. -/
def Obligations.Convolution : Prop :=
  (∀ (s : State) (a : At) (f : Fields) (w2 : Word) (op : ConvOp), s.Ready a 16 → (s.at_ a).id.profile = true →
      let sl := s.at_ a
      let g := (sl.rs f.src1).toNat
      let r := convCmd op f w2 sl (s.convDesc g)
      let c : Instr := match op with
        | .conv => .conv a f w2
        | .maxpool => .maxpool a f w2
        | .avgpool => .avgpool a f w2
        | .dwconv => .dwconv a f w2
      s.convAddr a g = none → badWord2 true w2 [(0, 43)] = none → s.convStop a r = none → queueStop sl .conv (r.spans sl) = none →
      answers c s ((((s.devSpend (s.whoAt a) false g 128).passFree g 128).startConv a r (postOf f)).advance a 16)) ∧
  (∀ (s : State) (a : At) (f : Fields) (w2 : Word) (op : ConvOp), s.Ready a 16 → (s.at_ a).id.profile = false →
      let sl := s.at_ a
      let g := (sl.rs f.src1).toNat
      let r := convCmd op f w2 sl (s.convDesc g)
      let c : Instr := match op with
        | .conv => .conv a f w2
        | .maxpool => .maxpool a f w2
        | .avgpool => .avgpool a f w2
        | .dwconv => .dwconv a f w2
      s.convAddr a g = none → s.Legal a (convUse op) f → badWord2 false w2 [(0, 43)] = none →
      (op = .conv → fieldOf (sl.ra r.acc).toNat 38 26 = 0) → fieldOf (sl.rd r.dline).toNat 52 12 = 0 →
      (op = .conv ∨ op = .dwconv → fieldOf (sl.rd r.dwst).toNat 52 12 = 0) →
      (sl.rs (w2.extractLsb' 53 5)).toNat < 65536 → convReserved r.desc = none → s.convStop a r = none →
      queueStop sl .conv (r.spans sl) = none →
      ∃ t q x, answers c s t ∧ (t.at_ a).qCe = sl.qCe ++ [q] ∧ q.flight = .conv x ∧ x.op = op ∧ x.desc = r.desc
        ∧ q.claims = [.conv, if op = .conv then .tensor else .vector] ∧ q.post = postOf f ∧ (t.at_ a).pc = sl.pc + 16) ∧
  (∀ (s : State) (a : At) (q : Queued) (r : ConvRun), s.convHead a = some (q, r) → a.upset = .ok →
      (s.convWait (s.at_ a).id.ctx r = none → answers (.convPass a) s (s.runPass a q r))
        ∧ (∀ w, s.convWait (s.at_ a).id.ctx r = some w → (s.sem (s.at_ a).id.ctx w.1).poison = false →
          answers (.convPass a) s (s.updateHead a .conv (some { q with granted := false })))
        ∧ (∀ w, s.convWait (s.at_ a).id.ctx r = some w → (s.sem (s.at_ a).id.ctx w.1).poison = true →
          answers (.convPass a) s (s.instrFault a 0x0109 q.major w.1)))

/-- R249, R254: an attention instruction whose descriptor may be read and passes every check joins the tensor sub-queue. R254
to R260, R278, R280: a step of the attention command whose claim is granted; the page walk of its region's lantern; the
deadline of a page that has not arrived, which uses its silhouette where the context allows that, and ends the wait at once
where no further wait is set; and the end of that further wait. Where it rests on the model's own readings and choices: log
entries 39, 41, 42. -/
def Obligations.Attention : Prop :=
  (∀ (s : State) (a : At) (f : Fields) (w2 : Word) (op : AttnOp), s.Ready a 16 →
      let sl := s.at_ a
      let g := (sl.rs f.src1).toNat
      let r := attnCmd op f w2 sl (s.convDesc g)
      let c : Instr := match op with
        | .fwd => .attnFwd a f w2
        | .bwdKv => .attnBwdKv a f w2
        | .bwdQ => .attnBwdQ a f w2
        | .merge => .attnMerge a f w2
      s.attnAddr a g = none → s.Legal a (attnUse op) f → badWord2 sl.id.profile w2 [(0, 43)] = none →
      (sl.id.profile = true ∨ ((op = .merge ∨ (fieldOf (sl.ra r.acc).toNat 38 26 = 0 ∧ fieldOf (sl.rd r.dwork).toNat 52 12 = 0))
        ∧ (sl.rs (w2.extractLsb' 48 5)).toNat < 2 ^ 32 ∧ attnReserved op r.desc = none)) →
      s.attnStop a r = none → queueStop sl .tensor (r.spans sl (atQTile r.desc)) = none →
      answers c s ((((s.devSpend (s.whoAt a) false g 128).passFree g 128).startAttn a r (postOf f)).advance a 16)) ∧
  (∀ (s : State) (a : At) (q : Queued) (r : AttnRun), s.attnHead a = some (q, r) → a.upset = .ok →
      ((s.claimRuns a .tensor).isSome = true → answers (.attnStep a) s (s.attnStep a q r))
        ∧ (r.op = .fwd → atWalk r.desc = true → r.started = true → r.walkDone = false → (s.at_ a).goes = true →
            s.lanternDown (a.core / 12) = false →
            answers (.pageWalk a) s ((s.walk r (r.kCount / 384 + 3)).1.putAttn a q (s.walk r (r.kCount / 384 + 3)).2))
        ∧ (∀ p, s.pageWait a = some (q, r, p) → r.late = false → p.silOk = true → (s.at_ a).attn.silOnDeadline = true →
            ∃ u : State, answers (.pageFetchDeadline a) s (u.putAttn a q (r.takeSil p)) ∧ u.cores = s.cores)
        ∧ (∀ p, s.pageWait a = some (q, r, p) → r.late = false → (p.silOk = false ∨ (s.at_ a).attn.silOnDeadline = false) →
            answers (.pageFetchDeadline a) s (if (s.at_ a).attn.maxWaitMs = 0 then (s.stat (atSet r.desc) 4 1).fetchTimeout a r p
              else (s.stat (atSet r.desc) 4 1).putAttn a q { r with late := true }))
        ∧ (∀ p, s.pageWait a = some (q, r, p) → r.late = true → answers (.pageWaitLimit a) s (s.fetchTimeout a r p)))

/-- R270 to R274: a page operation that passes its checks acts on the set's lists, writes its status to a register and leaves
its post due: PAGE.DROP and PAGE.SEAL write 0. R274: a frame dropped while walks were in progress goes back to the set's free
list once they have ended. Where it rests on the model's own readings and choices: log entry 43. -/
def Obligations.PageOperations : Prop :=
  (∀ (s : State) (a : At) (f : Fields) (w2 : Word), s.Ready a 16 → (s.at_ a).qDma = [] →
      let sl := s.at_ a
      let wrote (t : State) (v : Nat) : State :=
        ((t.setAt a ((t.at_ a).ws f.dst (BitVec.ofNat 64 v))).duePost a (postOf f)).advance a 16
      (pageStop (pageUse .s .none_ false) true true f w2 s a = none →
          (sl.rs f.src1).toNat % 1024 < csSeqs (s.set (pgSet (pgLoc sl f))).csd →
          answers (.pageShare a f w2) s (wrote (s.pageShare a f w2).1 (s.pageShare a f w2).2))
        ∧ (pageStop (pageUse .none_ .none_ true) true true f w2 s a = none → ∃ t, answers (.pageDrop a f w2) s (wrote t 0)
          ∧ t.cores = s.cores)
        ∧ (pageStop (pageUse .none_ .none_ false) true true f w2 s a = none → ∃ t, answers (.pageSeal a f w2) s (wrote t 0)
          ∧ t.cores = s.cores)
        ∧ (pageStop (pageUse .d .d false) false false f w2 s a = none → badDesc sl 0 42 f.src1.toNat = none →
            badDesc sl 0 37 f.src2.toNat = none →
            let c := (s.set (pgSet (pgLoc sl f))).csd
            let need := pgCount (pgTok sl w2) * csHeads c * csHd c * csElem c
            need ≤ descLen (sl.rd f.src1.toNat) → need ≤ descLen (sl.rd f.src2.toNat) →
            hazard sl [descSpan (sl.rd f.src1.toNat) false, descSpan (sl.rd f.src2.toNat) false] = false →
            answers (.pageWrite a f w2) s (wrote (s.pageWrite a f w2).1 (s.pageWrite a f w2).2))) ∧
  (∀ (s : State) (set frame : Nat) (d : Nat × List Nat),
      (s.set set).deferred.find? (fun d => decide (d.1 = frame)) = some d →
      (∀ w ∈ d.2, w ∉ s.walksOf set) →
      answers (.frameFreeAfterWalk set frame) s
        ((s.setSet set { s.set set with deferred := (s.set set).deferred.erase d }).freeFrame set frame))

/-! ### Levee links and collectives -/

/-- R406, R407, R409: training of a link from its lane observations: a crossed or looped cable is a fault; with no good lane
it goes on training; with fewer lanes than its lowest width it is a fault; otherwise it waits for its identity with the width
of its good lanes. R408: a link whose far end gives its identity comes up, unless the far end has no ID (the link waits), has
this package's ID, or has one that another link's route names (faults). Where it rests on the model's own readings and
choices: log entries 46, 47. -/
def Obligations.LinkBringUp : Prop :=
  (∀ (s : State) (j : Nat) (o : LinkObs), s.linkFitted j = true → s.lanternDown (24 + j / 16) = false → 3 ≤ s.hub.phase →
      s.boot.recovery = false →
      let v := s.link j
      v.enable = true → v.cable = true → v.state ≤ 2 → v.droppedLanes = 0 →
      let good := ([o.lane0, o.lane1, o.lane2, o.lane3].filter laneGood).length
      let w := min (widthCode good) (widthCode o.farWidth)
      ∃ t, answers (.linkTrain j o) s t
        ∧ ((o.txToTx = true ∨ o.loopback = true) → (t.link j).state = 6 ∧ (t.link j).crossed = true)
        ∧ (o.txToTx = false → o.loopback = false → good = 0 → (t.link j).state = 2)
        ∧ (o.txToTx = false → o.loopback = false → good ≠ 0 → (t.link j).width = w
          ∧ (t.link j).orderReversed = o.reversed
          ∧ (if w < max 1 v.minWidth then (t.link j).state = 6 else (t.link j).state = 3))) ∧
  (∀ (s : State) (j : Nat) (pkg : BitVec 12) (far : BitVec 6) (assigned : Bool), (s.link j).state = 3 →
      s.hub.pkgAssigned = true →
      ∃ t, answers (.linkIdentComplete j assigned pkg far) s t
        ∧ (assigned = false → (t.link j).state = 3)
        ∧ (assigned = true → pkg.toNat = s.hub.pkgId → (t.link j).state = 6)
        ∧ (assigned = true → pkg.toNat ≠ s.hub.pkgId → s.routedElsewhere j pkg.toNat = true → (t.link j).state = 6)
        ∧ (assigned = true → pkg.toNat ≠ s.hub.pkgId → s.routedElsewhere j pkg.toNat = false →
          (t.link j).state = 4 ∧ (t.link j).farPkg = pkg.toNat ∧ (t.link j).farLink = far.toNat ∧ (t.link j).lost = false))

/-- R399, R400, R409, R412: what happens to a link in use. R402, R411, R412: the requests that software makes of a link:
enable, recalibration (begun only with an alternate link or by force, and while no other link of the die is recalibrated),
its end, full training; and HUB_PKG_ID, whose assigned bit changes only while every link is down or waits for its identity.
Where it rests on the model's own readings and choices: log entries 46, 47, 48. -/
def Obligations.LinksInUse : Prop :=
  (∀ (s : State) (j : Nat),
      let v := s.link j
      (v.state = 2 → answers (.linkTrainAttemptTimeout j) s (s.setLink j { v with state := 1 }))
        ∧ (∀ lane, lane < 4 → (v.state = 4 ∨ v.state = 5) → ∃ t, answers (.laneLockLost j lane) s t ∧ (t.link j).state = 1
          ∧ (t.link j).lost = true ∧ (if v.weakLanes.testBit lane then (t.link j).droppedLanes = v.droppedLanes ||| 2 ^ lane
            else (t.link j).weakLanes = v.weakLanes ||| 2 ^ lane))
        ∧ (∀ n u, (v.state = 4 ∨ v.state = 5) → ∃ t, answers (.fecRateWindow j n u) s t
          ∧ (t.link j).uncorrectable = min (v.uncorrectable + u) 0xFFFF
          ∧ (if n < u * 1000000 then (t.link j).state = 1 else (t.link j).state = v.state))
        ∧ ((v.state = 4 ∨ v.state = 5) → answers (.flitCrcFail j) s (s.setLink j { v with naksSent := v.naksSent + 1 }))
        ∧ (∀ seq : BitVec 12, (v.state = 4 ∨ v.state = 5) → ∃ t, answers (.flitNakReceived j seq) s t
          ∧ (if v.nakCount = 16 ∧ v.nakSeq = seq.toNat then (t.link j).state = 1 else v.nakCount < 16 →
            (t.link j).state = v.state))
        ∧ (v.lost = true → v.state ≠ 4 → ∃ t, answers (.linkLossTimeout j) s t ∧ (t.link j).lost = false
          ∧ (t.link j).state = if v.state = 6 ∨ v.state = 7 then v.state else 0)
        ∧ (∀ p, s.linkFitted j = true → v.cable ≠ p → v.state ≠ 7 →
          ∃ t, answers (.cablePresenceChange j p) s t ∧ (t.link j).cable = p ∧ (t.link j).state = 1)) ∧
  (∀ (s : State) (j : Nat) (w : Lane), s.serves 0 = true → s.linkFitted j = true →
      let v := s.link j
      (w.toNat.testBit 31 = false → w.toNat.testBit 30 = false → w.toNat.testBit 29 = false →
          ∃ t, answers (.linkEnableWrite j w) s t ∧ (t.link j).state = 7 ∧ (t.link j).enable = false ∧ (t.link j).width = 0)
        ∧ (v.state = 4 → s.dieRecal j = false → (v.recalForce = true ∨ s.alternates j = true) →
          ∃ t, answers (.linkRecalReq j) s t ∧ (t.link j).state = 5 ∧ (t.link j).recalReq = true)
        ∧ (v.state = 4 → s.dieRecal j = false → v.recalForce = false → s.alternates j = false →
          ∃ t, answers (.linkRecalReq j) s t ∧ (t.link j).state = 4 ∧ (t.link j).recalReq = false)
        ∧ (v.state = 5 → ∃ t, answers (.linkRecalDrained j) s t ∧ (t.link j).state = 4 ∧ (t.link j).recalReq = false)
        ∧ (v.enable = true → ∃ t, answers (.linkRetrainReq j) s t ∧ (t.link j).state = 1 ∧ (t.link j).retrainReq = false)
        ∧ ((∀ i < 64, (s.link i).state = 0 ∨ (s.link i).state = 3) → ∃ t, answers (.hubPkgIdWrite w) s t
          ∧ t.hub.pkgAssigned = w.toNat.testBit 31
          ∧ t.hub.pkgId = if s.hub.pkgAssigned then s.hub.pkgId else w.toNat % 4096)
        ∧ ((∃ i < 64, (s.link i).state ≠ 0 ∧ (s.link i).state ≠ 3) → ∃ t, answers (.hubPkgIdWrite w) s t
          ∧ t.hub.pkgAssigned = s.hub.pkgAssigned))

/-- R404, R413, R414: packets for other packages are forwarded over a route whose hop limit allows it, or discarded and
counted; a remote read that a window permits is answered with the bytes, one that none permits leaves memory as it was; a
request without an answer takes REMOTE_TIMEOUT. Where it rests on the model's own readings and choices: log entries 12, 49,
51. -/
def Obligations.RemoteTraffic : Prop :=
  ∀ (s : State) (j : Nat) (src dst ctx : BitVec 12) (hops : Nat) (addr : Word) (len : Nat),
    (s.hub.pkgAssigned = true → dst.toNat ≠ s.hub.pkgId → ∃ t, answers (.packetForward src dst ctx hops) s t
        ∧ (if s.reaches dst.toNat ctx.toNat = true ∧ hops + 1 ≤ (s.routeTo dst.toNat).limit then
            t.levee.discarded = s.levee.discarded else t.levee.discarded = s.levee.discarded + 1))
      ∧ ((s.link j).state = 4 → s.windowFor src.toNat (addr.toNat % 2 ^ 52) len 0 = none →
        answers (.remoteAccessIn j src (.read addr len)) s (s.notExported j))
      ∧ (∀ w, (s.link j).state = 4 → s.windowFor src.toNat (addr.toNat % 2 ^ 52) len 0 = some w →
        answers (.remoteAccessIn j src (.read addr len)) s (s.windowAccess j w false (addr.toNat % 2 ^ 52) len
          (fun s => s.setAnswer (s.memBytes (addr.toNat % 2 ^ 52) len))))
      ∧ ((mapGet {} s.levee.requests ctx.toNat : RemoteReq).live = true →
        ∃ t, answers (.remoteRequestTimeout ctx.toNat) s t
          ∧ (mapGet {} t.levee.requests ctx.toNat : RemoteReq).live = false ∧ t.mem = s.mem)

/-- R416, R417: a collective instruction that passes its checks is issued: it takes the next number of its group and stands
last among the collectives in progress. R418, R423: the oldest collective of a context on a group fails with COLL_TIMEOUT
when its members have not joined in time and with COLL_ABORTED when a member aborts; with members that do not agree it fails
with COLL_MISMATCH; where they agree and its source can be read the engines run it. Where it rests on the model's own
readings and choices: log entries 13, 52, 53. -/
def Obligations.Collectives : Prop :=
  (∀ (s : State) (a : At) (f : Fields) (minor : Nat), s.Ready a 8 → minor < 5 → s.collStop a f minor = none →
      let sl := s.at_ a
      let g := (sl.rs f.src1).toNat
      let c : Instr := match minor with
        | 0 => .collAllreduce a f
        | 1 => .collRedscat a f
        | 2 => .collAllgather a f
        | 3 => .collAlltoall a f
        | _ => .collBcast a f
      ∃ t r, answers c s t ∧ t.levee.colls = s.levee.colls ++ [r] ∧ r.minor = minor ∧ r.ctx = sl.id.ctx ∧ r.post = postOf f
        ∧ r.block = s.devRead g 64 ∧ r.seq = (s.group r.group).issued ∧ (t.group r.group).issued = (s.group r.group).issued + 1
        ∧ (t.at_ a).pc = sl.pc + 8) ∧
  (∀ (s : State) (ctx g : Nat) (r : CollRun) (peers : List PeerJoin), s.oldestColl ctx g = some r →
      let gr := s.group g
      answers (.collJoinTimeout ctx g) s (s.collFail r 0x070A)
        ∧ answers (.collAbortIn ctx g) s (s.collFail r 0x070C)
        ∧ (peers.length + 1 = gr.members.length → s.collGoes (s.collWho r gr).die = true →
          ((∃ p ∈ peers, PeerJoin.agrees p r = false) → answers (.collComplete ctx g peers) s (s.collFail r 0x0709))
            ∧ ((∀ p ∈ peers, PeerJoin.agrees p r = true) →
              (∀ x ∈ r.srcRows gr.members.length, s.checkRange (s.collWho r gr) false x (cbRowBytes r.block) = none
                ∧ s.heldOver x (cbRowBytes r.block) = false) →
              ∃ data, answers (.collComplete ctx g peers) s (s.collFinish r gr data)
                ∧ data gr.rank = (r.srcRows gr.members.length).flatMap (fun x => s.memBytes x (cbRowBytes r.block)))))

/-! ### Queues, events, placement -/

/-- R480, R481, R483, R485, R490: the owner of a queue is written while it is not enabled; an enable without an error starts
the queue with both ends at 0; a disable stops it, at once where nothing it took is in flight; the doorbells move the SQ tail
and the CQ head, and a value outside the ring is QUEUE_ERROR; an entry of no opcode completes with ENTRY_BAD, and R494: one
taken before phase P7 is held and completes so once the phase is reached; the coalescing timer raises the vector of a queue
with unsignalled entries. Where it rests on the model's own readings and choices: log
entries 55, 56. -/
def Obligations.QueueControl : Prop :=
  ∀ (s : State) (fn q g : Nat) (w : Lane),
    let v := s.queue g
    let x := w.toNat
    (s.serves 0 = true → g < 4096 → v.enable = false →
        (x % 16 ≠ 0 → ∀ e ∈ s.host.queues, e.1 ≠ g → ¬ (e.2.fn = x % 16 ∧ e.2.localIx = x / 16 % 256)) →
        answers (.queueOwnerWrite g w) s (s.setQueue g { v with fn := x % 16, localIx := x / 16 % 256 }))
      ∧ (v.enable = true → answers (.queueOwnerWrite g w) s s)
      ∧ (s.serves fn = true → s.queueOf fn q = some g → v.fn = fn → v.running = false →
        let u := { v with enable := true, kind := x.testBit 30, sqLog2 := x / 2 ^ 25 % 32, cqLog2 := x / 2 ^ 20 % 32,
                          irqEn := x.testBit 19, vector := x % 2048 }
        let t := s.setQueue g u
        (t.enableError g u = 0 → answers (.queueEnable fn q w) s (t.setQueue g { u with
            running := true, stopping := false, error := 0, head := 0, tail := 0, written := 0, read := 0, inFlight := 0,
            owed := 0, unsignalled := 0, dropped := 0, held := [] }))
          ∧ (t.enableError g u ≠ 0 → answers (.queueEnable fn q w) s (t.setQueue g { u with error := t.enableError g u })))
      ∧ (s.serves fn = true → s.queueOf fn q = some g → v.fn = fn → v.running = true →
        answers (.queueDisable fn q) s (s.setQueue g (if v.inFlight = 0
          then { v with enable := false, running := false, stopping := false }
          else { v with enable := false, stopping := true })))
      ∧ (s.serves fn = true → s.queueOf fn q = some g → v.running = true → v.stopping = false → v.kind = false →
        (x % 65536 < v.sqSize → answers (.dbSqTail fn q w) s (s.setQueue g { v with tail := x % 65536 }))
          ∧ (v.sqSize ≤ x % 65536 → answers (.dbSqTail fn q w) s (s.queueError g 1 (x % 65536))))
      ∧ (s.serves fn = true → s.queueOf fn q = some g → v.running = true →
        ∀ n, n < v.cqSize → v.read + n ≤ v.written → x % 65536 = (v.read + n) % v.cqSize →
          answers (.dbCqHead fn q w) s (s.setQueue g { v with read := v.read + n }))
      ∧ (v.unsignalled ≠ 0 → answers (.msixCoalesceTimer g) s ((s.setQueue g { v with unsignalled := 0 }).raise v.fn v.vector))
      ∧ (∀ bs, s.Takes g (recField bs 0 1) 1 bs → recField bs 0 1 ∉ opcodes →
        answers (.entryBad g) s ((s.taken g 1).finish (s.replyOf g bs) 0x0B 0 0))
      ∧ (∀ bs, s.front g = .entry bs → recField bs 0 1 ∉ opcodes → s.hub.jobOpen = false →
        1 ≤ v.cqSize - (v.written - v.read) - v.owed →
        answers (.entryBad g) s ((s.ringTouch false v v.sqHi (v.sqBase + v.head * 64) 64).setQueue g
          { v with head := (v.head + 1) % v.sqSize, inFlight := v.inFlight + 1, owed := v.owed + 1,
                   held := v.held ++ [(v.fn, bs)] }))
      ∧ (∀ f bs rest, v.held = (f, bs) :: rest → recField bs 0 1 ∉ opcodes → s.hub.jobOpen = true → s.hub.running = true →
        s.lanternDown 32 = false → s.lanternDown 33 = false → (recField bs 1 1).testBit 0 = false →
        answers (.entryBad g) s ((s.setQueue g { v with held := rest }).finish { q := g, id := recField bs 2 2, fn := f }
          0x0B 0 0))

/-- R453, R509: the oldest detected event takes the next sequence number and its place in the ring of 65,536, and one of
severity error or critical a place in the journal too; the EVENT block selects a record, changes its source, and advances to
the next one on a read of its last data register. Where it rests on the model's own readings and choices: log entry 58. -/
def Obligations.EventLog : Prop :=
  ∀ (s : State) (w : Lane),
    (∀ e rest, s.ev.detected = e :: rest → s.hub.running = true → s.lanternDown 34 = false → s.ev.next < 0xFFFFFFFF →
        ∃ t, answers .eventPost s t ∧ t.ev.next = s.ev.next + 1
          ∧ mapGet {} t.ev.log (s.ev.next % 65536) = { e with seq := s.ev.next }
          ∧ (∀ i, i ≠ s.ev.next % 65536 → mapGet {} t.ev.log i = mapGet {} s.ev.log i)
          ∧ (2 ≤ e.sev → s.ev.halted = false → s.ev.journal.length < 8192 →
            t.ev.journal = s.ev.journal ++ [{ e with seq := s.ev.next }])
          ∧ (e.sev < 2 → t.ev.journal = s.ev.journal))
      ∧ (s.fnOpen 0 = true → answers (.eventSelectWrite w) s (s.setEv { s.ev with select := w.toNat }.latch))
      ∧ (s.fnOpen 0 = true → s.ev.source ≠ w.toNat.testBit 31 →
        answers (.eventCtrlWrite w) s (s.setEv { s.ev with source := w.toNat.testBit 31 }.latch))
      ∧ (s.fnOpen 0 = true → s.ev.source = w.toNat.testBit 31 → answers (.eventCtrlWrite w) s s)
      ∧ (s.fnOpen 0 = true → ∃ t, answers (.eventData7Read 4) s t ∧ t.host.value = s.ev.dataWord 7 ∧ t.ev = s.ev.advance)
      ∧ (s.fnOpen 0 = true → ∃ t, answers (.eventData7Read 2) s t ∧ t.host.value = s.ev.dataWord 7 % 65536 ∧ t.ev = s.ev)

/-- R379, R381, R394: the first batch of the order that finds its places is placed, those before it are passed over, and a
striped stage is placed whole; a stage that has waited 100 ms at the head of its priority reserves its regions; a task on a
fenced core is saved and waits again with TASK_MOVED, or is lost and faults its job where it cannot be saved and its stage
cannot restart. R246: an exchange-mode wait that has seen no increase is reported, at most once a second, and the stripe it
waits on is moved; where the producer keeps no record, nothing is moved. Where it rests on the model's own readings and
choices: log entries 23, 87, 88. -/
def Obligations.Placement : Prop :=
  (∀ (s : State),
      (∀ before b after t, s.jobManagerUp = true → s.batches = before ++ b :: after →
          (∀ x ∈ before, s.placeBatch x = none) → s.placeBatch b = some t →
          (b.striped = false → answers .taskPlace s t)
            ∧ (b.striped = true → ∃ u, answers (.stripedStagePlace b.ctx b.stage) s u ∧ u.cores = t.cores ∧ u.mem = t.mem))
        ∧ (∀ before b after, s.jobManagerUp = true → s.batches = before ++ b :: after → b.striped = true →
          let pri (b : Batch) := (s.polder (s.job b.ctx).polder).priority
          let j := s.job b.ctx
          (∀ x ∈ before, pri x ≠ pri b) →
          answers (.stripedStageReserve b.ctx b.stage) s
            (s.setJob b.ctx { j with stages := j.stages.set b.stage { j.stage b.stage with reserved := true } }))
        ∧ (∀ (a : At) (saved : Bool), (s.core a.core).health.fenced = true →
          let sl := s.at_ a
          let ctx := sl.id.ctx
          sl.id.resident = true → sl.faulted = false → (s.job ctx).moves = true → s.writesHeld ctx = false →
          (saved = true → (s.job ctx).state = 0 → s.poolFail ctx (a.core / 24) = none →
            answers (.taskMove a saved) s ((s.saveTask a.core a.slot 0
              (some (taskEvent 0x0121 0 ctx sl.id.polder a.core sl.stage (sl.task % 2 ^ 23)))).tryPlace ctx sl.stage sl.task))
            ∧ (saved = false → sl.stripe = none → ((s.job ctx).stage sl.stage).restartable = false →
              answers (.taskMove a saved) s ((((s.post (taskEvent 0x0122 2 ctx sl.id.polder a.core sl.stage sl.task)).stopSlot
                { core := a.core, slot := a.slot }).faultJob ctx 0x0122).tryPlace ctx sl.stage sl.task)))) ∧
  (∀ (s : State) (a : At) (r : ConvRun) (ctr : Nat), s.slotWait a.core a.slot = some (r, ctr) → (s.at_ a).goes = true →
      s.lanternDown (a.core / 12) = false →
      let ctx := (s.at_ a).id.ctx
      let t := s.postEachSecond (0x0230 * 2 ^ 40 + ctx * 65536 + r.stripe)
        (stripeEvent 0x0230 1 ctx a.core r.stripe ctr (s.sem ctx ctr).value)
      answers (.penumbraTimeout a) s (t.moveStripe ctx 64 ctr)
        ∧ (s.producer ctx ctr = none → answers (.penumbraTimeout a) s t))

/-- R220, R221, R223: the steps of a refresh. A begin takes 1 from begin_sem and shows the pending epoch; the begin record
lets stages flip; each stage that is ready flips to the next epoch word, and the last one begins the commit; the commit
record makes the epoch the committed one and posts WEIGHT_EPOCH_COMMITTED; a refresh whose time has passed is abandoned and
its job faults. Where it rests on the model's own readings and choices: log entry 90. -/
def Obligations.WeightRefresh : Prop :=
  ∀ (s : State) (ctx : Nat) (w : WeightSet), (s.job ctx).weights = some w →
    let j := s.job ctx
    let n := w.entries.length
    (s.jobManagerUp = true → j.live = true → j.faulted = false → j.state = 0 → j.refresh = none →
        (s.sem ctx w.beginSem).value ≠ 0 →
        answers (.refreshBegin ctx) s (((s.setJob ctx { j with refresh := some { time := s.time } }).semValue ctx w.beginSem
          ((s.sem ctx w.beginSem).value - 1)).putRcb w w.next 1 0))
      ∧ (∀ f, j.refresh = some f → f.step = 2 → s.ev.halted = false →
        answers (.refreshBeginDurable ctx) s
          ((s.setJob ctx { j with refresh := some { f with step := 3 } }).recordOf ctx 1 w f.time))
      ∧ (∀ f stage, j.refresh = some f → s.jobManagerUp = true → j.faulted = false → s.flippable ctx stage = true →
        let e := w.entries.getD stage {}
        let done : Bool := decide (f.flipped.length + 1 = n)
        let f' : Refresh := { f with flipped := f.flipped ++ [stage], step := if done then 6 else f.step,
                                     time := if done then s.time else f.time }
        let t := s.setJob ctx { j with refresh := some f' }
        let u := ((t.semValue ctx e.readySem ((t.sem ctx e.readySem).value - e.readyCount)).putEpoch e.word w.next).putRcb w
          w.next (if done then 3 else 2) (f.flipped.length + 1)
        answers (.refreshStageFlip ctx stage) s (if w.hold then u else u.releaseFlip ctx stage w))
      ∧ (∀ f, j.refresh = some f → s.jobManagerUp = true → s.ev.halted = false → f.step = 6 → f.state = 0 →
        let t := (s.recordOf ctx 2 w f.time).setJob ctx { j with refresh := none, weights := some { w with epoch := w.next } }
        let u := (t.hubPut w.rcb (toBytes 4 w.next)).hubPut (w.rcb + 8) (toBytes 1 0)
        let v := if w.hold then (List.range n).foldl (fun s g => s.releaseFlip ctx g w) u else u
        answers (.refreshCommitDurable ctx) s
          ((v.settleFlipBarriers ctx).refreshEvent ctx 0x0310 0 w.next f.flipped.length n))
      ∧ (∀ f, j.refresh = some f → s.jobManagerUp = true → w.timeoutMs ≠ 0 →
        answers (.refreshTimerExpiry ctx) s
          (((s.abandonRefresh ctx).refreshEvent ctx 0x0312 2 w.next f.flipped.length n).faultJob ctx 0x0312))

/-! ### Memory, objects and the host -/

/-- R140 to R142, R191, R475, R479, R485: code objects are loaded where every check passes and unloaded where no live job
names them; a bias flip of extents that do not move takes place at once; a range joins the host pool; table reloads are
requested. Each completes with status 0. R403, R413, R415, R485, R531: ROUTE_LOAD writes the entries named and leaves that of
the package's own ID; EXPORT_LOAD writes windows that pass the checks of R413; GROUP_CREATE makes a group of valid members
and GROUP_DESTROY ends one that no collective uses; a VF that asks for a command of PF0 is denied and counted. Where it rests
on the model's own readings and choices: log entries 11, 45, 71, 72, 73. -/
def Obligations.TablesAndRoutes : Prop :=
  (∀ (s : State) (q op : Nat) (bs : List Byte), s.Takes q op 1 bs →
      let t := s.taken q 1
      let r := s.replyOf q bs
      let e := sqeOf bs
      (op = 0x10 → ∀ h d i, e.desc % 4096 = 0 →
          (r.fn = 0 ∨ hostBase ≤ e.desc ∨ (t.objOf (e.desc / extentBytes)).fn = r.fn) → t.readDesc e.desc 256 = some h →
          headBad h = none → t.sections e.desc h = some d → Config.shake256 d 32 = (h.drop 32).take 32 →
          (recField h 4 2 = 1 → recField h 6 1 ≠ 0) →
          t.pickId (fun i => decide ((t.code i).version ≠ 0)) 1 65535 t.codes.length = some i →
          answers (.codeLoad q) s
            ({ t.tick with codes := mapSet {} t.codes i (codeOf h e.desc r.fn) }.finish r 0 0 i))
        ∧ (op = 0x11 → (t.code e.arg1).version ≠ 0 → (r.fn = 0 ∨ (t.code e.arg1).fn = r.fn) → t.codeNamed e.arg1 = false →
          answers (.codeUnload q) s ((t.unload e.arg1).finish r 0 0 0))
        ∧ (op = 0x11 → (t.code e.arg1).version ≠ 0 → (r.fn = 0 ∨ (t.code e.arg1).fn = r.fn) → t.codeNamed e.arg1 = true →
          answers (.codeUnload q) s (t.finish r 0x15 0 0))
        ∧ (op = 0x1B → r.fn = 0 →
          let xs := biasExtents e.arg0 (e.arg1 % 2 ^ 32)
          (∀ x ∈ xs, (t.home x).state ≠ 3) → ∃ b, answers (.biasSet q) s ({ t with mem := { t.mem with bias := b } }.finish r 0 0 0)
            ∧ ∀ x, mapGet false b x = if x ∈ xs then e.arg1.testBit 32 else mapGet false t.mem.bias x)
        ∧ (op = 0x1C → r.fn = 0 → e.arg0 ≠ 0 → e.arg0 % extentBytes = 0 → e.arg1 ≠ 0 → e.arg1 % extentBytes = 0 →
          (∀ x ∈ t.host.pool, x.1 + x.2 ≤ e.arg0 ∨ e.arg0 + e.arg1 ≤ x.1) → t.host.pool.length < 64 →
          (t.host.pool.map (·.2)).sum + e.arg1 ≤ 4 * 2 ^ 40 →
          answers (.hostPoolAdd q) s
            ((t.setHost { t.host with pool := t.host.pool ++ [(e.arg0, e.arg1)] }).finish r 0 0 0))
        ∧ (op = 0x48 → r.fn = 0 → answers (.tableReload q) s
          ((((List.range 16).filter (fun i => e.arg0.testBit i)).foldl State.tableRequest t).finish r 0 0 0))) ∧
  (∀ (s : State) (q op : Nat) (bs : List Byte), s.Takes q op 1 bs →
      let t := s.taken q 1
      let r := s.replyOf q bs
      let e := sqeOf bs
      (op = 0x38 → ∀ b, r.fn = 0 → e.arg0 + e.arg1 ≤ 4096 → t.readDesc e.desc (16 * e.arg1) = some b →
          ∃ rs, answers (.routeLoad q) s ({ t with levee := { t.levee with routes := rs } }.finish r 0 0 0)
            ∧ ∀ p, mapGet {} rs p = if e.arg0 ≤ p ∧ p < e.arg0 + e.arg1 ∧ ¬ (t.hub.pkgAssigned = true ∧ p = t.hub.pkgId)
              then routeOf (b.drop (16 * (p - e.arg0))) else mapGet {} t.levee.routes p)
        ∧ (op = 0x38 → r.fn ≠ 0 → answers (.routeLoad q) s ((t.refuse (.vf r.fn) 0x38).finish r 0x0A 0 0))
        ∧ (op = 0x39 → ∀ b, r.fn = 0 → e.arg0 + e.arg1 ≤ 256 → t.readDesc e.desc (32 * e.arg1) = some b →
          windowsBad b e.arg1 = none →
          ∃ ws, answers (.exportLoad q) s ({ t with levee := { t.levee with windows := ws } }.finish r 0 0 0)
            ∧ ∀ k, mapGet {} ws k = if e.arg0 ≤ k ∧ k < e.arg0 + e.arg1 then windowOf (b.drop (32 * (k - e.arg0)))
              else mapGet {} t.levee.windows k)
        ∧ (op = 0x3A → ∀ b l, t.readDesc e.desc 32 = some b →
          let ctx := recField b 16 2 % 4096
          let n := recField b 10 2
          let rank := recField b 12 2
          let ix := recField b 8 2 % 1024
          let ms := (List.range n).map (fun i => recField l (2 * i) 2)
          t.targetBad r.fn ctx = none → ctx ≠ 0 → ctx = e.target → 2 ≤ n → n ≤ 4096 → rank < n → 1 ≤ recField b 14 1 →
          recField b 14 1 ≤ 16 → (t.group ix).live = false → t.readDesc (e.desc + 32) (2 * n) = some l →
          t.memberBad ms rank = none →
          answers (.groupCreate q) s ((t.setGroup ix { live := true, tag := recField b 0 8, members := ms, rank := rank,
                                                        channels := recField b 14 1, ctx := ctx, fn := r.fn }).finish r 0 0 ix))
        ∧ (op = 0x3B → e.arg1 < 1024 → (t.group e.arg1).live = true → (r.fn = 0 ∨ (t.group e.arg1).fn = r.fn) →
          (∀ c ∈ t.levee.colls, c.group ≠ e.arg1) →
          answers (.groupDestroy q) s ((t.setGroup e.arg1 {}).finish r 0 0 0)))

/-- R269, R290, R291, R298, R393, R485, R573: objects and cache sets are created where every check passes and destroyed where
nothing uses them; a quarantined object is released; MOVE is answered with its handle and joins the sluice commands. Where it
rests on the model's own readings and choices: log entries 45, 59. -/
def Obligations.ObjectCommands : Prop :=
  ∀ (s : State) (q op : Nat) (bs : List Byte), s.Takes q op 1 bs →
    let t := s.taken q 1
    let r := s.replyOf q bs
    let e := sqeOf bs
    (op = 0x18 → ∀ b id, t.readDesc e.desc 64 = some b → t.objAbsent b = false → t.objBad b = none →
        t.fnMayUse r.fn (odPolder b) = true →
        t.pickId (fun i => decide ((t.obj i).extents ≠ 0)) 1 1048575 t.objs.length = some id →
        let o := objOfDesc b r.fn
        let x := o.nameBase / extentBytes
        (odGlow b ≠ 0 → answers (.objCreate q) s (((t.tick.emptyHomes id o x o.extents).setObj id o).finish r 0 0 id))
          ∧ (∀ u, odGlow b = 0 → t.tick.takeHomes id o x o.extents = some u →
            answers (.objCreate q) s ((u.setObj id o).finish r 0 0 id)))
      ∧ (op = 0x19 →
        let o := t.obj e.arg1
        o.extents ≠ 0 → (r.fn = 0 ∨ o.fn = r.fn) →
        (t.objMoving o = false → t.objHoldsCode o = false →
          answers (.objDestroy q) s (((t.destroyObj e.arg1).settleJobId o.job).finish r 0 0 0))
          ∧ (t.objMoving o = true → answers (.objDestroy q) s (t.finish r 0x15 0 0)))
      ∧ (op = 0x06 →
        let o := t.obj e.arg0
        o.extents ≠ 0 → o.job ≠ 0 → (t.job o.job).state = 4 → (r.fn = 0 ∨ o.fn = r.fn) →
        (e.arg1 % 2 = 1 → answers (.release q) s (((t.destroyObj e.arg0).settleJobId o.job).finish r 0 0 0))
          ∧ (∀ u, e.arg1 % 2 = 0 → t.returnAll o o.span = some u →
            answers (.release q) s (((u.setObj e.arg0 { o with job := 0 }).settleJobId o.job).finish r 0 0 0)))
      ∧ (op = 0x20 → ∀ i c, t.targetBad r.fn e.target = none →
        t.pickId (fun i => (t.set i).live) 0 255 t.sets.length = some i → e.target ≠ 0 → e.desc % 64 = 0 →
        t.tick.readDesc e.desc 128 = some c → csdBad c = none → t.tick.csdUnmapped c = none →
        answers (.cachesetCreate q) s ((t.tick.buildSet i e.target e.desc c).finish r 0 0 i))
      ∧ (op = 0x21 → e.arg1 < 256 → (t.set e.arg1).live = true → (r.fn = 0 ∨ (t.job (t.set e.arg1).ctx).fn = r.fn) →
        t.setBusy e.arg1 = false → answers (.cachesetDestroy q) s ((t.dropSet e.arg1).finish r 0 0 0))
      ∧ (op = 0x1A → s.Takes q op 2 bs → ∀ b,
        let t := s.taken q 2
        let v : Sluice := { cmd := b, reply := some r, fn := r.fn }
        t.readDesc e.desc 32 = some b → moveBad b = none → t.mayMove r.fn v = true →
        t.targetBad r.fn (slCtx v) = none → (slCopy v = true ∨ t.tierUp = true) →
        answers (.move q) s ((t.complete r true { result := t.nextHandle }).addSluice v))

/-- R299 to R303, R317: the steps of a move: an extent that can move is marked with its target, copied once its writes have
drained, flipped to its new home and its source freed, and the command goes on to its next extent; an extent that cannot move
is skipped and counted. Where it rests on the model's own readings and choices: log entries 44, 45, 62, 63. -/
def Obligations.SluiceMove : Prop :=
  ∀ (s : State) (h : Nat),
    let v := s.sluice h
    let x := v.extent
    let m := s.home x
    let o := s.obj m.object
    (v.waits = true → slCopy v = false → s.tierLantern h = true → s.sluiceTurn h = true →
        (∀ p, m.state = 2 → o.pin = false → s.objHoldsCode o = false → m.tier ≠ slTier v →
          (o.glowMode = 0 ∨ slTier v ≠ 2) → s.freeSlices o (slTier v) (m.slicesM1 + 1) = some p →
          let u := s.markExtent h v p
          let uses := u.moveUses h (u.sluice h)
          (∀ i, s.firstShut (slPolder v) uses = some i →
            answers (.sluiceMark h) s (s.setDike (slPolder v) i { s.dike (slPolder v) i with holding := true }))
          ∧ (s.firstShut (slPolder v) uses = none → ∃ t, answers (.sluiceMark h) s t
            ∧ t.polders = (s.charge (slPolder v) uses).polders
            ∧ t.home x = { m with state := 3, destTier := slTier v, destSlice := p, destSlicesM1 := m.slicesM1 }
            ∧ t.sluice h = { v with phase := 3, srcSlice := m.slice, srcSlicesM1 := m.slicesM1, srcTier := m.tier }
            ∧ mapGet false t.mem.bias x = false ∧ t.mem.bytes = s.mem.bytes))
          ∧ (m.state ≠ 2 ∨ o.pin = true ∨ m.tier = slTier v →
            answers (.sluiceMark h) s (s.nextExtent h { v with skipped := v.skipped + 1 })))
      ∧ (v.live = true → v.phase = 3 → answers (.sluiceDrained h) s (s.setSluice h { v with phase := 4 }))
      ∧ (v.live = true → v.phase = 4 → s.mem.held = [] → s.host.flips = [] → ∃ t, answers (.sluiceCopyDone h) s t
        ∧ t.home x = { slice := m.destSlice, slicesM1 := m.destSlicesM1, tier := m.destTier, state := 2, object := m.object,
                       salt := if m.destTier = 1 ∨ (m.destTier = 0 ∧ o.interleave = 0) then (s.polder o.polder).salt
                         else m.salt }
        ∧ t.sluice h = { v with phase := 6, moved := v.moved + 1 }
        ∧ (s.mem.wf = true → ∀ i < extentBytes, t.memByte (x * extentBytes + i) = s.memByte (x * extentBytes + i)))
      ∧ (v.live = true → v.phase = 6 → answers (.sluiceSourceFree h) s (s.nextExtent h v))
      ∧ (v.waits = true → slCopy v = true → s.sluiceTurn h = true → (s.sluiceDie h = none ∨ s.tierLantern h = true) →
        s.copyWaits (s.sluiceWho h v) (slSrc v) (slDest v) (slCount v) = false →
        answers (.sluiceCopy h) s (s.copyRun h v))

/-- R312 to R314, R318: the collected writes of an extent become its image in freshly taken slices, or are withdrawn where
none are free; a group of channels that was hot for eight windows in a row is reported, and one window that is not hot ends
the run. Where it rests on the model's own readings and choices: log entries 60, 61, 64. -/
def Obligations.AfterglowAndHotChannels : Prop :=
  ∀ (s : State) (x group : Nat) (counts : List Nat) (busy : Nat) (p : BitVec 4),
    let m := s.home x
    let o := s.obj m.object
    let k := 1 + Config.freeNat s.freeCtr % 32
    let w := mapGet 0 s.mem.glow x
    (w ≠ 0 → (m.state = 1 ∨ m.state = 2) →
        (s.tick.freeSlices o m.tier k = none →
          answers (.afterglowImageSwitch x) s ((s.tick.undoGlow x).glowFailed (w - 1) x))
          ∧ (∀ a, s.tick.freeSlices o m.tier k = some a → o.glowMode ≠ 2 → ∃ t, answers (.afterglowImageSwitch x) s t
            ∧ (t.home x).slice = a ∧ (t.home x).slicesM1 = k - 1 ∧ (t.home x).state = 2 ∧ mapGet 0 t.mem.glow x = 0
            ∧ t.mem.bytes = s.mem.bytes))
      ∧ (counts.foldl max 0 * counts.length ≤ 4 * counts.sum ∨ busy < 25 → ∃ t,
        answers (.hotChannelWindow group counts busy p) s t ∧ mapGet 0 t.mem.hot group = 0 ∧ t.ev = s.ev)
      ∧ (4 * counts.sum < counts.foldl max 0 * counts.length → 25 ≤ busy → mapGet 0 s.mem.hot group < 7 → ∃ t,
        answers (.hotChannelWindow group counts busy p) s t
          ∧ mapGet 0 t.mem.hot group = mapGet 0 s.mem.hot group + 1 ∧ t.ev = s.ev)
      ∧ (4 * counts.sum < counts.foldl max 0 * counts.length → 25 ≤ busy → 7 ≤ mapGet 0 s.mem.hot group →
        s.hub.running = true → mapGet 0 s.ev.lastPost (0x0320 * 4096 + group) = 0 → ∃ t e,
        answers (.hotChannelWindow group counts busy p) s t ∧ t.ev.detected = s.ev.detected ++ [e] ∧ e.code = 0x0320
          ∧ e.sev = 1)

/-- R458 to R463, R468 to R472, R477, R492: a read of one extent in service answers its bytes and a write stores them; one
refused reads as ones; the CXL link takes the widths and speeds of R460 and counts its retrainings; a snoop is answered from
the line's state, which it changes; an access that still waits 1 s after the link went down faults its job; a decoder that
fits commits; a function goes to D3hot; VF Enable is set. Where it rests on the model's own readings and choices: log entries
54, 65, 66, 67, 68, 69, 70. -/
def Obligations.HostAccess : Prop :=
  ∀ (s : State) (path : HostPath) (fn a x len : Nat) (g : Word),
    (s.hostName path fn g.toNat = some a → s.host.speed ≠ 0 → s.hostWaits a len = false → 0 < len →
        a / extentBytes = x → (a + len - 1) / extentBytes = x → s.host.autoFlip = false →
        (∀ r, s.hostRefusal false a = some r → ∃ t, answers (.hostMemRead path fn g len) s t
            ∧ t.host.data = List.replicate len 0xFF ∧ t.host.poisoned = decide (r ≠ 2))
          ∧ (s.hostRefusal false a = none → x ≠ logFrame → (s.home x).state ≠ 1 → s.dieFail a len = none →
            ∃ t, answers (.hostMemRead path fn g len) s t ∧ t.host.data = s.memBytes a len
              ∧ t.host.poisoned = (s.poisonIn a len).isSome ∧ t.mem = s.mem)
          ∧ (∀ bs, bs.length = len → s.hostRefusal true a = none → s.dieFail a len = none → (s.home x).state ≠ 3 →
            ∃ t, answers (.hostMemWrite path fn g bs) s t ∧ t.mem.bytes = mapPut 0 s.mem.bytes (s.keyOf a) bs))
      ∧ (∀ dec base size, s.serves 0 = true → dec ≤ 1 → (dec = 0 ∨ s.variant ≠ .tbx20d) → s.host.cxlMode = true →
        size / 2 ^ 28 * 2 ^ 28 ≤ (if dec = 0 then stackEnd else s.ddrBytes) →
        answers (.hdmDecoderCommit dec base size 1) s (s.setHost { s.host with
          decoders := mapSet {} s.host.decoders dec { base := base / 2 ^ 28 * 2 ^ 28, size := size / 2 ^ 28 * 2 ^ 28
                                                      committed := true } }))
      ∧ (∀ width speed, s.host.retry = false → ∃ t, answers (.cxlLinkRetrain width speed) s t
        ∧ t.host.retrains = min (s.host.retrains + 1) 0xFFFF
        ∧ t.host.width = (if linkWidth width = 0 ∨ linkSpeed speed = 0 then 0 else linkWidth width)
        ∧ t.host.speed = (if linkWidth width = 0 ∨ linkSpeed speed = 0 then 0 else linkSpeed speed))
      ∧ (∀ b y, (s.at_ b).held = some (.hostLink y) → s.host.speed = 0 →
        let ctx := (s.at_ b).id.ctx
        answers (.hostAccessTimeout b) s
          (((s.coreEvent b 0x0721 2 (ctx % 4096 * 2 ^ 52 + y % 2 ^ 52)).stopSlot b).faultJob ctx 0x0721))
      ∧ (∀ line kind, ∃ t, answers (.cxlCacheSnoop line kind) s t
        ∧ t.host.snoop = (match mapGet 0 s.host.lines line with
          | 0 => none
          | 3 => some (s.memBytes (hostKey (64 * line)) 64)
          | _ => some [])
        ∧ mapGet 0 t.host.lines line = (match kind with
          | .data => min (mapGet 0 s.host.lines line) 1
          | .invalidate => 0
          | .current => mapGet 0 s.host.lines line))
      ∧ (s.fnThere fn = true → answers (.pmPowerStateWrite fn true) s
        (s.setHost { s.host with d3hot := mapSet false s.host.d3hot fn true }))
      ∧ (s.host.retry = false → answers .vfEnableSet s (s.setHost { s.host with vfEnable := true }))

/-! ### Footage -/

/-- R323, R331, R333, R342 to R344, R346, R348, R485: a batch queue is created where its descriptor passes every check and
destroyed with what it holds; a posted request is taken from its ring, and one that fails a check of R333 is reported; a
deadline marks what is not done as late. R327, R331, R333, R337, R342 to R344: what a batch queue that runs does with its
requests, once the reads and writes it needs are admitted. Where it rests on the model's own readings and choices: log
entries 14, 75, 77, 79, 80. -/
def Obligations.BatchQueues : Prop :=
  (∀ (s : State) (q op : Nat) (bs : List Byte), s.Takes q op 1 bs →
      let t := s.taken q 1
      let r := s.replyOf q bs
      let e := sqeOf bs
      (op = 0x28 → ∀ b, t.targetBad r.fn e.target = none → e.target ≠ 0 → t.readDesc e.desc 64 = some b → t.bqBad b = none →
          t.mediaUp (bqDie b) e.target = true → t.fnMayUse r.fn (bqPolder b) = true → t.variant ≠ .tbx20c →
          answers (.batchqCreate q) s (({ t with nextHandle := t.nextHandle + 1 }.setBq t.nextHandle
            { desc := b, ctx := e.target, fn := r.fn }).finish r 0 0 t.nextHandle))
        ∧ (op = 0x28 → ∀ b off, t.targetBad r.fn e.target = none → e.target ≠ 0 → t.readDesc e.desc 64 = some b →
          t.bqBad b = some off → answers (.batchqCreate q) s (t.finish r 0x0C off 0))
        ∧ (op = 0x29 → (t.bq e.arg1).live = true → (r.fn = 0 ∨ (t.bq e.arg1).fn = r.fn) →
          answers (.batchqDestroy q) s ((t.dropBq e.arg1).finish r 0 0 0))) ∧
  (∀ (s : State) (h : Nat), s.bqGoes h = true →
      let v := s.bq h
      let d := v.desc
      let who := s.mediaWho (bqDie d) 0 v.ctx (bqPolder d)
      let a := bqReqRing d + v.taken % bqReqEntries d * 128
      (s.postThere v.ctx (bqReqSem d) = true → s.devStop who false a 128 = none → ∃ t x, answers (.sampleRequestTake h) s t
          ∧ (t.bq h).taken = v.taken + 1 ∧ (t.bq h).reqs = v.reqs ++ [x] ∧ x.seq = v.taken
          ∧ x.bytes = (s.devSpend who false a 128).devRead a 128 ∧ x.started = false
          ∧ (t.bq h).plan.length = v.plan.length + rqSamples x.bytes
          ∧ (t.sem v.ctx (bqReqSem d)).value = (s.sem v.ctx (bqReqSem d)).value - 1)
        ∧ (∀ r bufs, v.out = [] → v.reqs.find? (fun r => !r.started) = some r → v.freeBuffers (rqSamples r.bytes) = some bufs →
          let busy := bufs.foldl (fun m i => mapSet false m i true) v.busy
          let u : BatchQ := { v with plan := giveBuffers r.seq v.plan bufs, busy := busy }
          let begun := { r with started := true, since := s.time }
          (r.fail ≠ 0 → answers (.decodeStart h r.seq) s (s.setBq h (u.setReq begun)))
            ∧ (r.fail = 0 → (v.reqs.filter (fun x => x.started && !x.dead)).length < bqParallel d → s.allHit d r.bytes = true →
              answers (.decodeStart h r.seq) s (s.setBq h (u.setReq
                { begun with fill := true, first := some s.time, deadline := v.deadlineUs r.bytes }))))
        ∧ (∀ r, v.reqs.find? (fun x => decide (x.seq = r.seq)) = some r → r.ripe = true →
          answers (.sampleComplete h r.seq) s (s.writeSamples h r))
        ∧ (∀ r, v.reqs.find? (fun x => decide (x.seq = r.seq)) = some r → r.first ≠ none →
          ∃ t, answers (.sampleDeadlineExpiry h r.seq) s t ∧ t.mem = s.mem
            ∧ (t.bq h).plan = v.plan.map (fun p => p.map (fun m => if m.req = r.seq ∧ m.done = false then { m with late := true } else m)))
        ∧ (∀ x, v.out = [] → 0 < bqBatchEntries d → v.plan ≠ [] → bqSlots d ≤ v.plan.length →
          fillBatch (bqFill d) (bqReplace d) (v.plan.take (bqSlots d)) { rest := v.plan.drop (bqSlots d) } = some x →
          let at_ := bqBatchRing d + v.batch % bqBatchEntries d * bqEntryBytes d
          let bytes := batchDesc v.batch false x.slots
          s.piecesWait who [(at_, bytes)] = none → bytes ≠ [] →
          answers (.batchAssemble h) s ((((s.devSpend who true at_ bytes.length).devWrite v.ctx at_ bytes).setBq h
            { v with plan := x.rest, batch := v.batch + 1, out := v.out ++ [x.bufs] }).semPost1 v.ctx (bqBatchSem d) none)))

/-- R328, R350, R355 to R358, R363, R370, R371, R485, R539: a stream is opened on a free stream context, takes its frames
from its ring, has them coded one at a time on an engine of its die, and closes with its summary; an engine with nothing
ready is powered off. Where it rests on the model's own readings and choices: log entries 14, 81, 82, 83. -/
def Obligations.EncodeStreams : Prop :=
  ∀ (s : State),
    (∀ q bs, s.Takes q 0x30 1 bs →
        let t := s.taken q 1
        let r := s.replyOf q bs
        let e := sqeOf bs
        ∀ b i, t.targetBad r.fn e.target = none → e.target ≠ 0 → t.readDesc e.desc 128 = some b →
          t.mediaUp (esDie b) e.target = true → t.fnMayUse r.fn (esPolder b) = true → t.esBad b = none →
          (esLevel b = 0 ∨ Config.levelHolds b = true) → t.freeStream (esDie b) = some i → t.variant ≠ .tbx20c →
          answers (.encOpen q) s (((({ t.tick with nextHandle := t.nextHandle + 1 } : State).setStream (esDie b) i
            (.encode t.nextHandle)).setEnc t.nextHandle { desc := b, ctx := e.target, fn := r.fn, stream := i,
                                                          model := esCap b * esWin b }).finish r 0 0
            (i * 256 + t.nextHandle % 2 ^ 32 * 65536)))
      ∧ (∀ q bs, s.Takes q 0x31 1 bs →
        let t := s.taken q 1
        let r := s.replyOf q bs
        let e := sqeOf bs
        let v := t.enc e.arg1
        v.live = true → (r.fn = 0 ∨ v.fn = r.fn) → v.closeReq = none →
        answers (.encClose q) s (t.setEnc e.arg1 { v with closing := true, closeReq := some r }))
      ∧ (∀ h,
        let v := s.enc h
        let d := v.desc
        let who := s.mediaWho (esDie d) 0 v.ctx (esPolder d)
        let a := esRing d + v.taken % esEntries d * 64
        (s.encGoes h = true → v.ended = false → s.postThere v.ctx (esFrameSem d) = true → s.devStop who false a 64 = none →
          ∃ t x, answers (.encFrameTake h) s t ∧ (t.enc h).taken = v.taken + 1 ∧ (t.enc h).frames = v.frames ++ [x]
            ∧ x.index = v.taken ∧ x.bytes = (s.devSpend who false a 64).devRead a 64
            ∧ (t.enc h).ended = feEnd x.bytes ∧ t.mem.bytes = s.mem.bytes)
          ∧ (∀ f rest eng, v.group = f :: rest → v.live = true → v.engine = some eng → s.engineUp (esDie d) eng = true →
            (s.job v.ctx).faulted = false → answers (.encodeFrame h eng) s (s.encodeFrame h f rest))
          ∧ (v.live = true → v.engine = none → v.state = 0 → s.mediaLantern (esDie d) 1 = true →
            (v.status ≠ 0 ∨ (v.closing = true ∧ v.frames = [] ∧ v.group = [] ∧ s.encFinal v = true)) →
            s.piecesWait who [(esSummary d, summaryOf v)] = none →
            answers (.encodeCloseComplete h) s
              (((s.devSpend who true (esSummary d) 64).devWrite v.ctx (esSummary d) (summaryOf v)).endEnc h)))
      ∧ (∀ media eng i, s.engineUp media eng = true → (∀ e ∈ s.media.encs, ¬ (esDie e.2.desc = media ∧ e.2.engine = some eng)) →
        (∀ e ∈ s.media.encs, e.2.recons = []) → s.nextStream media eng = some i →
        let n := 2 * media + eng
        let t := s.setMedia { s.media with served := mapSet 0 s.media.served n (i + 1), off := mapSet false s.media.off n false }
        (∀ h seq, s.stream media i = .ingest h seq → answers (.codecFrame media eng) s (t.decodeFrame h seq eng))
          ∧ (∀ h v, s.stream media i = .encode h → s.encGroup (s.enc h) = some v →
            answers (.codecFrame media eng) s (t.setEnc h { v with engine := some eng })))
      ∧ (∀ media eng, media < 4 → eng < 2 → (∀ e ∈ s.media.encs, ¬ (esDie e.2.desc = media ∧ e.2.engine = some eng)) →
        (∀ i < 64, s.streamReady media i = false) →
        answers (.codecPowerOff media eng) s
          (s.setMedia { s.media with off := mapSet false s.media.off (2 * media + eng) true }))

/-! ### Jobs, polders, resets -/

/-- R374, R377, R378, R390 to R392, R485, R486: a submission that passes every check takes its context ID and is answered
with it, and one that fails is refused with its status; SUSPEND, RESUME and CANCEL of a job act on it or complete with status
0x08 where it is ending; PROGRESS answers with its record. Where it rests on the model's own readings and choices: log
entries 89, 91, 92. -/
def Obligations.JobCommands : Prop :=
  ∀ (s : State) (q op : Nat) (bs : List Byte), s.Takes q op 1 bs →
    let t := s.taken q 1
    let r := s.replyOf q bs
    let e := sqeOf bs
    let j := t.job e.target
    (s.Takes q 0x01 2 bs → s.lanternDown 30 = false → s.lanternDown 31 = false → ∀ id b,
        let t := s.taken q 2
        t.pickId (fun i => (t.job i).live) 1 4095 t.jobs.length = some id → t.readDesc e.desc 128 = some b →
        (∀ j, t.submitCheck r e b = .inl j → answers (.submit q) s (t.accept r id j))
          ∧ (∀ st d, t.submitCheck r e b = .inr (st, d) → st ≠ 0x02 → answers (.submit q) s (t.endShort r st d)))
      ∧ (cmdKind e = 1 → j.live = true → (r.fn = 0 ∨ j.fn = r.fn) → j.faulted = false → j.state = 0 →
        (op = 0x02 → answers (.suspend q) s (t.suspendJob e.target [r]))
          ∧ (op = 0x03 → answers (.resume q) s (t.finish r 0 0 0))
          ∧ (op = 0x04 → answers (.cancel q) s ((t.cancelJob e.target).finish r 0 0 0)))
      ∧ (cmdKind e = 1 → j.live = true → (r.fn = 0 ∨ j.fn = r.fn) → j.faulted = false → j.state = 2 → op = 0x03 →
        answers (.resume q) s ((t.resumeJob e.target).finish r 0 0 0))
      ∧ (cmdKind e = 1 → j.live = true → (r.fn = 0 ∨ j.fn = r.fn) → (j.faulted = true ∨ 3 ≤ j.state) →
        (op = 0x02 → answers (.suspend q) s (t.finish r 0x08 0 0)) ∧ (op = 0x03 → answers (.resume q) s (t.finish r 0x08 0 0))
          ∧ (op = 0x04 → answers (.cancel q) s (t.finish r 0x08 0 0)))
      ∧ (op = 0x05 → cmdKind e = 1 → j.live = true → (r.fn = 0 ∨ j.fn = r.fn) →
        let ended := (j.tasks.filter (fun t => decide (t.2.state = 4))).length
        let total := (j.stages.map (·.tasks)).sum
        let data := [1, BitVec.ofNat 8 j.state] ++ List.replicate 6 0 ++ toBytes 8 ended ++ toBytes 8 total ++ toBytes 8 s.time
        answers (.progress q) s (t.tick.complete r false { data := data }))

/-- R378, R390, R393, R493: a job all of whose tasks have ended completes; a suspend whose parts have landed saves every
resident task and completes; a faulted job is torn down, which keeps its number while its objects are in quarantine; a
function that is reset loses its jobs and queues. Where it rests on the model's own readings and choices: log entries 86, 91,
93. -/
def Obligations.JobEnds : Prop :=
  ∀ (s : State) (ctx : Nat),
    let j := s.job ctx
    (s.jobManagerUp = true → j.live = true → j.faulted = false → j.state = 0 → j.allEnded = true → s.holdsUnits ctx = false →
        answers (.jobComplete ctx) s
          (((((s.abandonRefresh ctx).writeStats ctx).dropGroups ctx).freeJob ctx).finish j.reply 0 0 0))
      ∧ (j.live = true → j.faulted = false → j.state = 1 → s.writesHeld ctx = false → s.opsLanded ctx = true →
        (∀ f, s.saveFail ctx = some f → answers (.suspendComplete 1 ctx 0) s (s.faultJob ctx (f.event ctx).1))
          ∧ (s.saveFail ctx = none → j.resumeReq = none → ∃ t, answers (.suspendComplete 1 ctx 0) s t
            ∧ (t.job ctx).state = 2 ∧ (t.job ctx).waiting = []))
      ∧ (j.live = true → j.faulted = true → j.state ≠ 4 → s.lanternDown 30 = false → s.lanternDown 31 = false →
        (j.faultCore = 0xFF ∨ (s.die (j.faultCore / 24)).resetting = false) →
        ∃ t, answers (.jobTeardown ctx) s t ∧ (t.job ctx).tasks = [] ∧ ((t.job ctx).state = 4 ∨ t.job ctx = {}))
      ∧ (∀ vf, 1 ≤ vf → vf < 16 → s.host.retry = false → s.host.vfEnable = true →
        answers (.vfFlr vf) s ((s.resetFn vf).orphanAll vf))
      ∧ (s.host.retry = false → answers .pfFlr s (s.resetFn 0))

/-- R319, R383, R385 to R389, R539: the registers of polders and dikes as PF0 writes them; tokens accrue to no more than the
burst and the time a dike held requests is counted; pressure is reported; a core that holds no context is powered off. Where
it rests on the model's own readings and choices: log entries 94, 95. -/
def Obligations.PolderRegisters : Prop :=
  ∀ (s : State) (p : BitVec 4) (i : BitVec 6) (w : Lane) (us core : Nat),
    let x := s.polder p.toNat
    let d := s.dike p.toNat i.toNat
    (s.serves 0 = true → answers (.polderCtrlWrite p w) s (s.setPolder p.toNat { x with
        enable := w.toNat.testBit 31, exclusive := w.toNat.testBit 30, priority := w.toNat / 2 ^ 27 % 8,
        slotQuota := w.toNat % 1024 }))
      ∧ (s.serves 0 = true → answers (.polderSaltWrite p false w) s (s.setPolder p.toNat { x with saltLo := w.toNat }))
      ∧ (s.serves 0 = true → answers (.polderSaltWrite p true w) s
        (s.setPolder p.toNat { x with salt := w.toNat % 16 * 2 ^ 32 + x.saltLo }))
      ∧ (s.serves 0 = true → s.dikeThere i.toNat = true →
        answers (.dikeRegisterWrite p i true w) s (s.setDike p.toNat i.toNat { d with
            burst := max (w.toNat % 2 ^ 24) 1, tokens := min d.tokens (burstTokens i.toNat (max (w.toNat % 2 ^ 24) 1)) })
          ∧ answers (.dikeRegisterWrite p i false w) s (s.setDike p.toNat i.toNat { d with
            rate := w.toNat % 2 ^ 24, tokens := if d.rate = 0xFFFFFF then burstTokens i.toNat d.burst else d.tokens }))
      ∧ (s.dikeThere i.toNat = true → d.rate ≠ 0xFFFFFF → ∃ t, answers (.dikeTokenAccrual p i us) s t
        ∧ (t.dike p.toNat i.toNat).tokens = min (burstTokens i.toNat d.burst) (d.tokens + (d.rate * us : Nat))
        ∧ (t.dike p.toNat i.toNat).waitUs = d.waitUs + (if d.holding then us else 0)
        ∧ (t.dike p.toNat i.toNat).rate = d.rate ∧ (t.dike p.toNat i.toNat).burst = d.burst)
      ∧ (s.dikeThere i.toNat = true → ∃ t, answers (.dikeWindow p i) s t ∧ (t.dike p.toNat i.toNat).heldUs = 0
        ∧ (d.heldUs < 900000 → t.ev = s.ev)
        ∧ (900000 ≤ d.heldUs → s.hub.running = true → mapGet 0 s.ev.lastPost (0x0123 * 4096 + p.toNat * 64 + i.toNat) = 0 →
          ∃ e, t.ev.detected = s.ev.detected ++ [e] ∧ e.code = 0x0123))
      ∧ (s.fnOpen 0 = true → ∃ t, answers (.hubVfPolderWrite true w) s t ∧ t.hub.vfPolder0 = s.hub.vfPolder0
        ∧ ∀ k, 8 ≤ k → k < 16 → t.vfPolder k = if s.vfBusy k then s.vfPolder k else w.toNat / 2 ^ (4 * (k - 8)) % 16)
      ∧ (core < 192 → (∀ k ∈ (s.core core).slots, k.2.id.resident = false) → (s.core core).health.underTest = false →
        answers (.corePowerOff core) s (s.setCore core { s.core core with
          icache := [], health := { (s.core core).health with off := true } }))

/-- R13, R17, R67, R494, R507, R549: a core reset leaves a core at reset but for what the journal keeps of its fence; a
region or a die that resets comes back in service or, for a die that does not, goes out of service; PERST# enters and leaves.
R453, R495, R501, R549, R558: what a warm reset and a cold reset leave. A warm reset keeps the stacks, the home table, the
event log and the fitted memory, and stops the cores, the queues and the rings; a cold reset clears memory, and the journal
survives both. Where it rests on the model's own readings and choices: log entries 96, 97, 99, 100. -/
def Obligations.Resets : Prop :=
  (∀ (s : State) (c r d : Nat),
      (c < 192 → ∃ t : State, answers (.coreReset c) s t ∧ ∃ u : Machine.Core, t.core c = { health :=
          { fenced := u.health.fenced, fenceReason := u.health.fenceReason, testedSinceFence := u.health.testedSinceFence } })
        ∧ (r < 16 → (s.region r).resetting = false → (s.die (r / 2)).resetting = false → ∃ t, answers (.regionReset r) s t
          ∧ (t.region r).resetting = true ∧ t.lanternDown r = false)
        ∧ ((s.region r).resetting = true → (s.die (r / 2)).resetting = false →
          answers (.regionBackInService r) s (s.setRegion r { s.region r with resetting := false }))
        ∧ (8 ≤ d → d < 0x0C → s.dieUp d = true → s.media.encs = [] → s.media.queues = [] → ∃ t, answers (.dieReset d) s t
          ∧ (t.die d).resetting = true ∧ (t.die d).resets = min ((s.die d).resets + 1) 255 ∧ t.mem = s.mem)
        ∧ ((s.die d).resetting = true → d < 0x10 → answers (.dieResetTimeout d) s
          ((s.failWaiters d).setDie d { (s.failWaiters d).die d with out := true, resetting := false }))
        ∧ ((s.die d).resetting = true → 8 ≤ d →
          answers (.dieBackInService d) s (s.setDie d { s.die d with resetting := false }))
        ∧ (s.host.perst = true → answers .perstDeassert s
          { s with host := { s.host with perst := false }, boot := { s.boot with since := s.time } })) ∧
  (∀ (s : State),
      (s.boot.done % 4 = 3 → s.power.mainOff = false → s.power.standbyOff = false → s.hub.running = true →
          s.ev.detected = [] → s.media.encs = [] → s.mem.glow = [] →
          ∃ t, answers .warmReset s t ∧ t.mem.bytes = s.mem.bytes ∧ t.mem.poison = s.mem.poison ∧ t.mem.home = s.mem.home
            ∧ t.ev.journal = s.ev.journal ∧ t.ev.log = s.ev.log ∧ t.ev.next = s.ev.next ∧ t.time = s.time
            ∧ t.hub.pkgId = s.hub.pkgId ∧ t.hub.dielocal = s.hub.dielocal ∧ t.ddrBytes = s.ddrBytes
            ∧ t.variant = s.variant ∧ t.hub.running = false ∧ t.host.queues = [] ∧ t.levee.routes = [] ∧ t.sems = []
            ∧ t.pending = s.pending)
        ∧ (s.power.standbyOff = false → s.hub.running = true → s.ev.detected = [] → s.dep.refreshLog = [] →
          ∃ t, answers .coldReset s t ∧ t.mem = {} ∧ t.ev.journal = s.ev.journal ++ s.ev.journalWait ∧ t.ev.log = []
            ∧ t.ev.next = 0 ∧ t.ev.bootCount = s.ev.bootCount + 1 ∧ t.time = 0 ∧ t.hub = State.reset.hub
            ∧ t.host.queues = [] ∧ t.jobs = [] ∧ t.variant = s.variant ∧ t.pending = s.pending)
        ∧ (s.boot.done % 4 ≠ 3 → ∃ t, answers .perstAssert s t ∧ t.host.perst = true ∧ t.host.retry = true
          ∧ t.host.msix = [] ∧ t.mem = s.mem))

/-! ### Dependability and the warden -/

/-- R431, R446 to R449: the fence and unfence commands; a test of a core that leaves it empty and shows its result; the tests
of other units; the window of a core's count. Where it rests on the model's own readings and choices: log entries 105, 106.
-/
def Obligations.FencesAndTests : Prop :=
  ∀ (s : State),
    (∀ c : BitVec 8, s.fnOpen 0 = true → c.toNat < 192 →
        let k := s.core c.toNat
        (k.health.fenced = false → ∃ t, answers (.coreFenceCmd c) s t
          ∧ (t.core c.toNat).health.fenced = true ∧ (t.core c.toNat).health.fenceReason = 4)
          ∧ (k.health.fenced = true → k.health.testedSinceFence = true → ∃ t, answers (.coreUnfenceCmd c) s t
            ∧ (t.core c.toNat).health.fenced = false ∧ t.hub.fenceRefused = s.hub.fenceRefused)
          ∧ (k.health.fenced = true → k.health.testedSinceFence = false → ∃ t, answers (.coreUnfenceCmd c) s t
            ∧ (t.core c.toNat).health.fenced = true ∧ t.hub.fenceRefused = true))
      ∧ (∀ q bs d, s.Takes q 0x40 1 bs → s.dep.update = none →
        let t := s.taken q 1
        let r := s.replyOf q bs
        r.fn = 0 → t.readDesc (sqeOf bs).desc 16 = some d → recField d 0 1 < 64 → recField d 1 1 = 0 → recField d 2 1 < 4 →
        recField d 3 1 = 0 → recField d 4 2 ≤ 191 → recField d 4 2 ≤ recField d 6 2 → recField d 6 2 ≤ 191 →
        recField d 8 8 = 0 → t.testUnits d ≠ [] →
        answers (.selftest q) s ((({ t with nextHandle := t.nextHandle + 1 } : State).setTest t.nextHandle
          { live := true, reply := r, desc := d, units := t.testUnits d }).finish r 0 0 t.nextHandle))
      ∧ (∀ c pass, c < 192 → s.testNow = none → (s.core c).health.underTest = true → s.dieUp (c / 24) = true →
        s.lanternDown (c / 12) = false → (s.region (c / 12)).resetting = false →
        ∃ t, answers (.coreTest c pass) s t ∧ (t.core c).health.underTest = false
          ∧ (t.core c).health.lastTest = (if pass then 1 else 2) ∧ (t.core c).buf = [] ∧ (t.core c).acc = [])
      ∧ (∀ c, c < 192 → answers (.fenceWindowExpiry c) s
        (s.setCore c { s.core c with health := { (s.core c).health with windowCount := 0 } }))
      ∧ (∀ h u pass, s.testNow = some (h, unitOf u) → s.unitIdle (unitOf u) = true →
        answers (.unitTest u pass) s (s.unitTested h (unitOf u) pass))

/-- R30, R440 to R443: failed resends retire a causeway port at the sixteenth in a row; a lantern whose watchdog expires
restarts, and is contained at the second expiry within a second; a mismatch of the warden's pair halts it until it has
restarted. Where it rests on the model's own readings and choices: log entries 103, 109. -/
def Obligations.LanternsAndPair : Prop :=
  ∀ (s : State) (p n : Nat),
    let k := mapGet 0 s.dep.resends p + 1
    (answers (.causewayCrcFail p true) s (s.setDep { s.dep with resends := mapSet 0 s.dep.resends p 0 }))
      ∧ (p < 32 → mapGet false s.portsDown p = false → k < 16 →
        answers (.causewayCrcFail p false) s (s.setDep { s.dep with resends := mapSet 0 s.dep.resends p k }))
      ∧ (p < 32 → mapGet false s.portsDown p = false → 16 ≤ k → ∃ t, answers (.causewayCrcFail p false) s t
        ∧ mapGet false t.portsDown p = true)
      ∧ (n < 38 → s.dieUp (lanternDie n) = true → s.hub.running = true → mapGet 0 s.dep.expiry n = 0 →
        ∃ t, answers (.lanternWatchdogExpiry n) s t ∧ t.lanternDown n = true ∧ mapGet 0 t.dep.expiry n = s.time + 1)
      ∧ (n < 16 → s.dieUp (lanternDie n) = true → s.hub.running = true → mapGet 0 s.dep.expiry n ≠ 0 →
        s.time + 1 ≤ mapGet 0 s.dep.expiry n + second → s.dep.update = none → ∃ t, answers (.lanternWatchdogExpiry n) s t
          ∧ (t.region n).resetting = true ∧ t.lanternDown n = false ∧ mapGet 0 t.dep.expiry n = 0)
      ∧ (s.lanternDown n = true → ∃ t, answers (.lanternRestartDone n) s t ∧ t.lanternDown n = false)
      ∧ (s.hub.running = true → s.ev.halted = false → answers .hubHeartbeatTimeout s
        (((s.post { code := 0x080D, sev := 1, die := 0x13, cls := 7,
                    detail := detailF (Config.freeNat s.freeCtr % 256) (Config.resetLevel 4) }).tick).warmReset))
      ∧ (s.boot.done.testBit 0 = true → s.ev.halted = false → answers .pairOutputMismatch s s.pairMismatch
        ∧ s.pairMismatch.ev.halted = true)
      ∧ (s.ev.halted = true → s.ev.journal.length + s.ev.journalWait.length ≤ 8192 → ∃ t,
        answers .wardenPairRestartDone s t ∧ t.ev.halted = false ∧ t.ev.journal = s.ev.journal ++ s.ev.journalWait
          ∧ t.ev.journalWait = [] ∧ t.power.host = s.power.hostWaits.getD s.power.host ∧ t.power.hostWaits = none)

/-- R444, R445: the steps of a live update: an empty region runs the new image, then the other dies one by one, then the hub;
a lantern that fails its start checks takes everything back. Where it rests on the model's own readings and choices: log
entry 110. -/
def Obligations.LiveUpdate : Prop :=
  ∀ (s : State) (u : Update), s.dep.update = some u →
    (∀ r, s.updateRegion = some r → (s.region r).resetting = false → s.lanternDown r = false →
        (∀ c ∈ coresOf r, s.core c = {}) → ∃ t v, answers (.regionFirmwareSwitch r) s t ∧ t.dep.update = some v
          ∧ v.regions = u.regions ++ [r] ∧ v.slotB = u.slotB ∧ mapGet 0 v.times r = s.time + 1
          ∧ t.running (r / 2) = (s.imgSlot u.slotB).image (dieType (r / 2)))
      ∧ (∀ d, u.step = 4 → d ∈ s.diesLeft u → s.dieIdle d = true → (∀ n ∈ lanternsOf d, s.lanternDown n = false) →
        ∃ t v, answers (.dieFirmwareSwitch d) s t ∧ t.dep.update = some v ∧ v.dies = u.dies ++ [d]
          ∧ t.running d = (s.imgSlot u.slotB).image (dieType d))
      ∧ (u.step = 5 → s.ev.halted = false → s.jobs = [] → u.jobs = [] → ∃ t, answers .hubUpdateRestart s t
        ∧ t.dep.update = none ∧ t.hub.updateActive = false ∧ t.sec.activeB = u.slotB
        ∧ t.running 0x12 = (s.imgSlot u.slotB).image 1)
      ∧ (∀ n, mapGet 0 u.times n ≠ 0 → answers (.firmwareRevert n) s (s.updateBack n))
      ∧ (∀ n, u.before = [] → u.regions = [] → u.jobs = [] → mapGet 0 u.times n ≠ 0 → ∃ t,
        answers (.firmwareRevert n) s t ∧ t.dep.update = none ∧ t.hub.updateActive = false)

/-- R434 to R438: a corrected SRAM word is counted and, at most once a second for its unit, posted; an uncorrectable one
faults the context it strikes; an uncorrectable word of memory leaves poison on its 64 bytes and nothing else; a home entry
that cannot be corrected is quarantined; the patrol scrub changes nothing that software sees. Where it rests on the model's
own readings and choices: log entry 108. -/
def Obligations.StorageErrors : Prop :=
  ∀ (s : State),
    (∀ c k, c < 192 → k < 4 → ∃ t, answers (.sramEccError (.slotStore c k) true) s t ∧ t.mem = s.mem
        ∧ (t.core c).health.sramCorrected = min ((s.core c).health.sramCorrected + 1) 0xFFFF)
      ∧ (∀ c k, c < 192 → k < 4 → (s.slot c k).id.resident = false → answers (.sramEccError (.slotStore c k) false) s s)
      ∧ (∀ c correctable, c < 192 → answers (.sramEccError (.clearBlock c) false) s s
        ∧ answers (.sramEccError (.clearBlock c) correctable) s (if correctable then s.sramCorrected (.clearBlock c) else s))
      ∧ (∀ name, name < hostBase → (s.home (name / extentBytes)).state = 2 → (s.home (name / extentBytes)).tier ≠ 2 →
        answers (.memEccError (.word name) false) s
          { s with mem := { s.mem with poison := mapSet false s.mem.poison (name / 64) true } })
      ∧ (∀ x, x < stackEnd / extentBytes → s.host.flips = [] → s.sluices = [] → ∃ t,
        answers (.memEccError (.homeEntry x) false) s t ∧ (t.home x).state = 4 ∧ (t.home x).object = (s.home x).object
          ∧ t.mem.bytes = s.mem.bytes)
      ∧ answers .patrolScrub s s

/-- R513, R540, R541, R542: the limit in force is the least of its terms; each millisecond over the limit lowers a step of
the tensor clock, then of the other engines; each fifth in a row below 98 % of it gives one back; the limits are clamped; a
trip halves the tensor steps. R543, R544, R566: a die at 95 °C or more lowers the thermal term by 50 W a millisecond and dies
below 92 °C let it rise; low flow caps the limit; a sensor is faulty after ten samples that say so; a die that stays too hot
takes the main rails down. Where it rests on the model's own readings and choices: log entries 111, 112, 114. -/
def Obligations.PowerAndHeat : Prop :=
  (∀ (s : State) (w : Nat) (v : Lane),
      let p := s.power
      (s.wardenRuns = true → s.railsUp = true → s.limit < w → 4 < p.tensor → p.tensor ≤ 32 → ∃ t,
          answers (.powerLoopTick w) s t ∧ t.power.tensor = p.tensor - 1 ∧ t.power.other = p.other ∧ t.power.watts = w
            ∧ t.power.throttleMs = min (p.throttleMs + 1) 0xFFFF ∧ t.power.clearMs = 0)
        ∧ (s.wardenRuns = true → s.railsUp = true → s.limit < w → p.tensor = 4 → 16 < p.other → ∃ t,
          answers (.powerLoopTick w) s t ∧ t.power.tensor = 4 ∧ t.power.other = p.other - 1)
        ∧ (s.wardenRuns = true → s.railsUp = true → w * 100 < 98 * s.limit → 4 ≤ p.underMs → p.idle = false → p.other = 32 →
          p.tensor < 32 → ∃ t, answers (.powerLoopTick w) s t ∧ t.power.tensor = p.tensor + 1 ∧ t.power.other = 32)
        ∧ (s.railsUp = true → 11 * s.limit < 10 * w → ∃ t, answers (.overcurrentTrip w) s t
          ∧ t.power.tensor = max 4 (p.tensor / 2) ∧ t.power.other = p.other ∧ t.power.clearMs = 0)
        ∧ (s.wardenRuns = true → s.dep.safeMode = false →
          answers (.mgmtPowerLimit w) s (s.setPower { p with mgmt := max 1200 (min w 3300) }))
        ∧ (s.serves 0 = true → s.ev.halted = false →
          answers (.pwrHostLimitWrite v) s (s.setPower { p with host := max 1200 (min (v.toNat % 65536) 3300) }))
        ∧ (s.limit ≤ p.mgmt ∧ s.limit ≤ p.host ∧ s.limit ≤ p.term ∧ s.limit ≤ 3300)) ∧
  (∀ (s : State) (d ms : Nat) (x : Int),
      let p := s.power
      (s.wardenRuns = true → s.variant.fits d = true → d < 20 → 950 ≤ x → x < 1050 → ∃ t,
          answers (.thermalTermUpdate d x ms) s t ∧ t.power.term = max 1200 (p.term - 50 * ms) ∧ t.power.temp d = x)
        ∧ (s.wardenRuns = true → s.variant.fits d = true → d < 20 → x < 920 → p.undervolt = false →
          (∀ e < 20, e ≠ d → s.variant.fits e = true → p.temp e < 920) → ∃ t, answers (.thermalTermUpdate d x ms) s t
            ∧ t.power.term = min 3300 (p.term + 50 * ((p.coolMs + ms) / 10)) ∧ t.power.temp d = x ∧ t.ev = s.ev)
        ∧ (s.wardenRuns = true → p.flow.fault = 0 → p.flow.value < 1000 → ∃ t, answers .flowLowSustained s t
          ∧ t.power.flowCap = true ∧ t.limit ≤ 1200)
        ∧ (∀ y, s.wardenRuns = true → p.inlet.fault = 0 → p.flow.fault = 0 → x ≤ 450 → 2000 ≤ y →
          answers (.sensorSample (.valid x) (.valid y)) s
            (s.setPower { p with inlet := { value := x }, flow := { value := y }, flowCap := false }))
        ∧ (∀ y, s.wardenRuns = true → p.inlet.fault = 0 → 9 ≤ p.inlet.run → p.flow.fault = 0 → 2000 ≤ y → ∃ t,
          answers (.sensorSample .open_ (.valid y)) s t ∧ t.power.inlet.fault = 1 ∧ t.power.inlet.value = p.inlet.value)
        ∧ (s.wardenRuns = true → s.railsUp = true → s.variant.fits d = true → 1050 ≤ x →
          answers (.thermalHoldExpiry d x) s ((s.post (powerEv 0x0A05 3 x d 0)).mainDown)))

/-- R548, R556, R557: what the input, the DIMM fuses, the management bus and the clocks do. Without the main rails only the
warden goes on: memory is gone, its limits, its mode and its journal stay. Where it rests on the model's own readings and
choices: log entries 112, 113, 115. -/
def Obligations.InputFaults : Prop :=
  ∀ (s : State) (x : Int),
    (x < 0 → s.power.standbyOff = false → ∃ t, answers (.inputReversed x) s t ∧ t.power.reversed = true
        ∧ t.power.volts = x)
      ∧ (x < 4000 → s.railsUp = true → s.power.undervolt = false → ∃ t, answers (.inputUndervolt x) s t
        ∧ t.power.undervolt = true ∧ t.power.term = 1200 ∧ t.limit ≤ 1200)
      ∧ (x < 4000 → s.railsUp = true → answers (.mainPowerLost x) s ((s.setVolts x).powerEvent 0x0A0C 3 x).mainDown)
      ∧ (6000 < x → s.power.standbyOff = false →
        answers (.inputOvervolt x) s ((s.setVolts x).postEachMinute (powerEv 0x0A0B 1 x 0x13 0)))
      ∧ (6300 < x → s.railsUp = true → answers (.inputOvervoltTrip x) s
        (((s.setVolts x).powerEvent 0x0A0B 1 x).powerEvent 0x0A0C 3 x).mainDown)
      ∧ (s.mainDown.mem = {} ∧ s.mainDown.power.mainOff = true ∧ s.mainDown.power.mgmt = s.power.mgmt
        ∧ s.mainDown.dep.safeMode = s.dep.safeMode ∧ s.mainDown.hub.running = false ∧ s.mainDown.jobs = [])
      ∧ (4000 ≤ x → x ≤ 6000 → s.power.standbyOff = false → s.power.mainOff = false → answers (.inputRecovered x) s
        (s.setPower { s.power with volts := x, reversed := false, undervolt := false }))
      ∧ (s.power.standbyOff = false → ∃ t, answers .standbyLost s t ∧ t.power.standbyOff = true ∧ t.hub = {} ∧ t.mem = {})
      ∧ (∀ socket mA, socket < 8 → s.variant ≠ .tbx20d → socket ∉ s.power.fuses → s.railsUp = true → ∃ t,
        answers (.dimmSupplyFault socket mA) s t ∧ t.ddrBytes = 0 ∧ t.host.active2 = false)
      ∧ (∀ n, s.wardenRuns = true → answers (.mgmtBusRecovered n) s (s.powerEvent 0x0A0E 0 n))
      ∧ (∀ d r, s.power.standbyOff = false →
        answers (.pllUnlock 8 d r) s ((s.post (powerEv 0x0A0F 1 8 0x13 0)).coldReset))
      ∧ (∀ d r, r < 16 → s.dieUp (r / 2) = true → s.railsUp = true →
        answers (.pllUnlock 0 d r) s ((s.post (powerEv 0x0A0F 1 0 (r / 2) (24 + r % 2))).regionReset r))

/-- R515, R525 to R531, R534, R535: a security request that reaches the hub on a port and that the table permits is answered
there; one that the table does not permit is counted and answered with 0x01. Stated for the management port. R531 to R533: a
token that passes its checks unlocks its level on its dies, which ends the challenge; with contexts in existence level 2
needs `force`; the unlock ends with its lifetime; JTAG reaches only what the unlock opens. Where it rests on the model's own
readings and choices: log entries 11, 102, 116, 117, 118. -/
def Obligations.SecurityAndDebug : Prop :=
  (∀ (s : State), s.hub.running = true → s.wardenRuns = true → s.dep.safeMode = false → s.boot.recovery = false →
      answers (.getCerts .mgmt) s (s.reply .mgmt 0 (((1 :: s.fitted.map (· + 2)).map Config.certificate).flatMap
          (fun c => toBytes 2 c.length ++ c)))
        ∧ (∀ nonce : List Byte, nonce.length = 32 → answers (.attest .mgmt nonce) s (s.reply .mgmt 0 (s.report nonce)))
        ∧ (∀ i nonce, 1 ≤ i → i ≤ 20 → s.variant.fits (i - 1) = true → ∃ t,
          answers (.spdmRequest .mgmt (.measurement i nonce)) s t
            ∧ mapGet {} t.sec.answers (spdmPort .mgmt) = { result := 0, rsp := padTo 0 64 (s.running (i - 1)).measurement })
        ∧ answers (.slotStatus .mgmt) s (s.reply .mgmt 0 (s.sec.slotA.status s ++ s.sec.slotB.status s
          ++ toBytes 1 (bit s.sec.activeB 0) ++ toBytes 1 s.sec.counter))
        ∧ (∃ t, answers (.portStats .mgmt) s t ∧ t.refusals = [] ∧ mapGet {} t.sec.answers (portNum .mgmt)
          = { result := 0, rsp := statPorts.flatMap (fun n => toBytes 4 (mapGet 0 s.refusals n)) })
        ∧ (∀ b off data, data.length ≤ 4080 → b ≠ s.sec.activeB → answers (.slotWrite .mgmt b off data) s
          ((s.setSlotB b { bytes := mapPut 0 (s.imgSlot b).bytes off data, writing := true }).reply .mgmt 0 []))
        ∧ (∀ off data, data.length ≤ 4080 → answers (.slotWrite .mgmt s.sec.activeB off data) s (s.reply .mgmt 0x06 []))
        ∧ (∀ b wait, s.sec.killed = false → s.dep.update = none → s.setFails (s.imgSlot b) = none →
          answers (.activate .mgmt b false wait) s
            (((s.setSlotB b { s.imgSlot b with writing := false }).activated b).reply .mgmt 0 []))
        ∧ (s.dep.update = none → ∃ t, answers (.svnCommit .mgmt) s t
          ∧ t.sec.counter = max s.sec.counter (min (s.imgSlot s.sec.activeB).svn 64)
          ∧ mapGet {} t.sec.answers (portNum .mgmt) = { result := 0, rsp := toBytes 1 t.sec.counter })
        ∧ (∃ t c, answers (.debugChallenge .mgmt) s t ∧ t.sec.challenge = some (c, s.time) ∧ c.length = 16
          ∧ mapGet {} t.sec.answers (portNum .mgmt) = { result := 0, rsp := toBytes 8 Config.serial ++ c })
        ∧ (s.jobs = [] → answers (.decommission .mgmt false) s (s.decommission.reply .mgmt 0 []))
        ∧ (∀ k, 1 ≤ k → k < 16 → answers (.getCerts (.vf k)) s ((s.refuse (.vf k) 0x01).reply (.vf k) 0x01 []))) ∧
  (∀ (s : State),
      (∀ token : List Byte, s.hub.running = true → s.wardenRuns = true → s.dep.safeMode = false → s.boot.recovery = false →
          token.length = 154 → s.tokenBad token = false →
          (tkLevel token = 1 → ∃ t, answers (.debugUnlock .mgmt token) s t ∧ t.sec.challenge = none
            ∧ t.sec.unlock = some { level := 1, mask := tkMask token, lifetime := tkLife token }
            ∧ mapGet {} t.sec.answers (portNum .mgmt) = { result := 0, rsp := [] })
            ∧ (tkLevel token = 2 → s.contextsExist = true → tkForce token = false →
              answers (.debugUnlock .mgmt token) s (s.reply .mgmt 0x07 [])))
        ∧ (∀ u, s.sec.unlock = some u → answers .debugUnlockExpiry s
          ((s.setSec { s.sec with unlock := none, halted := [] }).secEvent 0x0907 1
            (portDetail .jtag + secDetail 0 0 2 u.level)))
        ∧ (∀ u die addr, s.hub.running = true → s.sec.unlock = some u → die < 20 → u.mask.testBit die = true →
          (1 ≤ u.level → answers (.jtagAccess die .readReg addr none) s
            (s.reply .jtag 0 (toBytes 4 (s.spaceWord die (addr.toNat % 2 ^ 32 / 4 * 4)))))
            ∧ (2 ≤ u.level → answers (.jtagAccess die .halt addr none) s
              ((s.setSec { s.sec with halted := mapSet false s.sec.halted die true }).reply .jtag 0 [])))
        ∧ (∀ die kind addr data, s.hub.running = true → s.sec.unlock = none → ∃ t,
          answers (.jtagAccess die kind addr data) s t ∧ t.mem = s.mem ∧ t.cores = s.cores
            ∧ mapGet {} t.sec.answers (portNum .jtag) = { result := 1, rsp := [] }))

/-- R494, R524, R551, R554, R555: the phases of start-up in their order, each once what it waits for is there; a stack that
fails training stops it; the job manager opens once the others are complete. Where it rests on the model's own readings and
choices: log entries 107, 118, 119. -/
def Obligations.StartUp : Prop :=
  ∀ (s : State),
    (s.power.standbyOff = false → s.phaseDone 0 = false →
        (s.imgFails (imgParts s.sec.warden).1 (imgParts s.sec.warden).2).isNone = true →
        answers .wardenStart s ((s.setRunning 0x13 (imgOfHeader (imgParts s.sec.warden).1 0)).complete_ 0))
      ∧ (s.wardenRuns = true → s.phaseDone 1 = false → s.power.mainOff = false → s.power.reversed = false →
        answers .railSequence s (s.complete_ 1))
      ∧ (s.wardenRuns = true → s.railsUp = true → s.phaseDone 2 = false → s.sec.killed = false →
        s.slotValid s.sec.activeB = true → answers .slotVerify s ((s.bootFrom s.sec.activeB).numberEarly.complete_ 2))
      ∧ (∀ m w v, s.hub.running = true → s.host.perst = false → s.host.retry = true → s.railsUp = true →
        s.boot.recovery = false → answers (.cxlReady m w v) s
          ((s.setHost { s.host with retry := false, cxlMode := m, width := w, speed := v }).complete_ 3))
      ∧ (s.starting = true → s.phaseDone 2 = true → s.phaseDone 4 = false →
        (s.boot.warm = false → s.ddrTrains = true →
          answers (.memoryTrain { badStacks := [], badChannels := [] }) s ((((s.setPower { s.power with trainFailed := [] }
            ).setHost { s.host with active1 := true }).setHost { s.host with active1 := true, active2 := true }).complete_ 4))
          ∧ (∃ t, answers (.memoryTrain { badStacks := [3], badChannels := [] }) s t ∧ t.boot.stopped = true
            ∧ t.boot.done = s.boot.done))
      ∧ (s.starting = true → s.phaseDone 4 = true → s.phaseDone 5 = false → ∃ t, answers (.startupSelftest [] []) s t
        ∧ t.phaseDone 5 = true ∧ ∀ c < 192, (t.core c).health.lastTest = 1 ∧ (t.core c).health.underTest = false
          ∧ (t.core c).health.fenced = (s.core c).health.fenced)
      ∧ (s.starting = true → s.phaseDone 2 = true → s.phaseDone 6 = false →
        (∀ e ∈ s.levee.links, e.2.enable = true → e.2.cable = true → e.2.state ≠ 1 ∧ e.2.state ≠ 2) →
        answers .startupLinkTrain s (s.complete_ 6))
      ∧ (s.starting = true → phaseOf s.boot.done = 7 → ∃ t, answers .jobManagerOpen s t ∧ t.hub.jobOpen = true
        ∧ t.phaseDone 7 = true)

/-! ### Registers and reset -/

/-- R22, R24, R499, R500: a register is written and read by 32 or 64 bits; a narrow or misaligned write is ignored and sets
partial_write; a read of HUB_TIME_LO latches the high word; HUB_STACK_SPLIT takes a value up to 128 while no object has a
stack home, and a write that is refused sets its bit and changes nothing else. Where it rests on the model's own readings and
choices: log entries 120, 121, 122. -/
def Obligations.RegisterAccess : Prop :=
  ∀ (s : State) (off : Nat) (v : Word) (w : Lane), s.fnOpen 0 = true →
    (off % 4 = 0 → answers (.registerWrite 0 off 4 v) s (s.pfPut off (v.toNat % 2 ^ 32)))
      ∧ (off % 8 = 0 → answers (.registerWrite 0 off 8 v) s
        ((s.pfPut off (v.toNat % 2 ^ 32)).pfPut (off + 4) (v.toNat / 2 ^ 32 % 2 ^ 32)))
      ∧ (∀ width, width ≠ 4 → width ≠ 8 → answers (.registerWrite 0 off width v) s
        { s with hub := { s.hub with partialWrite := true } })
      ∧ (off % 4 ≠ 0 → answers (.registerWrite 0 off 4 v) s { s with hub := { s.hub with partialWrite := true } })
      ∧ (off % 4 = 0 → ∃ t, answers (.rcRegisterRead 0 off 4) s t ∧ t.host.value = s.regWord 0 off)
      ∧ (∃ t, answers (.rcRegisterRead 0 0xC8 4) s t ∧ t.host.value = s.host.linkWord % 2 ^ 32 ∧ t.host.retrains = 0)
      ∧ (∃ t, answers (.hubTimeLoRead 0 4) s t ∧ t.host.value = s.time % 2 ^ 32 ∧ t.timeHi 0 = s.time / 2 ^ 32 % 2 ^ 32)
      ∧ (w.toNat % 256 ≤ 128 → s.stackHomes = false →
        answers (.hubStackSplitWrite w) s { s with hub := { s.hub with dielocal := w.toNat % 256 } })
      ∧ (128 < w.toNat % 256 ∨ s.stackHomes = true →
        answers (.hubStackSplitWrite w) s { s with hub := { s.hub with splitRefused := true } })

/-- R1: HUB_CAPS0 reads what the variant is fitted with, and a write of it changes nothing. -/
def Obligations.Capabilities : Prop :=
  ∀ (s : State) (fn : Nat) (v : Word), s.fnOpen fn = true →
    (∃ t, answers (.rcRegisterRead fn 0x10 4) s t ∧ t.host.value = match s.variant with
        | .tbx20 => 0xFFFFC000
        | .tbx20c => 0xFF0FC001
        | .tbx20l => 0xFFF3C002
        | .tbx20d => 0xFFFF0003)
      ∧ answers (.registerWrite fn 0x10 4 v) s s

/-- R500: a read of HUB_TIME_LO latches the high word of the same timestamp; the next read of HUB_TIME_HI returns it, and one
that does not follow a read of HUB_TIME_LO the current high word; a 64-bit read at HUB_TIME_LO is one timestamp. -/
def Obligations.TimestampLatch : Prop :=
  ∀ (s : State), s.fnOpen 0 = true →
    (∃ t, answers (.hubTimeLoRead 0 4) s t ∧ t.host.value = s.time % 2 ^ 32
        ∧ mapGet none t.host.timeLatch 0 = some (s.time / 2 ^ 32 % 2 ^ 32))
      ∧ (∃ t, answers (.hubTimeLoRead 0 8) s t ∧ t.host.value = s.time % 2 ^ 64 ∧ mapGet none t.host.timeLatch 0 = none)
      ∧ (∀ x, mapGet none s.host.timeLatch 0 = some x → ∃ t, answers (.rcRegisterRead 0 0x2C 4) s t
        ∧ t.host.value = x % 2 ^ 32 ∧ mapGet none t.host.timeLatch 0 = none)
      ∧ (mapGet none s.host.timeLatch 0 = none → ∃ t, answers (.rcRegisterRead 0 0x2C 4) s t
        ∧ t.host.value = s.time / 2 ^ 32 % 2 ^ 32 ∧ mapGet none t.host.timeLatch 0 = none)

/-- R319: the salt registers of polder page p: both read 0 after reset, they read what they hold, a write of the low word
keeps the polder's salt, and a write of the high word makes the pair the polder's salt. -/
def Obligations.PolderSalt : Prop :=
  (∀ p < 16, State.reset.polderWord p 0x80 = 0 ∧ State.reset.polderWord p 0x84 = 0)
    ∧ ∀ (s : State) (p : Nat) (v : Word), p < 16 → s.serves 0 = true → s.fnOpen 0 = true →
      let page := 0x100000 + p * 0x1000
      let w := v.toNat % 2 ^ 32
      (∃ t, answers (.registerWrite 0 (page + 0x80) 4 v) s t ∧ t.polderWord p 0x80 = w ∧ (t.polder p).salt = (s.polder p).salt)
        ∧ (∃ t, answers (.registerWrite 0 (page + 0x84) 4 v) s t ∧ t.polderWord p 0x84 = w % 16
          ∧ t.polderWord p 0x80 = s.polderWord p 0x80
          ∧ ((s.polder p).saltLo < 2 ^ 32 → (t.polder p).salt = w % 16 * 2 ^ 32 + s.polderWord p 0x80))

/-- R319, R383, R385, R388, R402, R411, R431, R468, R476, R506, R508, R513, R515: what registers read right after a cold
reset, for the values that the spec gives; the log, the queues, the jobs and memory are empty, and nothing waits. -/
def Obligations.ResetValues : Prop :=
  let s := State.reset
  (s.hubWord 0 0x20 = 0 ∧ s.hubWord 0 0x40 = 0x20 ∧ s.hubWord 0 0x60 = 0 ∧ s.hubWord 0 0x80 = 0x76543210
      ∧ s.hubWord 0 0x84 = 0xFEDCBA98 ∧ s.hubWord 0 0xA0 = 0x003C0301 ∧ s.hubWord 0 0xC0 = 0 ∧ s.hubWord 0 0xC4 = 0x80000000)
    ∧ (∀ p < 16, s.polderWord p 0 = 0x300 ∧ s.polderWord p 0x400 = 0xFFFFFF ∧ s.polderWord p 0x404 = 0x4000
      ∧ s.polderWord p 0x800 = 0)
    ∧ (∀ j < 64, s.linkWord j 0 = 0 ∧ s.linkWord j 4 = 0x88000000 ∧ s.linkWord j 8 = 0 ∧ s.linkWord j 12 = 0)
    ∧ (s.powerWord 0 = 0 ∧ s.powerWord 8 = 0x0CE40CE4 ∧ s.powerWord 0x0C = 0x0CE4 ∧ s.powerWord 0x10 = 0x64640000
      ∧ s.powerWord 0x1C = 0)
    ∧ (s.eventWord 0 = 0 ∧ s.eventWord 4 = 0 ∧ s.eventWord 8 = 0 ∧ s.eventWord 0x0C = 0 ∧ s.secWord 0 = 0 ∧ s.secWord 4 = 0)
    ∧ s.mem = {} ∧ s.cores = [] ∧ s.jobs = [] ∧ s.sems = [] ∧ s.host.queues = [] ∧ s.ev.log = [] ∧ s.ev.detected = []
    ∧ s.boot.done = 0 ∧ s.pending = []

/-! ### The whole machine -/

/-- The invariant holds right after reset. Where it rests on the model's own readings and choices: log entry 4. -/
def Obligations.InvariantAtReset : Prop := State.reset.Inv

/-- Every step keeps device memory in its one canonical form: the contents, the poison marks, the home and bias tables and
the afterglow maps list their entries by rising address, and none that equals what an unlisted one reads as. -/
def Obligations.InvariantKept : Prop := ∀ s t : State, s.Inv → step s = .next t → t.Inv
end

