-- ==== Sys2Proof/Laws/Issue.lean ====
section
/-!
SUPPORT. What the issue of an instruction does: an instruction that is ready and passes its checks takes its effect and
advances; one that fails a check stops there.
-/
namespace Sys2Proof.Machine
open Host

variable {s : State} {a : At} {len : Nat}

theorem gate_ready (h : s.Ready a len) : s.gate a len = .go := by
  obtain ⟨h1, h2, h3, h4, h5, h6, h7, h8⟩ := h
  have e1 : ¬ 192 ≤ a.core := by omega
  have e2 : ¬ 4 ≤ a.slot := by omega
  simp only [State.gate, ge_iff_le, e1, e2, decide_false, h3, h4, h5, h6, h7, Bool.not_true, Bool.or_self,
    Bool.false_eq_true, if_false, ne_eq, not_true_eq_false]
  rcases h8 with h8 | ⟨h8, h9, h10⟩
  · simp [h8]
  · by_cases hc : (s.at_ a).code = 0
    · simp [hc]
    · have : ¬ (s.at_ a).pc + len > (s.code (s.at_ a).code).codeBytes := by omega
      simp only [hc, this, if_false, h9, h10, Bool.and_self, if_true]

theorem issue_ready (h : s.Ready a len) (major : Nat) (body : State → State) : s.issue a major len body = body s := by
  simp only [State.issue, gate_ready h]

theorem run_ready (h : s.Ready a len) {chk : State → Option Stop} (hc : chk s = none) (major : Nat)
    (eff : State → State) : s.run a major len chk eff = (eff s).advance a len := by
  simp only [State.run, issue_ready h, hc]

theorem run_stop (h : s.Ready a len) {chk : State → Option Stop} {x : Stop} (hc : chk s = some x) (major : Nat)
    (eff : State → State) : s.run a major len chk eff = s.stopAt a major x := by
  simp only [State.run, issue_ready h, hc]

@[simp] theorem firstStop_nil : firstStop [] = none := rfl
@[simp] theorem firstStop_none (l : List (Option Stop)) : firstStop (none :: l) = firstStop l := rfl
@[simp] theorem firstStop_some (x : Stop) (l : List (Option Stop)) : firstStop (some x :: l) = some x := rfl
@[simp] theorem stopIf_false (x : Stop) : stopIf false x = none := rfl
@[simp] theorem stopIf_true (x : Stop) : stopIf true x = some x := rfl

theorem mustWait_free {sl : Slot} {e : Engine} (h : sl.queueOf e = []) : mustWait sl (some e) [] = none := by
  simp [mustWait, h, hazard]

@[simp] theorem count_clip_false (s : State) (a : At) : s.countClip a false = s := rfl

/-! ### The shared effects of one-word instructions -/

theorem alu_ready {form : AluForm} {f : Fields} (h : s.Ready a 8) (hl : s.Legal a (aluUse form) f)
    (op : Bool → Word → Word → Word) : s.alu a form f op =
      s.wrote a f.dst (op (s.at_ a).id.profile ((s.at_ a).rs f.src1) (aluOperand (s.at_ a) form f)) := by
  unfold State.alu
  rw [run_ready h hl]
  rfl

theorem slotOp_ready {u : Use} {f : Fields} (h : s.Ready a 8) (hl : s.Legal a u f) (m : Nat) (g : Slot → Slot) :
    s.slotOp a m u f g = s.done a 8 (g (s.at_ a)) := by
  unfold State.slotOp
  rw [run_ready h hl]
  rfl

theorem vecSlotOp_ready {u : Use} {f : Fields} (h : s.Ready a 8) (hl : s.Legal a u f) (hq : (s.at_ a).qVec = [])
    (m : Nat) (g : Slot → Slot) : s.vecSlotOp a m u f g = s.done a 8 (g (s.at_ a)) := by
  have h1 : badField (s.at_ a).id.profile u f = none := hl
  have h2 : mustWait (s.at_ a) (some .vector) [] = none := mustWait_free hq
  unfold State.vecSlotOp
  rw [run_ready h]
  · rfl
  · simp [h1, h2]

theorem badFormat_ok {c : Bool} {n x : Nat} {l : List Nat} (h : x ∈ l) : badFormat c n x l = none := by
  simp [badFormat, h]

theorem laneFmt_ok {fm : List Nat} {f : Fields} (h : f.fmt ∈ fm) : laneFmt fm f = f.fmt := by
  simp [laneFmt, h]

theorem vec_ready {u : Use} {fm : List Nat} {f : Fields} (h : s.Ready a 8) (hl : s.Legal a u f) (hf : f.fmt ∈ fm)
    (hq : (s.at_ a).qVec = []) (m : Nat) (g : Nat → Slot → Slot) :
    s.vec a m u fm f g = s.done a 8 (g (laneFmt fm f) (s.at_ a)) := by
  have h1 : badField (s.at_ a).id.profile u f = none := hl
  unfold State.vec
  rw [run_ready h]
  · rfl
  · simp [h1, mustWait_free (e := .vector) hq, badFormat_ok hf]

theorem vecGuarded_ready {u : Use} {fm : List Nat} {f : Fields} (h : s.Ready a 8) (hl : s.Legal a u f) (hf : f.fmt ∈ fm)
    (hq : (s.at_ a).qVec = []) (hu : a.upset = .ok) (m : Nat) (g : Nat → Slot → Slot) :
    s.vecGuarded a m u fm f g = s.done a 8 (g (laneFmt fm f) (s.at_ a)) := by
  have h1 : badField (s.at_ a).id.profile u f = none := hl
  unfold State.vecGuarded
  rw [issue_ready h]
  simp [h1, mustWait_free (e := .vector) hq, badFormat_ok hf, State.guarded, hu, State.done]

end Sys2Proof.Machine
end

