-- ==== Sys2Proof/Laws/Map.lean ====
section
/-!
SUPPORT. The laws of the sparse maps: a read after a write, and every write keeps the canonical form.
-/
namespace Sys2Proof.Machine

variable {β : Type} {d : β}

variable [DecidableEq β]

theorem mapWfFrom_le {m : List (Nat × β)} {lo lo' : Nat} (h : mapWfFrom d lo m = true) (hl : lo' ≤ lo) :
    mapWfFrom d lo' m = true := by
  cases m with
  | nil => rfl
  | cons e m =>
    simp only [mapWfFrom, Bool.and_eq_true, decide_eq_true_eq] at h ⊢
    exact ⟨⟨by omega, h.1.2⟩, h.2⟩

theorem mapWfFrom_ge {m : List (Nat × β)} {lo : Nat} (h : mapWfFrom d lo m = true) : ∀ e ∈ m, lo ≤ e.1 := by
  induction m generalizing lo with
  | nil => simp
  | cons e m ih =>
    simp only [mapWfFrom, Bool.and_eq_true, decide_eq_true_eq] at h
    intro x hx
    rcases List.mem_cons.mp hx with rfl | hx
    · exact h.1.1
    · exact Nat.le_trans (by omega) (ih h.2 x hx)

theorem mapWfFrom_filter {m : List (Nat × β)} {lo : Nat} (p : Nat × β → Bool) (h : mapWfFrom d lo m = true) :
    mapWfFrom d lo (m.filter p) = true := by
  induction m generalizing lo with
  | nil => rfl
  | cons e m ih =>
    simp only [mapWfFrom, Bool.and_eq_true, decide_eq_true_eq] at h
    rw [List.filter_cons]
    split
    · simp only [mapWfFrom, Bool.and_eq_true, decide_eq_true_eq]
      exact ⟨h.1, ih h.2⟩
    · exact mapWfFrom_le (ih h.2) (by omega)

/-- Two maps, the second above the first, make one. -/
theorem mapWfFrom_append {m n : List (Nat × β)} {lo : Nat} (hm : mapWfFrom d lo m = true) (b : Nat) (hl : lo ≤ b)
    (hb : ∀ e ∈ m, e.1 < b) (hn : mapWfFrom d b n = true) : mapWfFrom d lo (m ++ n) = true := by
  induction m generalizing lo with
  | nil => exact mapWfFrom_le hn hl
  | cons e m ih =>
    simp only [mapWfFrom, Bool.and_eq_true, decide_eq_true_eq, List.cons_append] at hm ⊢
    exact ⟨hm.1, ih hm.2 (hb e (by simp)) (fun x hx => hb x (by simp [hx]))⟩

theorem mapWfFrom_takeWhile {m : List (Nat × β)} {lo : Nat} (p : Nat × β → Bool) (h : mapWfFrom d lo m = true) :
    mapWfFrom d lo (m.takeWhile p) = true := by
  induction m generalizing lo with
  | nil => rfl
  | cons e m ih =>
    simp only [mapWfFrom, Bool.and_eq_true, decide_eq_true_eq] at h
    rw [List.takeWhile_cons]
    split
    · simp only [mapWfFrom, Bool.and_eq_true, decide_eq_true_eq]
      exact ⟨h.1, ih h.2⟩
    · rfl

theorem mapWfFrom_dropWhile {m : List (Nat × β)} {lo : Nat} (b : Nat) (h : mapWfFrom d lo m = true) :
    mapWfFrom d (max lo b) (m.dropWhile (fun e => decide (e.1 < b))) = true := by
  induction m generalizing lo with
  | nil => rfl
  | cons e m ih =>
    have h0 := h
    simp only [mapWfFrom, Bool.and_eq_true, decide_eq_true_eq] at h
    rw [List.dropWhile_cons]
    split
    · exact mapWfFrom_le (ih h.2) (by omega)
    · rename_i hb
      simp only [decide_eq_true_eq] at hb
      simp only [mapWfFrom, Bool.and_eq_true, decide_eq_true_eq]
      exact ⟨⟨by omega, h.1.2⟩, h.2⟩

theorem mapRun_wf (a : Nat) (vs : List β) : mapWfFrom d a (mapRun d a vs) = true := by
  induction vs generalizing a with
  | nil => rfl
  | cons v vs ih =>
    simp only [mapRun]
    split
    · exact mapWfFrom_le (ih (a + 1)) (by omega)
    · simp only [mapWfFrom, Bool.and_eq_true, decide_eq_true_eq]
      exact ⟨⟨Nat.le_refl a, by simpa using ‹¬ v = d›⟩, ih (a + 1)⟩

theorem mapRun_lt (a : Nat) (vs : List β) : ∀ e ∈ mapRun d a vs, e.1 < a + vs.length := by
  induction vs generalizing a with
  | nil => simp [mapRun]
  | cons v vs ih =>
    intro e he
    simp only [mapRun] at he
    split at he
    · have := ih (a + 1) e he
      simp only [List.length_cons]; omega
    · rcases List.mem_cons.mp he with rfl | he
      · simp only [List.length_cons]; omega
      · have := ih (a + 1) e he
        simp only [List.length_cons]; omega

theorem takeWhile_lt {γ : Type} (m : List (Nat × γ)) (b : Nat) :
    ∀ e ∈ m.takeWhile (fun e => decide (e.1 < b)), e.1 < b := by
  induction m with
  | nil => simp
  | cons x m ih =>
    rw [List.takeWhile_cons]
    split
    · rename_i hx
      intro e he
      rcases List.mem_cons.mp he with rfl | he
      · simpa using hx
      · exact ih e he
    · simp

/-- Writing a run of values keeps the canonical form. -/
theorem mapPut_wf {m : List (Nat × β)} (h : mapWf d m = true) (a : Nat) (vs : List β) :
    mapWf d (mapPut d m a vs) = true := by
  unfold mapPut mapWf
  have h1 := mapWfFrom_takeWhile (fun e => decide (e.1 < a)) h
  have h2 := mapWfFrom_append h1 a (Nat.zero_le a) (takeWhile_lt m a) (mapRun_wf (d := d) a vs)
  refine mapWfFrom_append h2 (a + vs.length) (Nat.zero_le _) ?_
    (mapWfFrom_le (mapWfFrom_dropWhile (a + vs.length) h) (Nat.le_max_right _ _))
  intro e he
  rcases List.mem_append.mp he with he | he
  · have := takeWhile_lt m a e he; omega
  · exact mapRun_lt a vs e he

theorem mapSet_wf {m : List (Nat × β)} (h : mapWf d m = true) (i : Nat) (v : β) : mapWf d (mapSet d m i v) = true :=
  mapPut_wf h i [v]

theorem mapClear_wf {m : List (Nat × β)} (h : mapWf d m = true) (a n : Nat) : mapWf d (mapClear m a n) = true := by
  unfold mapClear mapWf
  refine mapWfFrom_append (mapWfFrom_takeWhile _ h) (a + n) (Nat.zero_le _) ?_
    (mapWfFrom_le (mapWfFrom_dropWhile (a + n) h) (Nat.le_max_right _ _))
  intro e he
  have := takeWhile_lt m a e he; omega

theorem mapFilter_wf {m : List (Nat × β)} (h : mapWf d m = true) (p : Nat × β → Bool) : mapWf d (m.filter p) = true :=
  mapWfFrom_filter p h

/-- Replacing every value keeps the canonical form. -/
theorem mapOver_wf {γ : Type} [DecidableEq γ] {d' : γ} {m : List (Nat × β)} (h : mapWf d m = true) (f : β → γ) :
    mapWf d' (mapOver d' f m) = true := by
  have key : ∀ (m : List (Nat × β)) (lo : Nat), mapWfFrom d lo m = true → mapWfFrom d' lo (mapOver d' f m) = true := by
    intro m
    induction m with
    | nil => intros; rfl
    | cons e m ih =>
      intro lo h
      simp only [mapWfFrom, Bool.and_eq_true, decide_eq_true_eq] at h
      have ih' := ih (e.1 + 1) h.2
      simp only [mapOver, List.map_cons, List.filter_cons] at ih' ⊢
      split
      · rename_i hv
        simp only [mapWfFrom, Bool.and_eq_true, decide_eq_true_eq]
        exact ⟨⟨h.1.1, hv⟩, ih'⟩
      · exact mapWfFrom_le ih' (by omega)
  exact key m 0 h

/-- Any sequence of steps that each keep the form keeps it. -/
theorem mapFold_wf {α : Type} {l : List α} {f : List (Nat × β) → α → List (Nat × β)} {m : List (Nat × β)}
    (h : mapWf d m = true) (hf : ∀ m x, mapWf d m = true → mapWf d (f m x) = true) : mapWf d (l.foldl f m) = true := by
  induction l generalizing m with
  | nil => exact h
  | cons x l ih => exact ih (hf m x h)

/-! ### Reads after writes -/

omit [DecidableEq β] in
theorem mapGet_append_right {m n : List (Nat × β)} {i : Nat} (h : ∀ e ∈ m, e.1 < i) :
    mapGet d (m ++ n) i = mapGet d n i := by
  induction m with
  | nil => rfl
  | cons e m ih =>
    have he := h e (by simp)
    simp only [List.cons_append, mapGet]
    rw [if_neg (by omega), if_neg (by omega)]
    exact ih (fun x hx => h x (by simp [hx]))

omit [DecidableEq β] in
theorem mapGet_append_left {m n : List (Nat × β)} {i : Nat} (h : mapGet d n i = d) :
    mapGet d (m ++ n) i = mapGet d m i := by
  induction m with
  | nil => exact h
  | cons e m ih => simp only [List.cons_append, mapGet, ih]

omit [DecidableEq β] in
/-- Keys from `a` on are of no concern to a read below `a`. -/
theorem mapGet_takeWhile {m : List (Nat × β)} {i a : Nat} (h : i < a) :
    mapGet d (m.takeWhile (fun e => decide (e.1 < a))) i = mapGet d m i := by
  induction m with
  | nil => rfl
  | cons e m ih =>
    rw [List.takeWhile_cons]
    split
    · simp only [mapGet, ih]
    · rename_i hb
      simp only [decide_eq_true_eq] at hb
      simp only [mapGet]
      rw [if_neg (by omega), if_pos (by omega)]

omit [DecidableEq β] in
/-- Keys below `b` are of no concern to a read from `b` on. -/
theorem mapGet_dropWhile {m : List (Nat × β)} {i b : Nat} (h : b ≤ i) :
    mapGet d (m.dropWhile (fun e => decide (e.1 < b))) i = mapGet d m i := by
  induction m with
  | nil => rfl
  | cons e m ih =>
    rw [List.dropWhile_cons]
    split
    · rename_i hb
      simp only [decide_eq_true_eq] at hb
      rw [ih]
      simp only [mapGet]
      rw [if_neg (by omega), if_neg (by omega)]
    · rfl

omit [DecidableEq β] in
theorem mapGet_dropWhile_below {m : List (Nat × β)} {i b : Nat} (h : i < b) :
    mapGet d (m.dropWhile (fun e => decide (e.1 < b))) i = d := by
  induction m with
  | nil => rfl
  | cons e m ih =>
    rw [List.dropWhile_cons]
    split
    · exact ih
    · rename_i hb
      simp only [decide_eq_true_eq] at hb
      simp only [mapGet]
      rw [if_neg (by omega), if_pos (by omega)]

/-- What a read at one key gives after a write at one key. -/
theorem mapGet_mapRun (a : Nat) (vs : List β) (i : Nat) :
    mapGet d (mapRun d a vs) i = if a ≤ i ∧ i < a + vs.length then vs.getD (i - a) d else d := by
  induction vs generalizing a with
  | nil => simp only [mapRun, mapGet, List.length_nil, Nat.add_zero]; split <;> simp
  | cons v vs ih =>
    have hi : ∀ a, a + 1 ≤ i → (v :: vs).getD (i - a) d = vs.getD (i - (a + 1)) d := by
      intro a ha
      have : i - a = (i - (a + 1)) + 1 := by omega
      rw [this, List.getD_cons_succ]
    simp only [mapRun, List.length_cons]
    by_cases hia : i = a
    · subst hia
      split
      · rename_i hv
        rw [ih, if_neg (by omega), if_pos (by omega)]
        simp [hv]
      · simp only [mapGet, if_true]
        rw [if_pos (by omega)]
        simp
    · split
      · rw [ih]
        by_cases h : a + 1 ≤ i ∧ i < a + 1 + vs.length
        · rw [if_pos h, if_pos (by omega), hi a h.1]
        · rw [if_neg h, if_neg (by omega)]
      · simp only [mapGet]
        rw [if_neg hia]
        by_cases hlt : i < a
        · rw [if_pos hlt, if_neg (by omega)]
        · rw [if_neg hlt, ih]
          by_cases h : a + 1 ≤ i ∧ i < a + 1 + vs.length
          · rw [if_pos h, if_pos (by omega), hi a h.1]
          · rw [if_neg h, if_neg (by omega)]

/-- A read after a run of values is written: the value at its place in the run, else what the map held. -/
theorem mapGet_mapPut (m : List (Nat × β)) (a : Nat) (vs : List β) (i : Nat) :
    mapGet d (mapPut d m a vs) i = if a ≤ i ∧ i < a + vs.length then vs.getD (i - a) d else mapGet d m i := by
  unfold mapPut
  by_cases h1 : i < a
  · rw [if_neg (by omega), List.append_assoc, mapGet_append_left, mapGet_takeWhile h1]
    rw [mapGet_append_left (mapGet_dropWhile_below (by omega)), mapGet_mapRun, if_neg (by omega)]
  · by_cases h2 : i < a + vs.length
    · rw [if_pos (by omega), mapGet_append_left (mapGet_dropWhile_below h2),
        mapGet_append_right (fun e he => by have := takeWhile_lt m a e he; omega), mapGet_mapRun, if_pos (by omega)]
    · rw [if_neg (by omega), List.append_assoc,
        mapGet_append_right (fun e he => by have := takeWhile_lt m a e he; omega),
        mapGet_append_right (fun e he => by have := mapRun_lt a vs e he; omega), mapGet_dropWhile (by omega)]

/-- A read after a write of one key. -/
theorem mapGet_mapSet (m : List (Nat × β)) (i : Nat) (v : β) (j : Nat) :
    mapGet d (mapSet d m i v) j = if j = i then v else mapGet d m j := by
  unfold mapSet
  rw [mapGet_mapPut]
  by_cases h : j = i
  · subst h; simp
  · rw [if_neg (by simp; omega), if_neg h]

@[simp] theorem mapGet_mapSet_self (m : List (Nat × β)) (i : Nat) (v : β) : mapGet d (mapSet d m i v) i = v := by
  rw [mapGet_mapSet, if_pos rfl]

theorem mapGet_mapSet_ne (m : List (Nat × β)) {i j : Nat} (v : β) (h : j ≠ i) :
    mapGet d (mapSet d m i v) j = mapGet d m j := by
  rw [mapGet_mapSet, if_neg h]

theorem takeWhile_nil_of_ge {γ : Type} {m : List (Nat × γ)} {b : Nat} (h : ∀ e ∈ m.head?, b ≤ e.1) :
    m.takeWhile (fun e => decide (e.1 < b)) = [] := by
  cases m with
  | nil => rfl
  | cons x m =>
    have := h x rfl
    rw [List.takeWhile_cons, if_neg (by simp; omega)]

theorem dropWhile_self_of_ge {γ : Type} {m : List (Nat × γ)} {b : Nat} (h : ∀ e ∈ m.head?, b ≤ e.1) :
    m.dropWhile (fun e => decide (e.1 < b)) = m := by
  cases m with
  | nil => rfl
  | cons x m =>
    have := h x rfl
    rw [List.dropWhile_cons, if_neg (by simp; omega)]

theorem dropWhile_head_ge {γ : Type} (m : List (Nat × γ)) (b : Nat) :
    ∀ e ∈ (m.dropWhile (fun e => decide (e.1 < b))).head?, b ≤ e.1 := by
  induction m with
  | nil => simp
  | cons x m ih =>
    rw [List.dropWhile_cons]
    split
    · exact ih
    · rename_i hx
      intro e he
      simp only [List.head?_cons, Option.mem_def, Option.some.injEq] at he
      subst he
      simpa using hx

/-- Of two writes of one key the later stays. -/
@[simp] theorem mapSet_mapSet (m : List (Nat × β)) (i : Nat) (v w : β) :
    mapSet d (mapSet d m i v) i w = mapSet d m i w := by
  have hd := dropWhile_head_ge m (i + 1)
  have ht := takeWhile_lt m i
  have hx : ∀ e ∈ (mapRun d i [v] ++ m.dropWhile (fun e => decide (e.1 < i + 1))).head?, i ≤ e.1 := by
    simp only [mapRun]
    split
    · intro e he
      have := hd e he
      omega
    · intro e he
      simp only [List.cons_append, List.head?_cons, Option.mem_def, Option.some.injEq] at he
      subst he
      exact Nat.le_refl i
  have hdrop : (mapRun d i [v] ++ m.dropWhile (fun e => decide (e.1 < i + 1))).dropWhile (fun e => decide (e.1 < i + 1))
      = m.dropWhile (fun e => decide (e.1 < i + 1)) := by
    simp only [mapRun]
    split
    · exact dropWhile_self_of_ge hd
    · rw [List.cons_append, List.nil_append, List.dropWhile_cons, if_pos (by simp)]
      exact dropWhile_self_of_ge hd
  have hsub : ∀ e ∈ m.takeWhile (fun e => decide (e.1 < i)), decide (e.1 < i) = true := fun e he => by simpa using ht e he
  have hsub' : ∀ e ∈ m.takeWhile (fun e => decide (e.1 < i)), decide (e.1 < i + 1) = true := fun e he => by
    have := ht e he
    simp; omega
  unfold mapSet mapPut
  simp only [List.length_singleton, List.append_assoc]
  rw [List.takeWhile_append_of_pos hsub, takeWhile_nil_of_ge hx, List.append_nil, List.dropWhile_append_of_pos hsub', hdrop]


omit [DecidableEq β] in
/-- A read after a run of keys goes back to the default. -/
theorem mapGet_mapClear (m : List (Nat × β)) (a n i : Nat) :
    mapGet d (mapClear m a n) i = if a ≤ i ∧ i < a + n then d else mapGet d m i := by
  unfold mapClear
  by_cases h1 : i < a
  · rw [if_neg (by omega), mapGet_append_left (mapGet_dropWhile_below (by omega)), mapGet_takeWhile h1]
  · rw [mapGet_append_right (fun e he => by have := takeWhile_lt m a e he; omega)]
    by_cases h2 : i < a + n
    · rw [if_pos (by omega), mapGet_dropWhile_below h2]
    · rw [if_neg (by omega), mapGet_dropWhile (by omega)]

omit [DecidableEq β] in
/-- Nothing is listed below the first key. -/
theorem mapGet_below {m : List (Nat × β)} {k : Nat} (h : ∀ e ∈ m, k < e.1) : mapGet d m k = d := by
  cases m with
  | nil => rfl
  | cons e m =>
    have := h e (by simp)
    rw [mapGet, if_neg (by omega), if_pos this]

/-- A map whose keys pass a filter reads as before under such a key. -/
theorem mapGet_filter {p : Nat → Bool} {m : List (Nat × β)} {lo k : Nat} (h : mapWfFrom d lo m = true) (hk : p k = true) :
    mapGet d (m.filter (fun e => p e.1)) k = mapGet d m k := by
  induction m generalizing lo with
  | nil => rfl
  | cons e m ih =>
    obtain ⟨i, v⟩ := e
    simp only [mapWfFrom, Bool.and_eq_true] at h
    have hm := ih h.2
    by_cases hi : p i = true
    · simp only [List.filter, hi, mapGet, hm]
    · have hne : k ≠ i := fun e => hi (e ▸ hk)
      simp only [List.filter, hi, hm, mapGet, hne, if_false]
      split
      · exact mapGet_below fun x hx => by have := mapWfFrom_ge h.2 x hx; omega
      · rfl

/-- Entries written one after another at shifted keys. -/
theorem mapGet_shift {l m : List (Nat × β)} {lo src dst i : Nat} (h : mapWfFrom d lo l = true) (hl : ∀ e ∈ l, src ≤ e.1) :
    mapGet d (l.foldl (fun m e => mapSet d m (e.1 - src + dst) e.2) m) (dst + i)
      = if mapGet d l (src + i) = d then mapGet d m (dst + i) else mapGet d l (src + i) := by
  induction l generalizing lo m with
  | nil => simp only [List.foldl_nil, mapGet, if_true]
  | cons e l ih =>
    obtain ⟨k, v⟩ := e
    simp only [mapWfFrom, Bool.and_eq_true, Bool.not_eq_true', decide_eq_false_iff_not] at h
    have hk : src ≤ k := hl (k, v) (by simp)
    have hb : ∀ j, j ≤ k → mapGet d l j = d := fun j hj =>
      mapGet_below fun x hx => by have := mapWfFrom_ge h.2 x hx; omega
    rw [List.foldl_cons, ih h.2 (fun x hx => hl x (by simp [hx])), mapGet]
    by_cases he : src + i = k
    · have hd : dst + i = k - src + dst := by omega
      rw [if_pos he, hb _ (by omega), if_pos rfl, hd, mapGet_mapSet_self, if_neg h.1.2]
    · rw [mapGet_mapSet_ne m v (by omega), if_neg he]
      by_cases hlt : src + i < k
      · rw [if_pos hlt, hb _ (by omega)]
      · rw [if_neg hlt]

end Sys2Proof.Machine
end

