-- ==== Sys2Proof/Laws/Keeps.lean ====
section
/-!
SUPPORT. What every operation keeps: the variant, the queue of commands, and the canonical form of device memory. One
lemma for each operation over the state, in the order of their definitions' use.
-/
namespace Sys2Proof.Machine
open Host

/-- The second state has the variant and the queue of the first, and its device memory is in canonical form if the first
one's is. -/
structure Keeps (s t : State) : Prop where
  variant : t.variant = s.variant
  pending : t.pending = s.pending
  mem : s.mem.wf = true → t.mem.wf = true

variable {s0 s t : State}

theorem Keeps.refl (s : State) : Keeps s s := ⟨rfl, rfl, id⟩

/-- A record update of other fields. -/
theorem Keeps.same (h : Keeps s0 s) {tm cs ev hub dies regs pd ddr objs codes sems jobs jo pol sl nh sets nw lev host dep pow
    boot sec rc med ref fc} :
    Keeps s0 (State.mk s.variant tm cs s.mem ev hub dies regs pd ddr objs codes sems jobs jo pol sl nh sets nw lev host dep
      pow boot sec rc med ref s.pending fc) := ⟨h.1, h.2, h.3⟩

/-- A record update of device memory that keeps its form. -/
theorem Keeps.withMem {m : Mem} (h : Keeps s0 s) (hm : s.mem.wf = true → m.wf = true) :
    Keeps s0 { s with mem := m } := ⟨h.1, h.2, fun x => hm (h.3 x)⟩

theorem Keeps.ite {c : Prop} [Decidable c] (h : Keeps s0 s) (h' : Keeps s0 t) : Keeps s0 (if c then s else t) := by
  split <;> assumption

theorem Keeps.foldl {α : Type} {f : State → α → State} (l : List α) (h : Keeps s0 s)
    (hf : ∀ t x, Keeps s0 t → Keeps s0 (f t x)) : Keeps s0 (l.foldl f s) := by
  induction l generalizing s with
  | nil => exact h
  | cons x l ih => exact ih (hf s x h)

theorem setCore_keeps {x0} {x1} (h : Keeps s0 s) : Keeps s0 (s.setCore x0 x1) := by
  delta State.setCore
  with_reducible refine Keeps.same ?_
  exact h

theorem rewalkRegion_keeps {r} (h : Keeps s0 s) : Keeps s0 (s.rewalkRegion r) := by
  unfold State.rewalkRegion
  refine Keeps.foldl _ h fun t x ht => ?_
  dsimp only
  split
  · exact ht
  · exact setCore_keeps ht

theorem setRunning_keeps {x0} {x1} (h : Keeps s0 s) : Keeps s0 (s.setRunning x0 x1) := by
  delta State.setRunning
  with_reducible refine Keeps.same ?_
  exact h

theorem setSec_keeps {x0} (h : Keeps s0 s) : Keeps s0 (s.setSec x0) := by
  delta State.setSec
  with_reducible refine Keeps.same ?_
  exact h

theorem bootFrom_keeps {x0} (h : Keeps s0 s) : Keeps s0 (s.bootFrom x0) := by
  delta State.bootFrom
  extract_lets +onlyGivenNames y1
  clear_value y1
  extract_lets +onlyGivenNames y2
  have h2 : Keeps s0 y2 := by
    unfold y2
    refine Keeps.foldl _ ?_ ?_
    · exact h
    · intro z3a z3b h3
      refine Keeps.ite ?_ ?_
      · exact h3
      · refine setRunning_keeps ?_
        exact h3
  clear_value y2
  extract_lets +onlyGivenNames y4
  clear_value y4
  extract_lets +onlyGivenNames y5
  have h5 : Keeps s0 y5 := by
    unfold y5
    refine Keeps.ite ?_ ?_
    · refine setRunning_keeps ?_
      refine setSec_keeps ?_
      exact h2
    · exact h2
  clear_value y5
  with_reducible refine Keeps.same ?_
  exact h5

theorem postClaim_keeps {x0} {x1} (h : Keeps s0 s) : Keeps s0 (s.postClaim x0 x1) := by
  delta State.postClaim
  extract_lets +onlyGivenNames y1
  clear_value y1
  extract_lets +onlyGivenNames y2
  clear_value y2
  split
  · rename_i e3a e3b e3c
    refine Keeps.ite ?_ ?_
    · exact h
    · refine setCore_keeps ?_
      exact h
  · rename_i e4a e4b
    exact h

theorem setSlot_keeps {x0} {x1} {x2} (h : Keeps s0 s) : Keeps s0 (s.setSlot x0 x1 x2) := by
  delta State.setSlot
  refine setCore_keeps ?_
  exact h

theorem setAt_keeps {x0} {x1} (h : Keeps s0 s) : Keeps s0 (s.setAt x0 x1) := by
  delta State.setAt
  refine setSlot_keeps ?_
  exact h

theorem enqueue_keeps {x0} {x1} {x2} (h : Keeps s0 s) : Keeps s0 (s.enqueue x0 x1 x2) := by
  delta State.enqueue
  extract_lets +onlyGivenNames y1
  clear_value y1
  refine postClaim_keeps ?_
  refine setAt_keeps ?_
  exact h

theorem hold_keeps {x0} {x1} (h : Keeps s0 s) : Keeps s0 (s.hold x0 x1) := by
  delta State.hold
  refine setAt_keeps ?_
  exact h

theorem setJob_keeps {x0} {x1} (h : Keeps s0 s) : Keeps s0 (s.setJob x0 x1) := by
  delta State.setJob
  with_reducible refine Keeps.same ?_
  exact h

theorem faultJob_keeps {x0} {x1} (h : Keeps s0 s) : Keeps s0 (s.faultJob x0 x1) := by
  delta State.faultJob
  extract_lets +onlyGivenNames y1
  clear_value y1
  refine Keeps.ite ?_ ?_
  · exact h
  · extract_lets +onlyGivenNames y2
    clear_value y2
    refine setJob_keeps ?_
    exact h

theorem stopSlot_keeps {x0} (h : Keeps s0 s) : Keeps s0 (s.stopSlot x0) := by
  delta State.stopSlot
  refine setAt_keeps ?_
  exact h

theorem post_keeps {x0} (h : Keeps s0 s) : Keeps s0 (s.post x0) := by
  delta State.post
  extract_lets +onlyGivenNames y1
  clear_value y1
  refine Keeps.ite ?_ ?_
  · with_reducible refine Keeps.same ?_
    exact h
  · refine Keeps.ite ?_ ?_
    · extract_lets +onlyGivenNames y2
      clear_value y2
      extract_lets +onlyGivenNames y3
      clear_value y3
      with_reducible refine Keeps.same ?_
      exact h
    · refine Keeps.ite ?_ ?_
      · with_reducible refine Keeps.same ?_
        exact h
      · with_reducible refine Keeps.same ?_
        exact h

theorem coreEvent_keeps {x0} {x1} {x2} {x3} (h : Keeps s0 s) : Keeps s0 (s.coreEvent x0 x1 x2 x3) := by
  delta State.coreEvent
  refine post_keeps ?_
  exact h

theorem instrFault_keeps {x0} {x1} {x2} {x3} (h : Keeps s0 s) : Keeps s0 (s.instrFault x0 x1 x2 x3) := by
  delta State.instrFault
  extract_lets +onlyGivenNames y1
  clear_value y1
  extract_lets +onlyGivenNames y2
  clear_value y2
  refine faultJob_keeps ?_
  refine stopSlot_keeps ?_
  refine coreEvent_keeps ?_
  exact h

theorem issue_keeps {x0} {x1} {x2} {x3} (h : Keeps s0 s) (h3 : ∀ t, Keeps s0 t → Keeps s0 (x3 t)) :
    Keeps s0 (s.issue x0 x1 x2 x3) := by
  delta State.issue
  split
  · rename_i e1a e1b
    exact h
  · rename_i e2a e2b e2c
    refine hold_keeps ?_
    exact h
  · rename_i e3a e3b
    refine instrFault_keeps ?_
    exact h
  · rename_i e4a e4b
    refine h3 _ ?_
    exact h

theorem tileFault_keeps {x0} {x1} {x2} {x3} {x4} (h : Keeps s0 s) : Keeps s0 (s.tileFault x0 x1 x2 x3 x4) := by
  delta State.tileFault
  extract_lets +onlyGivenNames y1
  clear_value y1
  refine faultJob_keeps ?_
  refine stopSlot_keeps ?_
  refine coreEvent_keeps ?_
  exact h

theorem pageFault_keeps {x0} {x1} {x2} {x3} {x4} (h : Keeps s0 s) : Keeps s0 (s.pageFault x0 x1 x2 x3 x4) := by
  delta State.pageFault
  refine faultJob_keeps ?_
  refine stopSlot_keeps ?_
  refine coreEvent_keeps ?_
  exact h

theorem collFault_keeps {x0} {x1} {x2} {x3} (h : Keeps s0 s) : Keeps s0 (s.collFault x0 x1 x2 x3) := by
  delta State.collFault
  extract_lets +onlyGivenNames y1
  clear_value y1
  refine faultJob_keeps ?_
  refine stopSlot_keeps ?_
  refine coreEvent_keeps ?_
  exact h

theorem accessFault_keeps {x0} {x1} {x2} (h : Keeps s0 s) : Keeps s0 (s.accessFault x0 x1 x2) := by
  delta State.accessFault
  split
  · rename_i e1a e1b e1c
    refine hold_keeps ?_
    exact h
  · rename_i e2a e2b e2c
    refine hold_keeps ?_
    exact h
  · rename_i e3a e3b
    refine instrFault_keeps ?_
    exact h
  · rename_i e4a e4b
    refine instrFault_keeps ?_
    exact h
  · rename_i e5a e5b e5c e5d e5e
    split
    · rename_i e6a e6b e6c e6d
      refine faultJob_keeps ?_
      refine stopSlot_keeps ?_
      refine coreEvent_keeps ?_
      exact h

theorem setPolder_keeps {x0} {x1} (h : Keeps s0 s) : Keeps s0 (s.setPolder x0 x1) := by
  delta State.setPolder
  with_reducible refine Keeps.same ?_
  exact h

theorem setDike_keeps {x0} {x1} {x2} (h : Keeps s0 s) : Keeps s0 (s.setDike x0 x1 x2) := by
  delta State.setDike
  refine setPolder_keeps ?_
  exact h

theorem stopAt_keeps {x0} {x1} {x2} (h : Keeps s0 s) : Keeps s0 (s.stopAt x0 x1 x2) := by
  delta State.stopAt
  split
  · rename_i e1a e1b e1c
    refine instrFault_keeps ?_
    exact h
  · rename_i e2a e2b e2c e2d e2e
    refine tileFault_keeps ?_
    exact h
  · rename_i e3a e3b e3c e3d e3e
    refine pageFault_keeps ?_
    exact h
  · rename_i e4a e4b e4c e4d
    refine collFault_keeps ?_
    exact h
  · rename_i e5a e5b
    refine accessFault_keeps ?_
    exact h
  · rename_i e6a e6b
    refine hold_keeps ?_
    exact h
  · rename_i e7a e7b e7c
    refine hold_keeps ?_
    refine setDike_keeps ?_
    exact h

theorem advance_keeps {x0} {x1} (h : Keeps s0 s) : Keeps s0 (s.advance x0 x1) := by
  delta State.advance
  extract_lets +onlyGivenNames y1
  clear_value y1
  refine setAt_keeps ?_
  exact h

theorem run_keeps {x0} {x1} {x2} {x3} {x4} (h : Keeps s0 s) (h4 : ∀ t, Keeps s0 t → Keeps s0 (x4 t)) :
    Keeps s0 (s.run x0 x1 x2 x3 x4) := by
  delta State.run
  refine issue_keeps ?_ ?_
  · exact h
  · intro z1a h1
    split
    · rename_i e2a e2b e2c
      refine stopAt_keeps ?_
      exact h1
    · rename_i e3a e3b
      refine advance_keeps ?_
      refine h4 _ ?_
      exact h1

theorem count_keeps {x0} {x1} (h : Keeps s0 s) : Keeps s0 (s.count x0 x1) := by
  delta State.count
  extract_lets +onlyGivenNames y1
  clear_value y1
  refine setAt_keeps ?_
  exact h

theorem duePost_keeps {x0} {x1} (h : Keeps s0 s) : Keeps s0 (s.duePost x0 x1) := by
  delta State.duePost
  split
  · rename_i e1a
    exact h
  · rename_i e2a e2b
    extract_lets +onlyGivenNames y3
    clear_value y3
    refine setAt_keeps ?_
    exact h

theorem startRows_keeps {x0} {x1} {x2} (h : Keeps s0 s) : Keeps s0 (s.startRows x0 x1 x2) := by
  delta State.startRows
  extract_lets +onlyGivenNames y1
  clear_value y1
  extract_lets +onlyGivenNames y2
  clear_value y2
  extract_lets +onlyGivenNames y3
  have h3 : Keeps s0 y3 := by
    unfold y3
    refine count_keeps ?_
    exact h
  clear_value y3
  refine Keeps.ite ?_ ?_
  · refine duePost_keeps ?_
    exact h3
  · refine enqueue_keeps ?_
    exact h3

theorem passFree_keeps {x0} {x1} (h : Keeps s0 s) : Keeps s0 (s.passFree x0 x1) := by
  delta State.passFree
  split
  · rename_i e1a e1b e1c
    with_reducible refine Keeps.same ?_
    exact h
  · rename_i e2a e2b
    exact h

theorem charge_keeps {x0} {x1} (h : Keeps s0 s) : Keeps s0 (s.charge x0 x1) := by
  delta State.charge
  refine Keeps.foldl _ ?_ ?_
  · exact h
  · intro z1a z1b h1
    extract_lets +onlyGivenNames y2
    clear_value y2
    refine Keeps.ite ?_ ?_
    · exact h1
    · refine setDike_keeps ?_
      exact h1

theorem spend_keeps {x0} {x1} (h : Keeps s0 s) : Keeps s0 (s.spend x0 x1) := by
  delta State.spend
  refine Keeps.ite ?_ ?_
  · exact h
  · refine charge_keeps ?_
    exact h

theorem fillLine_keeps {x0} {x1} (h : Keeps s0 s) : Keeps s0 (s.fillLine x0 x1) := by
  delta State.fillLine
  extract_lets +onlyGivenNames y1
  clear_value y1
  extract_lets +onlyGivenNames y2
  clear_value y2
  extract_lets +onlyGivenNames y3
  clear_value y3
  extract_lets +onlyGivenNames y4
  have h4 : Keeps s0 y4 := by
    unfold y4
    refine Keeps.ite ?_ ?_
    · with_reducible refine Keeps.same ?_
      exact h
    · exact h
  clear_value y4
  with_reducible refine Keeps.same ?_
  exact h4

theorem fillHost_keeps {x0} {x1} {x2} (h : Keeps s0 s) : Keeps s0 (s.fillHost x0 x1 x2) := by
  delta State.fillHost
  refine Keeps.foldl _ ?_ ?_
  · exact h
  · intro z1a z1b h1
    refine fillLine_keeps ?_
    exact h1

theorem cacheFill_keeps {x0} {x1} {x2} {x3} (h : Keeps s0 s) : Keeps s0 (s.cacheFill x0 x1 x2 x3) := by
  delta State.cacheFill
  refine Keeps.ite ?_ ?_
  · refine Keeps.ite ?_ ?_
    · refine fillHost_keeps ?_
      exact h
    · exact h
  · refine Keeps.ite ?_ ?_
    · refine Keeps.foldl _ ?_ ?_
      · exact h
      · intro z1a z1b h1
        extract_lets +onlyGivenNames y2
        clear_value y2
        extract_lets +onlyGivenNames y3
        clear_value y3
        refine Keeps.ite ?_ ?_
        · refine fillHost_keeps ?_
          exact h1
        · exact h1
    · exact h

theorem devSpend_keeps {x0} {x1} {x2} {x3} (h : Keeps s0 s) : Keeps s0 (s.devSpend x0 x1 x2 x3) := by
  delta State.devSpend
  split
  · rename_i e1a e1b e1c
    extract_lets +onlyGivenNames y2
    have h2 : Keeps s0 y2 := by
      unfold y2
      refine spend_keeps ?_
      exact h
    clear_value y2
    extract_lets +onlyGivenNames y3
    clear_value y3
    with_reducible refine Keeps.same ?_
    exact h2
  · rename_i e4a e4b
    refine cacheFill_keeps ?_
    refine spend_keeps ?_
    exact h

theorem blockCmd_keeps {x0} {x1} {x2} {x3} {x4} {x5} (h : Keeps s0 s) : Keeps s0 (s.blockCmd x0 x1 x2 x3 x4 x5) := by
  delta State.blockCmd
  refine run_keeps ?_ ?_
  · exact h
  · intro z1a h1
    extract_lets +onlyGivenNames y2
    clear_value y2
    extract_lets +onlyGivenNames y3
    clear_value y3
    refine startRows_keeps ?_
    refine passFree_keeps ?_
    refine devSpend_keeps ?_
    exact h1

theorem setHome_keeps {x v} (h : Keeps s0 s) : Keeps s0 (s.setHome x v) := by
  refine h.withMem fun hm => ?_
  simp only [Mem.wf, Bool.and_eq_true] at hm ⊢
  simp only [hm, mapSet_wf, and_self]

theorem restoreHomes_keeps  (h : Keeps s0 s) : Keeps s0 (s.restoreHomes ) := by
  unfold State.restoreHomes
  refine post_keeps ?_
  refine Keeps.withMem (s := _) (Keeps.foldl _ h fun t x ht => setHome_keeps ht) fun hm => hm

theorem setHost_keeps {x0} (h : Keeps s0 s) : Keeps s0 (s.setHost x0) := by
  delta State.setHost
  with_reducible refine Keeps.same ?_
  exact h

theorem setQueue_keeps {x0} {x1} (h : Keeps s0 s) : Keeps s0 (s.setQueue x0 x1) := by
  delta State.setQueue
  refine setHost_keeps ?_
  exact h

theorem store_keeps {c a bs} (h : Keeps s0 s) : Keeps s0 (s.store c a bs) := by
  unfold State.store
  refine h.withMem fun hm => ?_
  simp only [Mem.wf, Bool.and_eq_true] at hm ⊢
  simp only [hm, mapPut_wf, mapClear_wf, true_and, and_true]
  refine ⟨mapFold_wf hm.1.1.1.2 fun m x hm => mapSet_wf hm _ _, mapFold_wf hm.1.1.2 fun m x hm => ?_⟩
  refine mapFold_wf hm fun m i hm => ?_
  split
  · exact mapSet_wf hm _ _
  · exact hm

theorem write_keeps {c a bs} (h : Keeps s0 s) : Keeps s0 (s.write c a bs) := by
  unfold State.write
  refine Keeps.foldl _ h fun t x ht => ?_
  dsimp only
  split
  · exact ht.withMem fun hm => hm
  · exact store_keeps ht

theorem ringTouch_keeps {x0} {x1} {x2} {x3} {x4} (h : Keeps s0 s) : Keeps s0 (s.ringTouch x0 x1 x2 x3 x4) := by
  delta State.ringTouch
  refine Keeps.ite ?_ ?_
  · refine fillHost_keeps ?_
    exact h
  · exact h

theorem setMsix_keeps {x0} {x1} {x2} (h : Keeps s0 s) : Keeps s0 (s.setMsix x0 x1 x2) := by
  delta State.setMsix
  refine setHost_keeps ?_
  exact h

theorem raise_keeps {x0} {x1} (h : Keeps s0 s) : Keeps s0 (s.raise x0 x1) := by
  delta State.raise
  extract_lets +onlyGivenNames y1
  clear_value y1
  refine Keeps.ite ?_ ?_
  · refine setMsix_keeps ?_
    exact h
  · refine setMsix_keeps ?_
    exact h

theorem signal_keeps {x0} (h : Keeps s0 s) : Keeps s0 (s.signal x0) := by
  delta State.signal
  extract_lets +onlyGivenNames y1
  clear_value y1
  refine Keeps.ite ?_ ?_
  · exact h
  · refine Keeps.ite ?_ ?_
    · refine raise_keeps ?_
      refine setQueue_keeps ?_
      exact h
    · refine setQueue_keeps ?_
      exact h

theorem complete_keeps {x0} {x1} {x2} (h : Keeps s0 s) : Keeps s0 (s.complete x0 x1 x2) := by
  delta State.complete
  extract_lets +onlyGivenNames y1
  clear_value y1
  refine Keeps.ite ?_ ?_
  · exact h
  · extract_lets +onlyGivenNames y2
    extract_lets +onlyGivenNames y3
    clear_value y3
    extract_lets +onlyGivenNames y4
    have h4 : Keeps s0 y4 := by
      unfold y4
      refine write_keeps ?_
      exact h
    clear_value y4
    extract_lets +onlyGivenNames y5
    have h5 : Keeps s0 y5 := by
      unfold y5
      refine ringTouch_keeps ?_
      exact h4
    clear_value y5
    extract_lets +onlyGivenNames y6
    clear_value y6
    extract_lets +onlyGivenNames y7
    clear_value y7
    extract_lets +onlyGivenNames y8
    clear_value y8
    refine signal_keeps ?_
    refine setQueue_keeps ?_
    exact h5

theorem finish_keeps {x0} {x1} {x2} {x3} (h : Keeps s0 s) : Keeps s0 (s.finish x0 x1 x2 x3) := by
  delta State.finish
  refine complete_keeps ?_
  exact h

theorem endWaiting_keeps {x0} (h : Keeps s0 s) : Keeps s0 (s.endWaiting x0) := by
  delta State.endWaiting
  extract_lets +onlyGivenNames y1
  clear_value y1
  extract_lets +onlyGivenNames y2
  have h2 : Keeps s0 y2 := by
    unfold y2
    refine setJob_keeps ?_
    exact h
  clear_value y2
  extract_lets +onlyGivenNames y3
  have h3 : Keeps s0 y3 := by
    unfold y3
    refine Keeps.foldl _ ?_ ?_
    · exact h2
    · intro z4a z4b h4
      refine finish_keeps ?_
      exact h4
  clear_value y3
  split
  · rename_i e5a e5b e5c
    refine finish_keeps ?_
    exact h3
  · rename_i e6a e6b
    exact h3

theorem agentDo_keeps {x0} {x1} {x2} {x3} {x4} (h : Keeps s0 s) (h4 : ∀ t, Keeps s0 t → Keeps s0 (x4 t)) :
    Keeps s0 (s.agentDo x0 x1 x2 x3 x4) := by
  delta State.agentDo
  split
  · rename_i e1a e1b
    refine h4 _ ?_
    refine devSpend_keeps ?_
    exact h
  · rename_i e2a e2b e2c e2d
    refine setDike_keeps ?_
    exact h
  · rename_i e3a e3b e3c
    exact h
  · rename_i e4a e4b e4c e4d
    split
    · rename_i e5a e5b e5c e5d
      refine faultJob_keeps ?_
      refine post_keeps ?_
      exact h
  · rename_i e6a e6b e6c e6d e6e e6f
    exact h

theorem encReads_keeps {x0} {x1} {x2} (h : Keeps s0 s) (h2 : ∀ t, Keeps s0 t → Keeps s0 (x2 t)) :
    Keeps s0 (s.encReads x0 x1 x2) := by
  delta State.encReads
  extract_lets +onlyGivenNames y1
  clear_value y1
  extract_lets +onlyGivenNames y2
  clear_value y2
  refine agentDo_keeps ?_ ?_
  · exact h
  · intro z3a h3
    refine Keeps.ite ?_ ?_
    · refine h2 _ ?_
      exact h3
    · refine agentDo_keeps ?_ ?_
      · exact h3
      · intro z4a h4
        refine h2 _ ?_
        exact h4

theorem tick_keeps (h : Keeps s0 s) : Keeps s0 (s.tick) := by
  delta State.tick
  with_reducible refine Keeps.same ?_
  exact h

theorem mediaEvent_keeps {x0} {x1} {x2} {x3} {x4} (h : Keeps s0 s) : Keeps s0 (s.mediaEvent x0 x1 x2 x3 x4) := by
  delta State.mediaEvent
  refine post_keeps ?_
  exact h

theorem setMedia_keeps {x0} (h : Keeps s0 s) : Keeps s0 (s.setMedia x0) := by
  delta State.setMedia
  with_reducible refine Keeps.same ?_
  exact h

theorem setEnc_keeps {x0} {x1} (h : Keeps s0 s) : Keeps s0 (s.setEnc x0 x1) := by
  delta State.setEnc
  refine setMedia_keeps ?_
  exact h

theorem outputFull_keeps {x0} (h : Keeps s0 s) : Keeps s0 (s.outputFull x0) := by
  delta State.outputFull
  extract_lets +onlyGivenNames y1
  clear_value y1
  refine mediaEvent_keeps ?_
  refine setEnc_keeps ?_
  exact h

theorem freeSlot_keeps {x0} {x1} (h : Keeps s0 s) : Keeps s0 (s.freeSlot x0 x1) := by
  delta State.freeSlot
  extract_lets +onlyGivenNames y1
  clear_value y1
  extract_lets +onlyGivenNames y2
  clear_value y2
  extract_lets +onlyGivenNames y3
  have h3 : Keeps s0 y3 := by
    unfold y3
    refine Keeps.ite ?_ ?_
    · refine setJob_keeps ?_
      exact h
    · exact h
  clear_value y3
  extract_lets +onlyGivenNames y4
  clear_value y4
  refine setCore_keeps ?_
  exact h3

theorem writeCtxId_keeps {x0} {x1} {x2} {x3} (h : Keeps s0 s) : Keeps s0 (s.writeCtxId x0 x1 x2 x3) := by
  delta State.writeCtxId
  extract_lets +onlyGivenNames y1
  clear_value y1
  extract_lets +onlyGivenNames y2
  clear_value y2
  extract_lets +onlyGivenNames y3
  clear_value y3
  refine Keeps.ite ?_ ?_
  · extract_lets +onlyGivenNames y4
    have h4 : Keeps s0 y4 := by
      unfold y4
      refine setSlot_keeps ?_
      exact h
    clear_value y4
    refine Keeps.ite ?_ ?_
    · exact h4
    · refine freeSlot_keeps ?_
      exact h4
  · extract_lets +onlyGivenNames y5
    clear_value y5
    extract_lets +onlyGivenNames y6
    clear_value y6
    refine setSlot_keeps ?_
    exact h

theorem setAllot_keeps {x0} {x1} {x2} (h : Keeps s0 s) : Keeps s0 (s.setAllot x0 x1 x2) := by
  delta State.setAllot
  extract_lets +onlyGivenNames y1
  clear_value y1
  extract_lets +onlyGivenNames y2
  clear_value y2
  refine setCore_keeps ?_
  exact h

theorem writeAllot_keeps {x0} {x1} {x2} (h : Keeps s0 s) : Keeps s0 (s.writeAllot x0 x1 x2) := by
  delta State.writeAllot
  extract_lets +onlyGivenNames y1
  clear_value y1
  refine Keeps.ite ?_ ?_
  · extract_lets +onlyGivenNames y2
    clear_value y2
    refine setSlot_keeps ?_
    exact h
  · refine setAllot_keeps ?_
    exact h

theorem spaceWrite_keeps {x0} {x1} {x2} (h : Keeps s0 s) : Keeps s0 (s.spaceWrite x0 x1 x2) := by
  delta State.spaceWrite
  split
  · rename_i e1a e1b
    exact h
  · rename_i e2a e2b e2c e2d e2e
    extract_lets +onlyGivenNames y3
    clear_value y3
    refine Keeps.ite ?_ ?_
    · refine writeCtxId_keeps ?_
      exact h
    · refine Keeps.ite ?_ ?_
      · refine writeAllot_keeps ?_
        exact h
      · refine Keeps.ite ?_ ?_
        · exact h
        · refine Keeps.ite ?_ ?_
          · refine setSlot_keeps ?_
            exact h
          · refine Keeps.ite ?_ ?_
            · refine setSlot_keeps ?_
              exact h
            · refine Keeps.ite ?_ ?_
              · refine setSlot_keeps ?_
                exact h
              · exact h

theorem spacePut_keeps {x0} {x1} (h : Keeps s0 s) : Keeps s0 (s.spacePut x0 x1) := by
  delta State.spacePut
  refine Keeps.foldl _ ?_ ?_
  · exact h
  · intro z1a z1b h1
    extract_lets +onlyGivenNames y2
    clear_value y2
    refine Keeps.ite ?_ ?_
    · refine spaceWrite_keeps ?_
      exact h1
    · exact h1

theorem devWrite_keeps {x0} {x1} {x2} (h : Keeps s0 s) : Keeps s0 (s.devWrite x0 x1 x2) := by
  delta State.devWrite
  split
  · rename_i e1a e1b e1c
    exact h
  · rename_i e2a e2b
    extract_lets +onlyGivenNames y3
    clear_value y3
    refine Keeps.ite ?_ ?_
    · refine spacePut_keeps ?_
      exact h
    · refine write_keeps ?_
      exact h

theorem agentPut_keeps {x0} {x1} {x2} (h : Keeps s0 s) (h2 : ∀ t, Keeps s0 t → Keeps s0 (x2 t)) :
    Keeps s0 (s.agentPut x0 x1 x2) := by
  delta State.agentPut
  split
  · rename_i e1a e1b e1c e1d
    refine agentDo_keeps ?_ ?_
    · exact h
    · intro z2a h2
      exact h2
  · rename_i e3a e3b
    refine h2 _ ?_
    refine Keeps.foldl _ ?_ ?_
    · exact h
    · intro z4a z4b h4
      refine Keeps.ite ?_ ?_
      · exact h4
      · refine devWrite_keeps ?_
        refine devSpend_keeps ?_
        exact h4

theorem bump_keeps {x0} {x1} {x2} (h : Keeps s0 s) : Keeps s0 (s.bump x0 x1 x2) := by
  delta State.bump
  with_reducible refine Keeps.same ?_
  exact h

theorem chargeCodec_keeps {x0} {x1} {x2} {x3} (h : Keeps s0 s) : Keeps s0 (s.chargeCodec x0 x1 x2 x3) := by
  delta State.chargeCodec
  refine bump_keeps ?_
  refine charge_keeps ?_
  exact h

theorem capEvent_keeps {x0} {x1} (h : Keeps s0 s) : Keeps s0 (s.capEvent x0 x1) := by
  delta State.capEvent
  extract_lets +onlyGivenNames y1
  clear_value y1
  extract_lets +onlyGivenNames y2
  clear_value y2
  extract_lets +onlyGivenNames y3
  extract_lets +onlyGivenNames y4
  clear_value y4
  refine Keeps.ite ?_ ?_
  · refine setEnc_keeps ?_
    exact h
  · refine mediaEvent_keeps ?_
    refine setEnc_keeps ?_
    exact h

theorem postEachSecond_keeps {x0} {x1} (h : Keeps s0 s) : Keeps s0 (s.postEachSecond x0 x1) := by
  delta State.postEachSecond
  extract_lets +onlyGivenNames y1
  clear_value y1
  refine Keeps.ite ?_ ?_
  · exact h
  · extract_lets +onlyGivenNames y2
    have h2 : Keeps s0 y2 := by
      unfold y2
      refine post_keeps ?_
      exact h
    clear_value y2
    with_reducible refine Keeps.same ?_
    exact h2

theorem wake_keeps {p r} (h : Keeps s0 s) : Keeps s0 (s.wake p r) := by
  unfold State.wake
  dsimp only
  split
  · exact setAt_keeps h
  · exact setAt_keeps h
  · exact h

theorem setSem_keeps {x0} {x1} {x2} (h : Keeps s0 s) : Keeps s0 (s.setSem x0 x1 x2) := by
  delta State.setSem
  with_reducible refine Keeps.same ?_
  exact h

theorem semValue_keeps {x0} {x1} {x2} (h : Keeps s0 s) : Keeps s0 (s.semValue x0 x1 x2) := by
  delta State.semValue
  extract_lets +onlyGivenNames y1
  clear_value y1
  extract_lets +onlyGivenNames y2
  clear_value y2
  refine Keeps.foldl _ ?_ ?_
  · refine setSem_keeps ?_
    exact h
  · intro z3a z3b h3
    refine wake_keeps ?_
    exact h3

theorem semPost1_keeps {x0} {x1} {x2} (h : Keeps s0 s) : Keeps s0 (s.semPost1 x0 x1 x2) := by
  delta State.semPost1
  extract_lets +onlyGivenNames y1
  clear_value y1
  refine Keeps.ite ?_ ?_
  · exact h
  · refine Keeps.ite ?_ ?_
    · refine semValue_keeps ?_
      exact h
    · refine Keeps.ite ?_ ?_
      · exact h
      · split
        · rename_i e2a e2b
          refine instrFault_keeps ?_
          exact h
        · rename_i e3a
          refine faultJob_keeps ?_
          refine post_keeps ?_
          exact h

theorem encodeFrame_keeps {x0} {x1} {x2} (h : Keeps s0 s) : Keeps s0 (s.encodeFrame x0 x1 x2) := by
  delta State.encodeFrame
  refine encReads_keeps ?_ ?_
  · exact h
  · intro z1a h1
    extract_lets +onlyGivenNames y2
    clear_value y2
    extract_lets +onlyGivenNames y3
    clear_value y3
    extract_lets +onlyGivenNames y4
    clear_value y4
    extract_lets +onlyGivenNames y5
    clear_value y5
    extract_lets +onlyGivenNames y6
    have h6 : Keeps s0 y6 := by
      unfold y6
      refine tick_keeps ?_
      exact h1
    clear_value y6
    extract_lets +onlyGivenNames y7
    clear_value y7
    extract_lets +onlyGivenNames y8
    clear_value y8
    extract_lets +onlyGivenNames y9
    clear_value y9
    extract_lets +onlyGivenNames y10
    clear_value y10
    refine Keeps.ite ?_ ?_
    · refine outputFull_keeps ?_
      exact h6
    · extract_lets +onlyGivenNames y11
      clear_value y11
      extract_lets +onlyGivenNames y12
      clear_value y12
      extract_lets +onlyGivenNames y13
      clear_value y13
      extract_lets +onlyGivenNames y14
      clear_value y14
      extract_lets +onlyGivenNames y15
      clear_value y15
      refine agentPut_keeps ?_ ?_
      · exact h6
      · intro z16a h16
        extract_lets +onlyGivenNames y17
        clear_value y17
        extract_lets +onlyGivenNames y18
        clear_value y18
        extract_lets +onlyGivenNames y19
        have h19 : Keeps s0 y19 := by
          unfold y19
          refine chargeCodec_keeps ?_
          refine setEnc_keeps ?_
          exact h16
        clear_value y19
        extract_lets +onlyGivenNames y20
        have h20 : Keeps s0 y20 := by
          unfold y20
          refine bump_keeps ?_
          exact h19
        clear_value y20
        extract_lets +onlyGivenNames y21
        have h21 : Keeps s0 y21 := by
          unfold y21
          split
          · rename_i e22a e22b e22c
            refine capEvent_keeps ?_
            exact h20
          · rename_i e23a e23b
            exact h20
        clear_value y21
        extract_lets +onlyGivenNames y24
        have h24 : Keeps s0 y24 := by
          unfold y24
          refine Keeps.ite ?_ ?_
          · refine postEachSecond_keeps ?_
            exact h21
          · exact h21
        clear_value y24
        extract_lets +onlyGivenNames y25
        have h25 : Keeps s0 y25 := by
          unfold y25
          refine semPost1_keeps ?_
          exact h24
        clear_value y25
        refine Keeps.ite ?_ ?_
        · refine semPost1_keeps ?_
          exact h25
        · exact h25

theorem setStream_keeps {x0} {x1} {x2} (h : Keeps s0 s) : Keeps s0 (s.setStream x0 x1 x2) := by
  delta State.setStream
  refine setMedia_keeps ?_
  exact h

theorem endEnc_keeps {x0} (h : Keeps s0 s) : Keeps s0 (s.endEnc x0) := by
  delta State.endEnc
  extract_lets +onlyGivenNames y1
  clear_value y1
  extract_lets +onlyGivenNames y2
  clear_value y2
  extract_lets +onlyGivenNames y3
  have h3 : Keeps s0 y3 := by
    unfold y3
    refine setStream_keeps ?_
    refine setEnc_keeps ?_
    exact h
  clear_value y3
  extract_lets +onlyGivenNames y4
  have h4 : Keeps s0 y4 := by
    unfold y4
    refine mediaEvent_keeps ?_
    exact h3
  clear_value y4
  extract_lets +onlyGivenNames y5
  have h5 : Keeps s0 y5 := by
    unfold y5
    split
    · rename_i e6a e6b e6c
      refine complete_keeps ?_
      exact h4
    · rename_i e7a e7b
      exact h4
  clear_value y5
  extract_lets +onlyGivenNames y8
  have h8 : Keeps s0 y8 := by
    unfold y8
    split
    · rename_i e9a e9b e9c
      refine finish_keeps ?_
      exact h5
    · rename_i e10a e10b
      exact h5
  clear_value y8
  split
  · rename_i e11a e11b e11c
    refine finish_keeps ?_
    exact h8
  · rename_i e12a e12b
    exact h8

theorem tearEnc_keeps {x0} {x1} (h : Keeps s0 s) : Keeps s0 (s.tearEnc x0 x1) := by
  delta State.tearEnc
  extract_lets +onlyGivenNames y1
  clear_value y1
  extract_lets +onlyGivenNames y2
  clear_value y2
  extract_lets +onlyGivenNames y3
  have h3 : Keeps s0 y3 := by
    unfold y3
    refine setEnc_keeps ?_
    exact h
  clear_value y3
  extract_lets +onlyGivenNames y4
  clear_value y4
  extract_lets +onlyGivenNames y5
  extract_lets +onlyGivenNames y6
  have h6 : Keeps s0 y6 := by
    unfold y6
    refine Keeps.ite ?_ ?_
    · exact h3
    · refine write_keeps ?_
      exact h3
  clear_value y6
  refine endEnc_keeps ?_
  exact h6

theorem stopEnc_keeps {x} (h : Keeps s0 s) : Keeps s0 (s.stopEnc x) := by
  unfold State.stopEnc
  dsimp only
  split
  · split
    · exact tearEnc_keeps (encodeFrame_keeps h)
    · exact encodeFrame_keeps h
  · split
    · exact tearEnc_keeps h
    · exact h

theorem setBq_keeps {x0} {x1} (h : Keeps s0 s) : Keeps s0 (s.setBq x0 x1) := by
  delta State.setBq
  refine setMedia_keeps ?_
  exact h

theorem settleBq_keeps {x0} (h : Keeps s0 s) : Keeps s0 (s.settleBq x0) := by
  delta State.settleBq
  extract_lets +onlyGivenNames y1
  clear_value y1
  refine Keeps.ite ?_ ?_
  · extract_lets +onlyGivenNames y2
    have h2 : Keeps s0 y2 := by
      unfold y2
      refine setBq_keeps ?_
      exact h
    clear_value y2
    split
    · rename_i e3a e3b e3c
      refine finish_keeps ?_
      exact h2
    · rename_i e4a e4b
      exact h2
  · exact h

theorem cancelBq_keeps {x0} {x1} (h : Keeps s0 s) : Keeps s0 (s.cancelBq x0 x1) := by
  delta State.cancelBq
  extract_lets +onlyGivenNames y1
  clear_value y1
  extract_lets +onlyGivenNames y2
  clear_value y2
  extract_lets +onlyGivenNames y3
  clear_value y3
  extract_lets +onlyGivenNames y4
  have h4 : Keeps s0 y4 := by
    unfold y4
    split
    · rename_i e5a e5b e5c
      refine finish_keeps ?_
      exact h
    · rename_i e6a e6b
      exact h
  clear_value y4
  refine settleBq_keeps ?_
  refine setBq_keeps ?_
  exact h4

theorem dropStream_keeps {x0} {x1} (h : Keeps s0 s) : Keeps s0 (s.dropStream x0 x1) := by
  delta State.dropStream
  split
  · rename_i e1a e1b
    refine setStream_keeps ?_
    exact h
  · rename_i e2a
    exact h

theorem dropBq_keeps {x0} (h : Keeps s0 s) : Keeps s0 (s.dropBq x0) := by
  delta State.dropBq
  extract_lets +onlyGivenNames y1
  clear_value y1
  extract_lets +onlyGivenNames y2
  have h2 : Keeps s0 y2 := by
    unfold y2
    refine Keeps.foldl _ ?_ ?_
    · refine setBq_keeps ?_
      exact h
    · intro z3a z3b h3
      refine dropStream_keeps ?_
      exact h3
  clear_value y2
  extract_lets +onlyGivenNames y4
  have h4 : Keeps s0 y4 := by
    unfold y4
    split
    · rename_i e5a e5b e5c
      refine finish_keeps ?_
      exact h2
    · rename_i e6a e6b
      exact h2
  clear_value y4
  split
  · rename_i e7a e7b e7c
    refine finish_keeps ?_
    exact h4
  · rename_i e8a e8b
    exact h4

theorem touchCache_keeps {x0} {x1} (h : Keeps s0 s) : Keeps s0 (s.touchCache x0 x1) := by
  delta State.touchCache
  extract_lets +onlyGivenNames y1
  clear_value y1
  refine setMedia_keeps ?_
  exact h

theorem enterCache_keeps {x0} {x1} {x2} (h : Keeps s0 s) : Keeps s0 (s.enterCache x0 x1 x2) := by
  delta State.enterCache
  extract_lets +onlyGivenNames y1
  clear_value y1
  extract_lets +onlyGivenNames y2
  clear_value y2
  extract_lets +onlyGivenNames y3
  clear_value y3
  refine Keeps.ite ?_ ?_
  · exact h
  · extract_lets +onlyGivenNames y4
    clear_value y4
    refine setMedia_keeps ?_
    exact h

theorem writeSamples_keeps {x0} {x1} (h : Keeps s0 s) : Keeps s0 (s.writeSamples x0 x1) := by
  delta State.writeSamples
  extract_lets +onlyGivenNames y1
  clear_value y1
  extract_lets +onlyGivenNames y2
  clear_value y2
  extract_lets +onlyGivenNames y3
  clear_value y3
  extract_lets +onlyGivenNames y4
  clear_value y4
  extract_lets +onlyGivenNames y5
  clear_value y5
  extract_lets +onlyGivenNames y6
  clear_value y6
  extract_lets +onlyGivenNames y7
  clear_value y7
  extract_lets +onlyGivenNames y8
  clear_value y8
  extract_lets +onlyGivenNames y9
  clear_value y9
  refine agentPut_keeps ?_ ?_
  · exact h
  · intro z10a h10
    extract_lets +onlyGivenNames y11
    clear_value y11
    extract_lets +onlyGivenNames y12
    clear_value y12
    extract_lets +onlyGivenNames y13
    clear_value y13
    extract_lets +onlyGivenNames y14
    clear_value y14
    extract_lets +onlyGivenNames y15
    have h15 : Keeps s0 y15 := by
      unfold y15
      refine dropStream_keeps ?_
      refine setBq_keeps ?_
      exact h10
    clear_value y15
    extract_lets +onlyGivenNames y16
    clear_value y16
    extract_lets +onlyGivenNames y17
    have h17 : Keeps s0 y17 := by
      unfold y17
      refine Keeps.foldl _ ?_ ?_
      · exact h15
      · intro z18a z18b h18
        extract_lets +onlyGivenNames y19
        clear_value y19
        refine Keeps.ite ?_ ?_
        · exact h18
        · refine Keeps.ite ?_ ?_
          · refine touchCache_keeps ?_
            exact h18
          · refine enterCache_keeps ?_
            exact h18
    clear_value y17
    extract_lets +onlyGivenNames y20
    have h20 : Keeps s0 y20 := by
      unfold y20
      refine bump_keeps ?_
      exact h17
    clear_value y20
    extract_lets +onlyGivenNames y21
    have h21 : Keeps s0 y21 := by
      unfold y21
      refine Keeps.ite ?_ ?_
      · refine bump_keeps ?_
        exact h20
      · exact h20
    clear_value y21
    extract_lets +onlyGivenNames y22
    have h22 : Keeps s0 y22 := by
      unfold y22
      split
      · rename_i e23a e23b e23c e23d
        extract_lets +onlyGivenNames y24
        clear_value y24
        refine postEachSecond_keeps ?_
        exact h21
      · rename_i e25a e25b
        exact h21
    clear_value y22
    refine settleBq_keeps ?_
    exact h22

theorem endBq_keeps {x0} (h : Keeps s0 s) : Keeps s0 (s.endBq x0) := by
  delta State.endBq
  extract_lets +onlyGivenNames y1
  have h1 : Keeps s0 y1 := by
    unfold y1
    refine cancelBq_keeps ?_
    exact h
  clear_value y1
  refine dropBq_keeps ?_
  refine Keeps.foldl _ ?_ ?_
  · exact h1
  · intro z2a z2b h2
    refine writeSamples_keeps ?_
    exact h2

theorem flipNow_keeps {f} (h : Keeps s0 s) : Keeps s0 (s.flipNow f) := by
  unfold State.flipNow
  have hb : ∀ now : List Nat, Keeps s0 { s with mem := { s.mem with bias := now.foldl (fun m x => mapSet false m x f.toHost) s.mem.bias } } :=
    fun now => h.withMem fun hm => by
      simp only [Mem.wf, Bool.and_eq_true] at hm ⊢
      have := mapFold_wf (l := now) (f := fun m x => mapSet false m x f.toHost) hm.1.1.1.1.2 (fun m x hm => mapSet_wf hm _ _)
      simp only [hm, this, and_self]
  dsimp only
  repeat' (first | apply hb | with_reducible apply setHost_keeps | with_reducible apply finish_keeps | split)

theorem settleFlips_keeps (h : Keeps s0 s) : Keeps s0 (s.settleFlips) := by
  delta State.settleFlips
  refine Keeps.foldl _ ?_ ?_
  · refine setHost_keeps ?_
    exact h
  · intro z1a z1b h1
    refine flipNow_keeps ?_
    exact h1

theorem releaseHeld_keeps {x} (h : Keeps s0 s) : Keeps s0 (s.releaseHeld x) := by
  unfold State.releaseHeld
  exact Keeps.foldl _ (h.withMem fun hm => hm) fun t x ht => store_keeps ht

theorem revertExtent_keeps {x0} {x1} (h : Keeps s0 s) : Keeps s0 (s.revertExtent x0 x1) := by
  delta State.revertExtent
  extract_lets +onlyGivenNames y1
  clear_value y1
  refine Keeps.ite ?_ ?_
  · exact h
  · extract_lets +onlyGivenNames y2
    have h2 : Keeps s0 y2 := by
      unfold y2
      refine setHome_keeps ?_
      exact h
    clear_value y2
    extract_lets +onlyGivenNames y3
    have h3 : Keeps s0 y3 := by
      unfold y3
      refine settleFlips_keeps ?_
      refine releaseHeld_keeps ?_
      exact h2
    clear_value y3
    refine post_keeps ?_
    exact h3

theorem setSluice_keeps {x0} {x1} (h : Keeps s0 s) : Keeps s0 (s.setSluice x0 x1) := by
  delta State.setSluice
  with_reducible refine Keeps.same ?_
  exact h

theorem setSet_keeps {x0} {x1} (h : Keeps s0 s) : Keeps s0 (s.setSet x0 x1) := by
  delta State.setSet
  with_reducible refine Keeps.same ?_
  exact h

theorem setFrame_keeps {x0} {x1} {x2} (h : Keeps s0 s) : Keeps s0 (s.setFrame x0 x1 x2) := by
  delta State.setFrame
  refine write_keeps ?_
  exact h

theorem endSluice_keeps {x0} {x1} (h : Keeps s0 s) : Keeps s0 (s.endSluice x0 x1) := by
  delta State.endSluice
  extract_lets +onlyGivenNames y1
  clear_value y1
  extract_lets +onlyGivenNames y2
  have h2 : Keeps s0 y2 := by
    unfold y2
    refine setSluice_keeps ?_
    exact h
  clear_value y2
  extract_lets +onlyGivenNames y3
  have h3 : Keeps s0 y3 := by
    unfold y3
    refine Keeps.ite ?_ ?_
    · refine semPost1_keeps ?_
      exact h2
    · exact h2
  clear_value y3
  extract_lets +onlyGivenNames y4
  clear_value y4
  extract_lets +onlyGivenNames y5
  clear_value y5
  extract_lets +onlyGivenNames y6
  have h6 : Keeps s0 y6 := by
    unfold y6
    split
    · rename_i e7a e7b e7c
      refine complete_keeps ?_
      exact h3
    · rename_i e8a e8b
      exact h3
  clear_value y6
  extract_lets +onlyGivenNames y9
  have h9 : Keeps s0 y9 := by
    unfold y9
    split
    · rename_i e10a e10b e10c
      refine finish_keeps ?_
      exact h6
    · rename_i e11a e11b
      exact h6
  clear_value y9
  extract_lets +onlyGivenNames y12
  have h12 : Keeps s0 y12 := by
    unfold y12
    split
    · rename_i e13a e13b e13c
      refine finish_keeps ?_
      exact h9
    · rename_i e14a e14b
      exact h9
  clear_value y12
  split
  · rename_i e15a e15b
    exact h12
  · rename_i e16a e16b e16c e16d e16e
    extract_lets +onlyGivenNames y17
    clear_value y17
    extract_lets +onlyGivenNames y18
    clear_value y18
    refine Keeps.ite ?_ ?_
    · extract_lets +onlyGivenNames y19
      have h19 : Keeps s0 y19 := by
        unfold y19
        refine setSet_keeps ?_
        exact h12
      clear_value y19
      refine Keeps.ite ?_ ?_
      · refine setFrame_keeps ?_
        exact h19
      · exact h19
    · exact h12

theorem countCopied_keeps {x0} {x1} (h : Keeps s0 s) : Keeps s0 (s.countCopied x0 x1) := by
  delta State.countCopied
  extract_lets +onlyGivenNames y1
  clear_value y1
  refine Keeps.ite ?_ ?_
  · exact h
  · refine bump_keeps ?_
    exact h

theorem carry_keeps {x0} {x1} (h : Keeps s0 s) : Keeps s0 (s.carry x0 x1) := by
  delta State.carry
  refine Keeps.ite h ?_
  extract_lets mine bytes
  clear_value mine
  refine ⟨h.1, h.2, fun hm => ?_⟩
  have hw := h.3 hm
  simp only [Mem.wf, Bool.and_eq_true] at hw ⊢
  have hb : ∀ (l : List (Nat × Byte)) (m : List (Nat × Byte)), mapWf 0 m = true →
      mapWf 0 (l.foldl (fun m e => mapSet 0 m (e.1 - x0 + x1) e.2) m) = true := by
    intro l
    induction l with
    | nil => exact fun _ h => h
    | cons e l ih => exact fun m h => ih _ (mapSet_wf h _ _)
  exact ⟨⟨⟨⟨⟨⟨⟨hb _ _ (mapClear_wf hw.1.1.1.1.1.1.1 _ _), hw.1.1.1.1.1.1.2⟩, hw.1.1.1.1.1.2⟩, hw.1.1.1.1.2⟩, hw.1.1.1.2⟩, hw.1.1.2⟩, hw.1.2⟩, hw.2⟩

theorem flipExtent_keeps {x0} {x1} (h : Keeps s0 s) : Keeps s0 (s.flipExtent x0 x1) := by
  delta State.flipExtent
  extract_lets x m o salt key s1 s2 s3
  have h3 : Keeps s0 s3 := countCopied_keeps (carry_keeps (setHome_keeps h))
  exact settleFlips_keeps (setSluice_keeps (releaseHeld_keeps h3))

theorem stopSluice_keeps {x} (h : Keeps s0 s) : Keeps s0 (s.stopSluice x) := by
  delta State.stopSluice
  extract_lets v s1
  refine Keeps.ite h ?_
  have h1 : Keeps s0 s1 := Keeps.ite (flipExtent_keeps h) h
  exact Keeps.ite (endSluice_keeps h1) h1

theorem tearSluice_keeps {x} (h : Keeps s0 s) : Keeps s0 (s.tearSluice x) := by
  unfold State.tearSluice
  dsimp only
  generalize hg : (if (!slCopy (s.sluice x) && ((s.sluice x).phase = 3 || (s.sluice x).phase = 4)) = true then
    s.revertExtent (s.sluice x).extent (s.objOf (s.sluice x).extent).job else s) = u
  have hu : Keeps s0 u := by
    rw [← hg]
    split
    · exact revertExtent_keeps h
    · exact h
  split
  · exact h
  · split
    · exact endSluice_keeps hu
    · exact hu

theorem dropSet_keeps {x0} (h : Keeps s0 s) : Keeps s0 (s.dropSet x0) := by
  delta State.dropSet
  refine setSet_keeps ?_
  exact h

theorem dropGroups_keeps {x0} (h : Keeps s0 s) : Keeps s0 (s.dropGroups x0) := by
  delta State.dropGroups
  with_reducible refine Keeps.same ?_
  exact h

theorem tearUnits_keeps {c b} (h : Keeps s0 s) : Keeps s0 (s.tearUnits c b) := by
  unfold State.tearUnits
  refine dropGroups_keeps (Keeps.foldl _ (Keeps.foldl _ (Keeps.same (Keeps.foldl _ (Keeps.foldl _ h ?_) ?_)) ?_) ?_)
  · intro t x ht
    split
    · exact stopEnc_keeps ht
    · exact tearEnc_keeps ht
  · intro t x ht
    split
    · exact endBq_keeps ht
    · exact dropBq_keeps ht
  · intro t x ht
    split
    · exact stopSluice_keeps ht
    · exact tearSluice_keeps ht
  · intro t x ht; exact dropSet_keeps ht

theorem hubPut_keeps {x0} {x1} (h : Keeps s0 s) : Keeps s0 (s.hubPut x0 x1) := by
  delta State.hubPut
  split
  · rename_i e1a e1b
    refine write_keeps ?_
    exact h
  · rename_i e2a e2b e2c
    refine write_keeps ?_
    exact h
  · rename_i e3a e3b e3c e3d
    exact h

theorem putEpoch_keeps {x0} {x1} (h : Keeps s0 s) : Keeps s0 (s.putEpoch x0 x1) := by
  delta State.putEpoch
  refine hubPut_keeps ?_
  exact h

theorem refreshRecord_keeps {r} (h : Keeps s0 s) : Keeps s0 (s.refreshRecord r) := by
  exact h.same

theorem recordOf_keeps {c y w tm} (h : Keeps s0 s) : Keeps s0 (s.recordOf c y w tm) := by
  exact refreshRecord_keeps h

theorem putRcb_keeps {x0} {x1} {x2} {x3} (h : Keeps s0 s) : Keeps s0 (s.putRcb x0 x1 x2 x3) := by
  delta State.putRcb
  refine hubPut_keeps ?_
  refine hubPut_keeps ?_
  refine hubPut_keeps ?_
  exact h

theorem refreshEvent_keeps {x0} {x1} {x2} {x3} {x4} {x5} (h : Keeps s0 s) :
    Keeps s0 (s.refreshEvent x0 x1 x2 x3 x4 x5) := by
  delta State.refreshEvent
  refine post_keeps ?_
  exact h

theorem wakeBarrier_keeps {x0} {x1} {x2} (h : Keeps s0 s) : Keeps s0 (s.wakeBarrier x0 x1 x2) := by
  delta State.wakeBarrier
  refine Keeps.foldl _ ?_ ?_
  · exact h
  · intro z1a z1b h1
    extract_lets +onlyGivenNames y2
    clear_value y2
    refine Keeps.ite ?_ ?_
    · split
      · rename_i e3a e3b e3c e3d
        refine Keeps.ite ?_ ?_
        · refine wake_keeps ?_
          exact h1
        · exact h1
      · rename_i e4a e4b
        exact h1
    · exact h1

theorem settleBarrier_keeps {x0} {x1} {x2} {x3} (h : Keeps s0 s) : Keeps s0 (s.settleBarrier x0 x1 x2 x3) := by
  delta State.settleBarrier
  extract_lets +onlyGivenNames y1
  clear_value y1
  extract_lets +onlyGivenNames y2
  clear_value y2
  refine Keeps.ite ?_ ?_
  · refine wakeBarrier_keeps ?_
    refine setJob_keeps ?_
    exact h
  · exact h

theorem settleFlipBarriers_keeps {x0} (h : Keeps s0 s) : Keeps s0 (s.settleFlipBarriers x0) := by
  delta State.settleFlipBarriers
  split
  · rename_i e1a e1b
    exact h
  · rename_i e2a e2b e2c
    refine Keeps.foldl _ ?_ ?_
    · exact h
    · intro z3a z3b h3
      extract_lets +onlyGivenNames y4
      clear_value y4
      refine settleBarrier_keeps ?_
      exact h3

theorem abandonRefresh_keeps {x0} (h : Keeps s0 s) : Keeps s0 (s.abandonRefresh x0) := by
  delta State.abandonRefresh
  extract_lets +onlyGivenNames y1
  clear_value y1
  split
  · rename_i e2a e2b e2c e2d e2e e2f
    extract_lets +onlyGivenNames y3
    have h3 : Keeps s0 y3 := by
      unfold y3
      refine Keeps.foldl _ ?_ ?_
      · exact h
      · intro z4a z4b h4
        refine putEpoch_keeps ?_
        exact h4
    clear_value y3
    extract_lets +onlyGivenNames y5
    have h5 : Keeps s0 y5 := by
      unfold y5
      refine recordOf_keeps ?_
      refine putRcb_keeps ?_
      exact h3
    clear_value y5
    extract_lets +onlyGivenNames y6
    have h6 : Keeps s0 y6 := by
      unfold y6
      split
      · rename_i e7a e7b e7c
        refine finish_keeps ?_
        exact h5
      · rename_i e8a e8b
        exact h5
    clear_value y6
    extract_lets +onlyGivenNames y9
    clear_value y9
    extract_lets +onlyGivenNames y10
    have h10 : Keeps s0 y10 := by
      unfold y10
      refine setJob_keeps ?_
      exact h6
    clear_value y10
    refine refreshEvent_keeps ?_
    refine settleFlipBarriers_keeps ?_
    exact h10
  · rename_i e11a e11b e11c
    exact h

theorem tearSems_keeps {x0} (h : Keeps s0 s) : Keeps s0 (s.tearSems x0) := by
  delta State.tearSems
  extract_lets +onlyGivenNames y1
  have h1 : Keeps s0 y1 := by
    unfold y1
    refine abandonRefresh_keeps ?_
    exact h
  clear_value y1
  extract_lets +onlyGivenNames y2
  have h2 : Keeps s0 y2 := by
    unfold y2
    with_reducible refine Keeps.same ?_
    exact h1
  clear_value y2
  refine setJob_keeps ?_
  exact h2

theorem releaseEngines_keeps {x0} {x1} (h : Keeps s0 s) : Keeps s0 (s.releaseEngines x0 x1) := by
  delta State.releaseEngines
  extract_lets +onlyGivenNames y1
  clear_value y1
  refine setCore_keeps ?_
  exact h

theorem tearSlots_keeps {x0} (h : Keeps s0 s) : Keeps s0 (s.tearSlots x0) := by
  delta State.tearSlots
  refine Keeps.foldl _ ?_ ?_
  · exact h
  · intro z1a z1b h1
    refine Keeps.foldl _ ?_ ?_
    · exact h1
    · intro z2a z2b h2
      extract_lets +onlyGivenNames y3
      clear_value y3
      refine Keeps.ite ?_ ?_
      · refine releaseEngines_keeps ?_
        refine freeSlot_keeps ?_
        exact h2
      · exact h2

theorem setObj_keeps {x0} {x1} (h : Keeps s0 s) : Keeps s0 (s.setObj x0 x1) := by
  delta State.setObj
  with_reducible refine Keeps.same ?_
  exact h

theorem dropLines_keeps {x0} (h : Keeps s0 s) : Keeps s0 (s.dropLines x0) := by
  delta State.dropLines
  refine Keeps.foldl _ ?_ ?_
  · exact h
  · intro z1a z1b h1
    extract_lets +onlyGivenNames y2
    clear_value y2
    refine setCore_keeps ?_
    exact h1

theorem unload_keeps {x0} (h : Keeps s0 s) : Keeps s0 (s.unload x0) := by
  delta State.unload
  refine dropLines_keeps ?_
  with_reducible refine Keeps.same ?_
  exact h

theorem destroyObj_keeps {x} (h : Keeps s0 s) : Keeps s0 (s.destroyObj x) := by
  unfold State.destroyObj
  refine setObj_keeps (Keeps.foldl _ h fun t x ht => ?_)
  refine (setHome_keeps ht).withMem fun hm => ?_
  simp only [Mem.wf, Bool.and_eq_true] at hm ⊢
  simp only [hm, mapSet_wf, mapClear_wf, and_self]

theorem sweep_keeps (h : Keeps s0 s) : Keeps s0 (s.sweep) := by
  delta State.sweep
  extract_lets +onlyGivenNames y1
  have h1 : Keeps s0 y1 := by
    unfold y1
    refine Keeps.foldl _ ?_ ?_
    · exact h
    · intro z2a z2b h2
      refine Keeps.ite ?_ ?_
      · refine unload_keeps ?_
        exact h2
      · exact h2
  clear_value y1
  refine Keeps.foldl _ ?_ ?_
  · exact h1
  · intro z3a z3b h3
    extract_lets +onlyGivenNames y4
    clear_value y4
    refine Keeps.ite ?_ ?_
    · refine destroyObj_keeps ?_
      exact h3
    · exact h3

theorem freeJob_keeps {x0} (h : Keeps s0 s) : Keeps s0 (s.freeJob x0) := by
  delta State.freeJob
  extract_lets +onlyGivenNames y1
  clear_value y1
  extract_lets +onlyGivenNames y2
  have h2 : Keeps s0 y2 := by
    unfold y2
    refine Keeps.foldl _ ?_ ?_
    · exact h
    · intro z3a z3b h3
      refine setObj_keeps ?_
      exact h3
  clear_value y2
  extract_lets +onlyGivenNames y4
  have h4 : Keeps s0 y4 := by
    unfold y4
    with_reducible refine Keeps.same ?_
    exact h2
  clear_value y4
  refine sweep_keeps ?_
  refine setJob_keeps ?_
  exact h4

theorem cancelJob_keeps {x} (h : Keeps s0 s) : Keeps s0 (s.cancelJob x) := by
  unfold State.cancelJob
  exact finish_keeps (freeJob_keeps (hubPut_keeps (tearUnits_keeps (tearSems_keeps (tearSlots_keeps
    (endWaiting_keeps (setJob_keeps h)))))))

theorem resetFn_keeps {x0} (h : Keeps s0 s) : Keeps s0 (s.resetFn x0) := by
  delta State.resetFn
  extract_lets +onlyGivenNames y1
  have h1 : Keeps s0 y1 := by
    unfold y1
    refine Keeps.foldl _ ?_ ?_
    · exact h
    · intro z2a z2b h2
      refine Keeps.ite ?_ ?_
      · refine setQueue_keeps ?_
        exact h2
      · exact h2
  clear_value y1
  extract_lets +onlyGivenNames y3
  have h3 : Keeps s0 y3 := by
    unfold y3
    refine Keeps.foldl _ ?_ ?_
    · exact h1
    · intro z4a z4b h4
      refine Keeps.ite ?_ ?_
      · refine cancelJob_keeps ?_
        exact h4
      · exact h4
  clear_value y3
  refine setHost_keeps ?_
  exact h3

theorem polderCtrl_keeps {x0} {x1} (h : Keeps s0 s) : Keeps s0 (s.polderCtrl x0 x1) := by
  delta State.polderCtrl
  refine setPolder_keeps ?_
  exact h

theorem passSpend_keeps {x0} {x1} {x2} (h : Keeps s0 s) : Keeps s0 (s.passSpend x0 x1 x2) := by
  delta State.passSpend
  refine Keeps.foldl _ ?_ ?_
  · exact h
  · intro z1a z1b h1
    refine devSpend_keeps ?_
    exact h1

theorem afterWarm_keeps  (h : Keeps s0 s) : Keeps s0 (s.afterWarm ) := by
  refine ⟨h.1, h.2, fun hm => ?_⟩
  have := h.3 hm
  simp only [Mem.wf, Bool.and_eq_true] at this
  simp only [State.afterWarm, Mem.wf, Bool.and_eq_true, this, and_true]
  decide

theorem undoGlow_keeps {x} (h : Keeps s0 s) : Keeps s0 (s.undoGlow x) := by
  unfold State.undoGlow
  refine h.withMem fun hm => ?_
  simp only [Mem.wf, Bool.and_eq_true] at hm ⊢
  simp only [hm, mapSet_wf, mapClear_wf, mapFold_wf hm.1.1.1.1.1.1.1 fun m x hm => mapSet_wf hm _ _, and_self]

theorem undoAllGlow_keeps (h : Keeps s0 s) : Keeps s0 (s.undoAllGlow) := by
  delta State.undoAllGlow
  refine Keeps.foldl _ ?_ ?_
  · exact h
  · intro z1a z1b h1
    refine undoGlow_keeps ?_
    exact h1

theorem setEv_keeps {x0} (h : Keeps s0 s) : Keeps s0 (s.setEv x0) := by
  delta State.setEv
  with_reducible refine Keeps.same ?_
  exact h

theorem deliverTo_keeps {x0} {x1} (h : Keeps s0 s) : Keeps s0 (s.deliverTo x0 x1) := by
  delta State.deliverTo
  extract_lets +onlyGivenNames y1
  clear_value y1
  extract_lets +onlyGivenNames y2
  clear_value y2
  extract_lets +onlyGivenNames y3
  clear_value y3
  extract_lets +onlyGivenNames y4
  have h4 : Keeps s0 y4 := by
    unfold y4
    refine Keeps.ite ?_ ?_
    · refine postEachSecond_keeps ?_
      refine setQueue_keeps ?_
      exact h
    · refine setQueue_keeps ?_
      refine ringTouch_keeps ?_
      refine write_keeps ?_
      exact h
  clear_value y4
  extract_lets +onlyGivenNames y5
  clear_value y5
  extract_lets +onlyGivenNames y6
  have h6 : Keeps s0 y6 := by
    unfold y6
    refine write_keeps ?_
    exact h4
  clear_value y6
  extract_lets +onlyGivenNames y7
  have h7 : Keeps s0 y7 := by
    unfold y7
    refine ringTouch_keeps ?_
    exact h6
  clear_value y7
  refine Keeps.ite ?_ ?_
  · exact h7
  · refine signal_keeps ?_
    exact h7

theorem deliver_keeps {x0} (h : Keeps s0 s) : Keeps s0 (s.deliver x0) := by
  delta State.deliver
  extract_lets +onlyGivenNames y1
  clear_value y1
  refine Keeps.foldl _ ?_ ?_
  · exact h
  · intro z3a z3b h3
    refine deliverTo_keeps ?_
    exact h3

theorem logRecord_keeps {x0} {x1} (h : Keeps s0 s) : Keeps s0 (s.logRecord x0 x1) := by
  delta State.logRecord
  extract_lets +onlyGivenNames y1
  clear_value y1
  extract_lets +onlyGivenNames y2
  clear_value y2
  extract_lets +onlyGivenNames y3
  clear_value y3
  refine deliver_keeps ?_
  refine setEv_keeps ?_
  exact h

theorem nextSeq_keeps (h : Keeps s0 s) : Keeps s0 (s.nextSeq) := by
  delta State.nextSeq
  extract_lets +onlyGivenNames y1
  clear_value y1
  refine Keeps.ite ?_ ?_
  · refine setEv_keeps ?_
    exact h
  · extract_lets +onlyGivenNames y2
    have h2 : Keeps s0 y2 := by
      unfold y2
      refine setEv_keeps ?_
      exact h
    clear_value y2
    refine logRecord_keeps ?_
    exact h2

theorem numberEvent_keeps {x0} {x1} (h : Keeps s0 s) : Keeps s0 (s.numberEvent x0 x1) := by
  delta State.numberEvent
  refine nextSeq_keeps ?_
  refine logRecord_keeps ?_
  exact h

theorem numberAll_keeps (h : Keeps s0 s) : Keeps s0 (s.numberAll) := by
  delta State.numberAll
  refine Keeps.ite ?_ ?_
  · exact h
  · refine Keeps.foldl _ ?_ ?_
    · refine setEv_keeps ?_
      exact h
    · intro z1a z1b h1
      refine numberEvent_keeps ?_
      exact h1

theorem warmReset_keeps (h : Keeps s0 s) : Keeps s0 (s.warmReset) := by
  delta State.warmReset
  refine Keeps.ite ?_ ?_
  · exact h
  · extract_lets +onlyGivenNames y1
    have h1 : Keeps s0 y1 := by
      unfold y1
      refine Keeps.foldl _ ?_ ?_
      · exact h
      · intro z2a z2b h2
        refine Keeps.ite ?_ ?_
        · refine tearEnc_keeps ?_
          exact h2
        · exact h2
    clear_value y1
    refine afterWarm_keeps ?_
    refine undoAllGlow_keeps ?_
    refine numberAll_keeps ?_
    exact h1

theorem takePost_keeps {x0} {x1} (h : Keeps s0 s) : Keeps s0 (s.takePost x0 x1) := by
  delta State.takePost
  extract_lets +onlyGivenNames y1
  clear_value y1
  refine setSem_keeps ?_
  exact h

theorem takeRecons_keeps {x n} (h : Keeps s0 s) : Keeps s0 (s.takeRecons x n) := by
  induction n generalizing s with
  | zero => exact h
  | succ n ih =>
    unfold State.takeRecons
    dsimp only
    split
    · exact h
    · split
      · exact ih (setEnc_keeps (takePost_keeps h))
      · exact h

theorem setDep_keeps {x0} (h : Keeps s0 s) : Keeps s0 (s.setDep x0) := by
  delta State.setDep
  with_reducible refine Keeps.same ?_
  exact h

theorem portFail_keeps {x0} (h : Keeps s0 s) : Keeps s0 (s.portFail x0) := by
  delta State.portFail
  extract_lets +onlyGivenNames y1
  clear_value y1
  refine Keeps.ite ?_ ?_
  · exact h
  · refine Keeps.ite ?_ ?_
    · refine setDep_keeps ?_
      exact h
    · extract_lets +onlyGivenNames y2
      clear_value y2
      extract_lets +onlyGivenNames y3
      have h3 : Keeps s0 y3 := by
        unfold y3
        refine setDep_keeps ?_
        exact h
      clear_value y3
      refine post_keeps ?_
      with_reducible refine Keeps.same ?_
      exact h3

theorem dropWaiter_keeps {x0} {x1} {x2} (h : Keeps s0 s) : Keeps s0 (s.dropWaiter x0 x1 x2) := by
  delta State.dropWaiter
  extract_lets +onlyGivenNames y1
  clear_value y1
  extract_lets +onlyGivenNames y2
  have h2 : Keeps s0 y2 := by
    unfold y2
    refine setSem_keeps ?_
    exact h
  clear_value y2
  refine semValue_keeps ?_
  exact h2

theorem withdraw_keeps {x0} {x1} (h : Keeps s0 s) : Keeps s0 (s.withdraw x0 x1) := by
  delta State.withdraw
  extract_lets +onlyGivenNames y1
  clear_value y1
  split
  · rename_i e2a e2b e2c e2d e2e e2f e2g
    refine dropWaiter_keeps ?_
    refine setSlot_keeps ?_
    exact h
  · rename_i e3a e3b
    exact h

theorem flushPosts_keeps {x0} {x1} (h : Keeps s0 s) : Keeps s0 (s.flushPosts x0 x1) := by
  delta State.flushPosts
  extract_lets +onlyGivenNames y1
  clear_value y1
  refine Keeps.foldl _ ?_ ?_
  · refine setSlot_keeps ?_
    exact h
  · intro z2a z2b h2
    refine semPost1_keeps ?_
    exact h2

theorem vacate_keeps {x0} {x1} (h : Keeps s0 s) : Keeps s0 (s.vacate x0 x1) := by
  delta State.vacate
  refine freeSlot_keeps ?_
  refine setSlot_keeps ?_
  exact h

theorem saveTask_keeps {x0} {x1} {x2} {x3} (h : Keeps s0 s) : Keeps s0 (s.saveTask x0 x1 x2 x3) := by
  delta State.saveTask
  extract_lets +onlyGivenNames y1
  have h1 : Keeps s0 y1 := by
    unfold y1
    refine flushPosts_keeps ?_
    refine withdraw_keeps ?_
    exact h
  clear_value y1
  extract_lets +onlyGivenNames y2
  clear_value y2
  extract_lets +onlyGivenNames y3
  clear_value y3
  extract_lets +onlyGivenNames y4
  have h4 : Keeps s0 y4 := by
    unfold y4
    refine releaseEngines_keeps ?_
    refine vacate_keeps ?_
    exact h1
  clear_value y4
  extract_lets +onlyGivenNames y5
  clear_value y5
  refine setJob_keeps ?_
  exact h4

theorem moveOff_keeps {x0} {x1} {x2} {x3} (h : Keeps s0 s) : Keeps s0 (s.moveOff x0 x1 x2 x3) := by
  delta State.moveOff
  extract_lets +onlyGivenNames y1
  clear_value y1
  extract_lets +onlyGivenNames y2
  clear_value y2
  extract_lets +onlyGivenNames y3
  clear_value y3
  extract_lets +onlyGivenNames y4
  clear_value y4
  extract_lets +onlyGivenNames y5
  clear_value y5
  extract_lets +onlyGivenNames y6
  have h6 : ∀ z6a z6b z6c, Keeps s0 z6a → Keeps s0 (y6 z6a z6b z6c) := by
    unfold y6
    intro z7a z7b z7c h7
    extract_lets +onlyGivenNames y8
    have h8 : Keeps s0 y8 := by
      unfold y8
      refine releaseEngines_keeps ?_
      refine freeSlot_keeps ?_
      refine withdraw_keeps ?_
      exact h7
    clear_value y8
    extract_lets +onlyGivenNames y9
    clear_value y9
    refine setJob_keeps ?_
    exact h8
  clear_value y6
  refine Keeps.ite ?_ ?_
  · refine saveTask_keeps ?_
    exact h
  · refine Keeps.ite ?_ ?_
    · refine faultJob_keeps ?_
      refine stopSlot_keeps ?_
      exact h
    · split
      · rename_i e10a e10b e10c e10d e10e
        refine h6 _ _ _ ?_
        exact h
      · rename_i e11a e11b
        refine Keeps.ite ?_ ?_
        · refine h6 _ _ _ ?_
          exact h
        · refine faultJob_keeps ?_
          refine stopSlot_keeps ?_
          refine post_keeps ?_
          exact h

theorem setPower_keeps {x0} (h : Keeps s0 s) : Keeps s0 (s.setPower x0) := by
  delta State.setPower
  with_reducible refine Keeps.same ?_
  exact h

theorem powerEvent_keeps {x0} {x1} {x2} (h : Keeps s0 s) : Keeps s0 (s.powerEvent x0 x1 x2) := by
  delta State.powerEvent
  refine post_keeps ?_
  exact h

theorem throttleStep_keeps {x0} (h : Keeps s0 s) : Keeps s0 (s.throttleStep x0) := by
  delta State.throttleStep
  extract_lets +onlyGivenNames y1
  clear_value y1
  extract_lets +onlyGivenNames y2
  clear_value y2
  extract_lets +onlyGivenNames y3
  have h3 : Keeps s0 y3 := by
    unfold y3
    refine setPower_keeps ?_
    exact h
  clear_value y3
  refine Keeps.ite ?_ ?_
  · refine powerEvent_keeps ?_
    exact h3
  · exact h3

theorem fenceCore_keeps {x0} {x1} (h : Keeps s0 s) : Keeps s0 (s.fenceCore x0 x1) := by
  delta State.fenceCore
  extract_lets +onlyGivenNames y1
  clear_value y1
  refine Keeps.ite ?_ ?_
  · exact h
  · extract_lets +onlyGivenNames y2
    clear_value y2
    extract_lets +onlyGivenNames y3
    have h3 : Keeps s0 y3 := by
      unfold y3
      refine setCore_keeps ?_
      exact h
    clear_value y3
    refine post_keeps ?_
    exact h3

theorem countTowardFence_keeps {x0} (h : Keeps s0 s) : Keeps s0 (s.countTowardFence x0) := by
  delta State.countTowardFence
  extract_lets +onlyGivenNames y1
  clear_value y1
  extract_lets +onlyGivenNames y2
  clear_value y2
  extract_lets +onlyGivenNames y3
  clear_value y3
  extract_lets +onlyGivenNames y4
  have h4 : Keeps s0 y4 := by
    unfold y4
    refine setCore_keeps ?_
    exact h
  clear_value y4
  refine Keeps.ite ?_ ?_
  · refine fenceCore_keeps ?_
    exact h4
  · exact h4

theorem mismatch_keeps {x0} {x1} {x2} {x3} {x4} (h : Keeps s0 s) : Keeps s0 (s.mismatch x0 x1 x2 x3 x4) := by
  delta State.mismatch
  extract_lets +onlyGivenNames y1
  have h1 : Keeps s0 y1 := by
    unfold y1
    refine coreEvent_keeps ?_
    exact h
  clear_value y1
  extract_lets +onlyGivenNames y2
  clear_value y2
  refine setCore_keeps ?_
  exact h1

theorem guarded_keeps {x0} {x1} {x2} {x3} (h : Keeps s0 s) (h3 : ∀ t, Keeps s0 t → Keeps s0 (x3 t)) :
    Keeps s0 (s.guarded x0 x1 x2 x3) := by
  delta State.guarded
  split
  · rename_i e1a e1b
    refine h3 _ ?_
    exact h
  · rename_i e2a e2b
    refine countTowardFence_keeps ?_
    refine h3 _ ?_
    refine mismatch_keeps ?_
    exact h
  · rename_i e3a e3b
    refine fenceCore_keeps ?_
    refine mismatch_keeps ?_
    refine mismatch_keeps ?_
    exact h

theorem vecGuarded_keeps {x0} {x1} {x2} {x3} {x4} {x5} (h : Keeps s0 s) :
    Keeps s0 (s.vecGuarded x0 x1 x2 x3 x4 x5) := by
  delta State.vecGuarded
  refine issue_keeps ?_ ?_
  · exact h
  · intro z1a h1
    extract_lets +onlyGivenNames y2
    clear_value y2
    split
    · rename_i e3a e3b e3c
      refine stopAt_keeps ?_
      exact h1
    · rename_i e4a e4b
      refine guarded_keeps ?_ ?_
      · exact h1
      · intro z5a h5
        refine advance_keeps ?_
        refine setAt_keeps ?_
        exact h5

theorem vec3_keeps {x0} {x1} {x2} {x3} {x4} (h : Keeps s0 s) : Keeps s0 (s.vec3 x0 x1 x2 x3 x4) := by
  delta State.vec3
  refine vecGuarded_keeps ?_
  exact h

theorem corrected_keeps {x0} (h : Keeps s0 s) : Keeps s0 (s.corrected x0) := by
  delta State.corrected
  extract_lets +onlyGivenNames y1
  clear_value y1
  extract_lets +onlyGivenNames y2
  clear_value y2
  extract_lets +onlyGivenNames y3
  clear_value y3
  refine Keeps.ite ?_ ?_
  · refine setDep_keeps ?_
    exact h
  · refine postEachSecond_keeps ?_
    refine setDep_keeps ?_
    exact h

theorem memCorrected_keeps {x0} {x1} (h : Keeps s0 s) : Keeps s0 (s.memCorrected x0 x1) := by
  delta State.memCorrected
  extract_lets +onlyGivenNames y1
  have h1 : Keeps s0 y1 := by
    unfold y1
    refine Keeps.ite ?_ ?_
    · refine bump_keeps ?_
      exact h
    · exact h
  clear_value y1
  refine corrected_keeps ?_
  exact h1

theorem dropColl_keeps {x0} (h : Keeps s0 s) : Keeps s0 (s.dropColl x0) := by
  delta State.dropColl
  with_reducible refine Keeps.same ?_
  exact h

theorem collFail_keeps {x0} {x1} (h : Keeps s0 s) : Keeps s0 (s.collFail x0 x1) := by
  delta State.collFail
  extract_lets +onlyGivenNames y1
  clear_value y1
  extract_lets +onlyGivenNames y2
  clear_value y2
  refine faultJob_keeps ?_
  refine post_keeps ?_
  refine dropColl_keeps ?_
  exact h

theorem passN_keeps {x0} (h : Keeps s0 s) : Keeps s0 (s.passN x0) := by
  delta State.passN
  with_reducible refine Keeps.same ?_
  exact h

theorem sramEvent_keeps {x0} {x1} (h : Keeps s0 s) : Keeps s0 (s.sramEvent x0 x1) := by
  delta State.sramEvent
  split
  · rename_i e1a e1b e1c e1d e1e
    refine tick_keeps ?_
    refine post_keeps ?_
    exact h

theorem lanternEvent_keeps {x0} {x1} {x2} {x3} {x4} (h : Keeps s0 s) : Keeps s0 (s.lanternEvent x0 x1 x2 x3 x4) := by
  delta State.lanternEvent
  refine post_keeps ?_
  exact h

theorem tableEvent_keeps {x0} {x1} {x2} {x3} (h : Keeps s0 s) : Keeps s0 (s.tableEvent x0 x1 x2 x3) := by
  delta State.tableEvent
  refine lanternEvent_keeps ?_
  exact h

theorem setRegion_keeps {x0} {x1} (h : Keeps s0 s) : Keeps s0 (s.setRegion x0 x1) := by
  delta State.setRegion
  with_reducible refine Keeps.same ?_
  exact h

theorem tableStart_keeps {r n} (h : Keeps s0 s) : Keeps s0 (s.tableStart r n) := by
  induction n generalizing s with
  | zero => exact h
  | succ n ih =>
    unfold State.tableStart
    dsimp only
    split
    · exact ih (tableEvent_keeps (setRegion_keeps (tick_keeps h)))
    · exact Keeps.foldl _ (setRegion_keeps (tick_keeps h)) fun t x ht => setCore_keeps ht

theorem tableRequest_keeps {x0} (h : Keeps s0 s) : Keeps s0 (s.tableRequest x0) := by
  delta State.tableRequest
  extract_lets +onlyGivenNames y1
  clear_value y1
  refine Keeps.ite ?_ ?_
  · refine tableStart_keeps ?_
    exact h
  · refine setRegion_keeps ?_
    exact h

theorem setLink_keeps {x0} {x1} (h : Keeps s0 s) : Keeps s0 (s.setLink x0 x1) := by
  delta State.setLink
  with_reducible refine Keeps.same ?_
  exact h

theorem lanternRestart_keeps {x0} (h : Keeps s0 s) : Keeps s0 (s.lanternRestart x0) := by
  delta State.lanternRestart
  refine lanternEvent_keeps ?_
  refine setDep_keeps ?_
  exact h

theorem pairRestart_keeps (h : Keeps s0 s) : Keeps s0 (s.pairRestart) := by
  delta State.pairRestart
  refine setEv_keeps ?_
  exact h

theorem sramLost_keeps {p} (h : Keeps s0 s) : Keeps s0 (s.sramLost p) := by
  unfold State.sramLost
  have hp : ∀ name, Keeps s0 { s with mem := { s.mem with poison := mapSet false s.mem.poison (name / 64) true } } :=
    fun name => h.withMem fun hm => by
      simp only [Mem.wf, Bool.and_eq_true] at hm ⊢
      simp only [hm, mapSet_wf, and_self]
  cases p <;> dsimp only <;>
  repeat' (first | with_reducible assumption | apply hp | with_reducible apply countTowardFence_keeps | with_reducible apply faultJob_keeps | with_reducible apply stopSlot_keeps | with_reducible apply sramEvent_keeps | with_reducible apply setSlot_keeps | with_reducible apply setCore_keeps | with_reducible apply tableRequest_keeps | with_reducible apply portFail_keeps | with_reducible apply setLink_keeps | with_reducible apply lanternRestart_keeps | with_reducible apply pairRestart_keeps | split)

theorem bufWrite_keeps {x0} {x1} {x2} (h : Keeps s0 s) : Keeps s0 (s.bufWrite x0 x1 x2) := by
  delta State.bufWrite
  extract_lets +onlyGivenNames y1
  clear_value y1
  refine setCore_keeps ?_
  exact h

theorem scatter_keeps {x0} {x1} {x2} (h : Keeps s0 s) : Keeps s0 (s.scatter x0 x1 x2) := by
  delta State.scatter
  extract_lets +onlyGivenNames y1
  clear_value y1
  extract_lets +onlyGivenNames y2
  clear_value y2
  refine Keeps.foldl _ ?_ ?_
  · exact h
  · intro z3a z3b h3
    refine Keeps.ite ?_ ?_
    · refine bufWrite_keeps ?_
      exact h3
    · exact h3

theorem fullTrain_keeps {x0} (h : Keeps s0 s) : Keeps s0 (s.fullTrain x0) := by
  delta State.fullTrain
  extract_lets +onlyGivenNames y1
  clear_value y1
  refine setLink_keeps ?_
  exact h

theorem retrainRequest_keeps {x0} (h : Keeps s0 s) : Keeps s0 (s.retrainRequest x0) := by
  delta State.retrainRequest
  extract_lets +onlyGivenNames y1
  clear_value y1
  refine Keeps.ite ?_ ?_
  · exact h
  · refine Keeps.ite ?_ ?_
    · refine fullTrain_keeps ?_
      exact h
    · refine setLink_keeps ?_
      exact h

theorem updateHead_keeps {x0} {x1} {x2} (h : Keeps s0 s) : Keeps s0 (s.updateHead x0 x1 x2) := by
  delta State.updateHead
  extract_lets +onlyGivenNames y1
  clear_value y1
  split
  · rename_i e2a e2b
    exact h
  · rename_i e3a e3b e3c e3d
    split
    · rename_i e4a e4b
      refine postClaim_keeps ?_
      refine setAt_keeps ?_
      exact h
    · rename_i e5a
      refine postClaim_keeps ?_
      refine duePost_keeps ?_
      refine setAt_keeps ?_
      exact h

theorem hostRefused_keeps {x0} {x1} {x2} {x3} (h : Keeps s0 s) : Keeps s0 (s.hostRefused x0 x1 x2 x3) := by
  delta State.hostRefused
  refine postEachSecond_keeps ?_
  exact h

theorem hostCharge_keeps {x0} {x1} {x2} (h : Keeps s0 s) : Keeps s0 (s.hostCharge x0 x1 x2) := by
  delta State.hostCharge
  extract_lets +onlyGivenNames y1
  clear_value y1
  refine charge_keeps ?_
  exact h

theorem autoFlip_keeps {x0} {x1} (h : Keeps s0 s) : Keeps s0 (s.autoFlip x0 x1) := by
  delta State.autoFlip
  refine Keeps.ite ?_ ?_
  · refine flipNow_keeps ?_
    exact h
  · exact h

theorem hostWritePart_keeps {x0} {x1} {x2} {x3} (h : Keeps s0 s) : Keeps s0 (s.hostWritePart x0 x1 x2 x3) := by
  delta State.hostWritePart
  split
  · rename_i e1a e1b e1c
    refine hostRefused_keeps ?_
    exact h
  · rename_i e2a e2b
    refine Keeps.ite ?_ ?_
    · exact h
    · refine write_keeps ?_
      refine hostCharge_keeps ?_
      refine autoFlip_keeps ?_
      exact h

theorem remotePost_keeps {x0} {x1} {x2} (h : Keeps s0 s) : Keeps s0 (s.remotePost x0 x1 x2) := by
  delta State.remotePost
  extract_lets +onlyGivenNames y1
  clear_value y1
  refine Keeps.ite ?_ ?_
  · exact h
  · refine Keeps.ite ?_ ?_
    · refine semValue_keeps ?_
      exact h
    · refine Keeps.ite ?_ ?_
      · refine semValue_keeps ?_
        exact h
      · refine faultJob_keeps ?_
        refine post_keeps ?_
        exact h

theorem finishAll_keeps {x0} (h : Keeps s0 s) : Keeps s0 (s.finishAll x0) := by
  delta State.finishAll
  refine Keeps.foldl _ ?_ ?_
  · exact h
  · intro z1a z1b h1
    refine finish_keeps ?_
    exact h1

theorem windowAccess_keeps {x0} {x1} {x2} {x3} {x4} {x5} (h : Keeps s0 s) (h5 : ∀ t, Keeps s0 t → Keeps s0 (x5 t)) :
    Keeps s0 (s.windowAccess x0 x1 x2 x3 x4 x5) := by
  delta State.windowAccess
  extract_lets +onlyGivenNames y1
  clear_value y1
  extract_lets +onlyGivenNames y2
  clear_value y2
  split
  · rename_i e3a e3b e3c
    split
    · rename_i e4a e4b e4c e4d
      refine post_keeps ?_
      exact h
  · rename_i e5a e5b
    refine Keeps.ite ?_ ?_
    · exact h
    · split
      · rename_i e6a e6b e6c
        refine setDike_keeps ?_
        exact h
      · rename_i e7a e7b
        refine h5 _ ?_
        refine charge_keeps ?_
        exact h

theorem setVolts_keeps {x0} (h : Keeps s0 s) : Keeps s0 (s.setVolts x0) := by
  delta State.setVolts
  refine setPower_keeps ?_
  exact h

theorem afterMainLoss_keeps  (h : Keeps s0 s) : Keeps s0 (s.afterMainLoss ) := by
  refine ⟨h.1, h.2, fun hm => ?_⟩
  simp only [State.afterMainLoss]
  decide

theorem sensorFault_keeps {x0} {x1} {x2} (h : Keeps s0 s) : Keeps s0 (s.sensorFault x0 x1 x2) := by
  delta State.sensorFault
  refine Keeps.ite ?_ ?_
  · exact h
  · refine tick_keeps ?_
    refine post_keeps ?_
    exact h

theorem showRefresh_keeps {x0} (h : Keeps s0 s) : Keeps s0 (s.showRefresh x0) := by
  delta State.showRefresh
  extract_lets +onlyGivenNames y1
  clear_value y1
  split
  · rename_i e2a e2b e2c e2d e2e e2f
    refine hubPut_keeps ?_
    exact h
  · rename_i e3a e3b e3c
    exact h

theorem shiftOps_keeps {x0} {x1} {x2} (h : Keeps s0 s) : Keeps s0 (s.shiftOps x0 x1 x2) := by
  delta State.shiftOps
  extract_lets +onlyGivenNames y1
  have h1 : Keeps s0 y1 := by
    unfold y1
    refine Keeps.foldl _ ?_ ?_
    · exact h
    · intro z2a z2b h2
      extract_lets +onlyGivenNames y3
      clear_value y3
      refine Keeps.ite ?_ ?_
      · refine setEnc_keeps ?_
        exact h2
      · exact h2
  clear_value y1
  extract_lets +onlyGivenNames y4
  have h4 : Keeps s0 y4 := by
    unfold y4
    refine Keeps.foldl _ ?_ ?_
    · exact h1
    · intro z5a z5b h5
      extract_lets +onlyGivenNames y6
      clear_value y6
      refine Keeps.ite ?_ ?_
      · refine setBq_keeps ?_
        exact h5
      · exact h5
  clear_value y4
  extract_lets +onlyGivenNames y7
  have h7 : Keeps s0 y7 := by
    unfold y7
    refine Keeps.foldl _ ?_ ?_
    · exact h4
    · intro z8a z8b h8
      extract_lets +onlyGivenNames y9
      clear_value y9
      refine Keeps.ite ?_ ?_
      · refine setSluice_keeps ?_
        exact h8
      · exact h8
  clear_value y7
  extract_lets +onlyGivenNames y10
  clear_value y10
  split
  · rename_i e11a e11b e11c
    refine Keeps.ite ?_ ?_
    · refine setJob_keeps ?_
      exact h7
    · exact h7
  · rename_i e12a e12b
    exact h7

theorem resumeJob_keeps {x0} (h : Keeps s0 s) : Keeps s0 (s.resumeJob x0) := by
  delta State.resumeJob
  extract_lets +onlyGivenNames y1
  clear_value y1
  extract_lets +onlyGivenNames y2
  clear_value y2
  refine showRefresh_keeps ?_
  refine shiftOps_keeps ?_
  refine setJob_keeps ?_
  exact h

theorem emptyHomes_keeps {x0} {x1} {x2} {x3} (h : Keeps s0 s) : Keeps s0 (s.emptyHomes x0 x1 x2 x3) := by
  delta State.emptyHomes
  refine Keeps.foldl _ ?_ ?_
  · exact h
  · intro z1a z1b h1
    refine setHome_keeps ?_
    exact h1

theorem polderSalt_keeps {x0} {x1} {x2} (h : Keeps s0 s) : Keeps s0 (s.polderSalt x0 x1 x2) := by
  delta State.polderSalt
  extract_lets +onlyGivenNames y1
  clear_value y1
  refine setPolder_keeps ?_
  exact h

theorem dikePut_keeps {x0} {x1} {x2} {x3} (h : Keeps s0 s) : Keeps s0 (s.dikePut x0 x1 x2 x3) := by
  delta State.dikePut
  extract_lets +onlyGivenNames y1
  clear_value y1
  extract_lets +onlyGivenNames y2
  clear_value y2
  refine Keeps.ite ?_ ?_
  · exact h
  · refine Keeps.ite ?_ ?_
    · refine setDike_keeps ?_
      exact h
    · refine setDike_keeps ?_
      exact h

theorem polderPutReg_keeps {x0} {x1} {x2} (h : Keeps s0 s) : Keeps s0 (s.polderPutReg x0 x1 x2) := by
  delta State.polderPutReg
  split
  · rename_i e1a
    refine polderCtrl_keeps ?_
    exact h
  · rename_i e2a
    refine polderSalt_keeps ?_
    exact h
  · rename_i e3a
    refine polderSalt_keeps ?_
    exact h
  · rename_i e4a e4b e4c e4d
    refine Keeps.ite ?_ ?_
    · refine dikePut_keeps ?_
      exact h
    · exact h

theorem putHead_keeps {x0} {x1} {x2} {x3} {x4} {x5} {x6} {x7} (h : Keeps s0 s) :
    Keeps s0 (s.putHead x0 x1 x2 x3 x4 x5 x6 x7) := by
  delta State.putHead
  extract_lets +onlyGivenNames y1
  clear_value y1
  extract_lets +onlyGivenNames y2
  clear_value y2
  extract_lets +onlyGivenNames y3
  clear_value y3
  extract_lets +onlyGivenNames y4
  have h4 : Keeps s0 y4 := by
    unfold y4
    refine devWrite_keeps ?_
    refine devSpend_keeps ?_
    exact h
  clear_value y4
  refine count_keeps ?_
  exact h4

theorem accWrite_keeps {x0} {x1} {x2} (h : Keeps s0 s) : Keeps s0 (s.accWrite x0 x1 x2) := by
  delta State.accWrite
  extract_lets +onlyGivenNames y1
  clear_value y1
  refine setCore_keeps ?_
  exact h

theorem putStats_keeps {x0} {x1} {x2} {x3} {x4} {x5} {x6} {x7} (h : Keeps s0 s) :
    Keeps s0 (s.putStats x0 x1 x2 x3 x4 x5 x6 x7) := by
  delta State.putStats
  extract_lets +onlyGivenNames y1
  clear_value y1
  extract_lets +onlyGivenNames y2
  clear_value y2
  extract_lets +onlyGivenNames y3
  clear_value y3
  refine devWrite_keeps ?_
  refine devSpend_keeps ?_
  exact h

theorem endRow_keeps {x0} {x1} {x2} (h : Keeps s0 s) : Keeps s0 (s.endRow x0 x1 x2) := by
  delta State.endRow
  extract_lets +onlyGivenNames y1
  clear_value y1
  extract_lets +onlyGivenNames y2
  clear_value y2
  extract_lets +onlyGivenNames y3
  clear_value y3
  extract_lets +onlyGivenNames y4
  clear_value y4
  extract_lets +onlyGivenNames y5
  clear_value y5
  extract_lets +onlyGivenNames y6
  clear_value y6
  extract_lets +onlyGivenNames y7
  clear_value y7
  extract_lets +onlyGivenNames y8
  clear_value y8
  extract_lets +onlyGivenNames y9
  clear_value y9
  extract_lets +onlyGivenNames y10
  clear_value y10
  extract_lets +onlyGivenNames y11
  clear_value y11
  extract_lets +onlyGivenNames y12
  have h12 : Keeps s0 y12 := by
    unfold y12
    refine accWrite_keeps ?_
    refine passN_keeps ?_
    exact h
  clear_value y12
  extract_lets +onlyGivenNames y13
  have h13 : Keeps s0 y13 := by
    unfold y13
    refine putHead_keeps ?_
    exact h12
  clear_value y13
  refine Keeps.ite ?_ ?_
  · refine putStats_keeps ?_
    exact h13
  · exact h13

theorem endTile_keeps {x0} {x1} (h : Keeps s0 s) : Keeps s0 (s.endTile x0 x1) := by
  delta State.endTile
  extract_lets +onlyGivenNames y1
  clear_value y1
  split
  · rename_i e2a e2b e2c e2d
    extract_lets +onlyGivenNames y3
    clear_value y3
    extract_lets +onlyGivenNames y4
    clear_value y4
    extract_lets +onlyGivenNames y5
    have h5 : ∀ z5a z5b z5c z5d z5e, Keeps s0 z5a → Keeps s0 (y5 z5a z5b z5c z5d z5e) := by
      unfold y5
      intro z6a z6b z6c z6d z6e h6
      refine putHead_keeps ?_
      exact h6
    clear_value y5
    split
    · rename_i e7a e7b
      refine Keeps.foldl _ ?_ ?_
      · exact h
      · intro z8a z8b h8
        refine endRow_keeps ?_
        exact h8
    · rename_i e9a e9b
      refine Keeps.foldl _ ?_ ?_
      · exact h
      · intro z10a z10b h10
        refine h5 _ _ _ _ _ ?_
        exact h10
    · rename_i e11a e11b
      extract_lets +onlyGivenNames y12
      clear_value y12
      refine Keeps.foldl _ ?_ ?_
      · exact h
      · intro z13a z13b h13
        refine h5 _ _ _ _ _ ?_
        refine h5 _ _ _ _ _ ?_
        exact h13
    · rename_i e14a e14b
      exact h

theorem closeTile_keeps {x0} {x1} {x2} (h : Keeps s0 s) : Keeps s0 (s.closeTile x0 x1 x2) := by
  delta State.closeTile
  split
  · rename_i e1a e1b e1c
    refine stopAt_keeps ?_
    exact h
  · rename_i e2a e2b
    extract_lets +onlyGivenNames y3
    have h3 : Keeps s0 y3 := by
      unfold y3
      refine endTile_keeps ?_
      exact h
    clear_value y3
    refine updateHead_keeps ?_
    exact h3

theorem sendPending_keeps {x0} (h : Keeps s0 s) : Keeps s0 (s.sendPending x0) := by
  delta State.sendPending
  refine Keeps.foldl _ ?_ ?_
  · exact h
  · intro z1a z1b h1
    extract_lets +onlyGivenNames y2
    clear_value y2
    refine Keeps.ite ?_ ?_
    · refine setMsix_keeps ?_
      exact h1
    · exact h1

theorem addSluice_keeps {x0} (h : Keeps s0 s) : Keeps s0 (s.addSluice x0) := by
  delta State.addSluice
  with_reducible refine Keeps.same ?_
  exact h

theorem hint_keeps {x0} {x1} {x2} (h : Keeps s0 s) : Keeps s0 (s.hint x0 x1 x2) := by
  delta State.hint
  extract_lets +onlyGivenNames y1
  clear_value y1
  refine Keeps.ite ?_ ?_
  · extract_lets +onlyGivenNames y2
    clear_value y2
    refine setAt_keeps ?_
    exact h
  · refine addSluice_keeps ?_
    exact h

theorem emulate_keeps {x0} {x1} (h : Keeps s0 s) : Keeps s0 (s.emulate x0 x1) := by
  delta State.emulate
  extract_lets +onlyGivenNames y1
  clear_value y1
  extract_lets +onlyGivenNames y2
  clear_value y2
  refine Keeps.ite ?_ ?_
  · exact h
  · extract_lets +onlyGivenNames y3
    clear_value y3
    refine setJob_keeps ?_
    refine coreEvent_keeps ?_
    exact h

theorem tierHint_keeps {x0} {x1} {x2} (h : Keeps s0 s) : Keeps s0 (s.tierHint x0 x1 x2) := by
  delta State.tierHint
  refine run_keeps ?_ ?_
  · exact h
  · intro z1a h1
    extract_lets +onlyGivenNames y2
    clear_value y2
    extract_lets +onlyGivenNames y3
    clear_value y3
    extract_lets +onlyGivenNames y4
    have h4 : Keeps s0 y4 := by
      unfold y4
      refine Keeps.foldl _ ?_ ?_
      · exact h1
      · intro z5a z5b h5
        refine hint_keeps ?_
        exact h5
    clear_value y4
    extract_lets +onlyGivenNames y6
    have h6 : Keeps s0 y6 := by
      unfold y6
      refine Keeps.ite ?_ ?_
      · refine emulate_keeps ?_
        exact h4
      · exact h4
    clear_value y6
    refine setAt_keeps ?_
    exact h6

theorem freshCore_keeps {x0} (h : Keeps s0 s) : Keeps s0 (s.freshCore x0) := by
  delta State.freshCore
  refine setCore_keeps ?_
  exact h

theorem resetRegion_keeps {r} (h : Keeps s0 s) : Keeps s0 (s.resetRegion r) := by
  unfold State.resetRegion
  exact (setRegion_keeps (Keeps.foldl _ h fun t x ht => freshCore_keeps ht)).same

theorem clearOff_keeps {x0} {x1} {x2} {x3} (h : Keeps s0 s) : Keeps s0 (s.clearOff x0 x1 x2 x3) := by
  delta State.clearOff
  extract_lets +onlyGivenNames y1
  clear_value y1
  extract_lets +onlyGivenNames y2
  clear_value y2
  extract_lets +onlyGivenNames y3
  clear_value y3
  refine Keeps.ite ?_ ?_
  · exact h
  · refine Keeps.ite ?_ ?_
    · refine releaseEngines_keeps ?_
      refine freeSlot_keeps ?_
      exact h
    · refine Keeps.ite ?_ ?_
      · refine saveTask_keeps ?_
        exact h
      · extract_lets +onlyGivenNames y4
        have h4 : Keeps s0 y4 := by
          unfold y4
          refine moveOff_keeps ?_
          exact h
        clear_value y4
        refine Keeps.ite ?_ ?_
        · refine releaseEngines_keeps ?_
          refine freeSlot_keeps ?_
          exact h4
        · exact h4

theorem seat_keeps {x0} {x1} {x2} {x3} {x4} {x5} {x6} (h : Keeps s0 s) : Keeps s0 (s.seat x0 x1 x2 x3 x4 x5 x6) := by
  delta State.seat
  extract_lets +onlyGivenNames y1
  clear_value y1
  extract_lets +onlyGivenNames y2
  clear_value y2
  extract_lets +onlyGivenNames y3
  clear_value y3
  split
  · rename_i e4a e4b e4c e4d
    extract_lets +onlyGivenNames y5
    clear_value y5
    extract_lets +onlyGivenNames y6
    have h6 : Keeps s0 y6 := by
      unfold y6
      refine setAllot_keeps ?_
      exact h
    clear_value y6
    extract_lets +onlyGivenNames y7
    clear_value y7
    extract_lets +onlyGivenNames y8
    clear_value y8
    extract_lets +onlyGivenNames y9
    clear_value y9
    extract_lets +onlyGivenNames y10
    clear_value y10
    extract_lets +onlyGivenNames y11
    clear_value y11
    extract_lets +onlyGivenNames y12
    have h12 : Keeps s0 y12 := by
      unfold y12
      split
      · rename_i e13a e13b
        refine setCore_keeps ?_
        exact h6
      · rename_i e14a e14b e14c
        refine setCore_keeps ?_
        exact h6
    clear_value y12
    extract_lets +onlyGivenNames y15
    have h15 : Keeps s0 y15 := by
      unfold y15
      refine setJob_keeps ?_
      exact h12
    clear_value y15
    extract_lets +onlyGivenNames y16
    have h16 : Keeps s0 y16 := by
      unfold y16
      refine Keeps.foldl _ ?_ ?_
      · exact h15
      · intro z17a z17b h17
        refine postClaim_keeps ?_
        exact h17
    clear_value y16
    split
    · rename_i e18a e18b e18c
      refine post_keeps ?_
      exact h16
    · rename_i e19a e19b
      exact h16

theorem seatAll_keeps {b xs} (h : Keeps s0 s) (e : s.seatAll b xs = some t) : Keeps s0 t := by
  induction xs generalizing s with
  | nil => cases e; exact h
  | cons x xs ih =>
    unfold State.seatAll at e
    dsimp only at e
    split at e
    · cases e
    · exact ih (seat_keeps h) e

theorem placeBatch_keeps {b} (h : Keeps s0 s) (e : s.placeBatch b = some t) : Keeps s0 t := by
  unfold State.placeBatch at e
  dsimp only at e
  split at e
  · cases e
  · exact seatAll_keeps h e

theorem tryPlace_keeps {c g k} (h : Keeps s0 s) : Keeps s0 (s.tryPlace c g k) := by
  unfold State.tryPlace
  split
  · exact h
  · cases e : s.placeBatch _ with
    | none => exact h
    | some t => exact placeBatch_keeps h e

theorem emptyCore_keeps {x0} {x1} {x2} (h : Keeps s0 s) : Keeps s0 (s.emptyCore x0 x1 x2) := by
  delta State.emptyCore
  extract_lets +onlyGivenNames y1
  clear_value y1
  extract_lets +onlyGivenNames y2
  have h2 : Keeps s0 y2 := by
    unfold y2
    refine Keeps.foldl _ ?_ ?_
    · exact h
    · intro z3a z3b h3
      refine clearOff_keeps ?_
      exact h3
  clear_value y2
  refine Keeps.foldl _ ?_ ?_
  · exact h2
  · intro z4a z4b h4
    refine Keeps.ite ?_ ?_
    · refine tryPlace_keeps ?_
      exact h4
    · exact h4

theorem emptyRegion_keeps {x0} {x1} {x2} (h : Keeps s0 s) : Keeps s0 (s.emptyRegion x0 x1 x2) := by
  delta State.emptyRegion
  refine Keeps.foldl _ ?_ ?_
  · refine setRegion_keeps ?_
    exact h
  · intro z1a z1b h1
    refine emptyCore_keeps ?_
    exact h1

theorem stopSluices_keeps {x0} (h : Keeps s0 s) : Keeps s0 (s.stopSluices x0) := by
  delta State.stopSluices
  refine Keeps.foldl _ ?_ ?_
  · exact h
  · intro z1a z1b h1
    extract_lets +onlyGivenNames y2
    clear_value y2
    refine Keeps.ite ?_ ?_
    · extract_lets +onlyGivenNames y3
      clear_value y3
      extract_lets +onlyGivenNames y4
      have h4 : Keeps s0 y4 := by
        unfold y4
        refine setHome_keeps ?_
        exact h1
      clear_value y4
      refine settleFlips_keeps ?_
      refine setSluice_keeps ?_
      refine releaseHeld_keeps ?_
      exact h4
    · exact h1

theorem setDie_keeps {x0} {x1} (h : Keeps s0 s) : Keeps s0 (s.setDie x0 x1) := by
  delta State.setDie
  with_reducible refine Keeps.same ?_
  exact h

theorem stopMedia_keeps {x0} (h : Keeps s0 s) : Keeps s0 (s.stopMedia x0) := by
  delta State.stopMedia
  extract_lets +onlyGivenNames y1
  have h1 : Keeps s0 y1 := by
    unfold y1
    refine Keeps.foldl _ ?_ ?_
    · exact h
    · intro z2a z2b h2
      refine Keeps.ite ?_ ?_
      · refine tearEnc_keeps ?_
        exact h2
      · exact h2
  clear_value y1
  refine Keeps.foldl _ ?_ ?_
  · exact h1
  · intro z3a z3b h3
    extract_lets +onlyGivenNames y4
    clear_value y4
    refine Keeps.ite ?_ ?_
    · refine setBq_keeps ?_
      exact h3
    · exact h3

theorem stopLinks_keeps {x0} (h : Keeps s0 s) : Keeps s0 (s.stopLinks x0) := by
  delta State.stopLinks
  extract_lets +onlyGivenNames y1
  have h1 : Keeps s0 y1 := by
    unfold y1
    refine Keeps.foldl _ ?_ ?_
    · exact h
    · intro z2a z2b h2
      refine collFail_keeps ?_
      exact h2
  clear_value y1
  refine Keeps.foldl _ ?_ ?_
  · exact h1
  · intro z3a z3b h3
    extract_lets +onlyGivenNames y4
    clear_value y4
    refine setLink_keeps ?_
    exact h3

theorem freshPages_keeps {x0} (h : Keeps s0 s) : Keeps s0 (s.freshPages x0) := by
  delta State.freshPages
  split
  · rename_i e1a e1b e1c e1d
    split
    · rename_i e2a e2b e2c e2d
      extract_lets +onlyGivenNames y3
      clear_value y3
      extract_lets +onlyGivenNames y4
      have h4 : Keeps s0 y4 := by
        unfold y4
        with_reducible refine Keeps.same ?_
        exact h
      clear_value y4
      refine Keeps.ite ?_ ?_
      · with_reducible refine Keeps.same ?_
        exact h4
      · exact h4

theorem freshLanterns_keeps {x0} (h : Keeps s0 s) : Keeps s0 (s.freshLanterns x0) := by
  delta State.freshLanterns
  refine Keeps.foldl _ ?_ ?_
  · exact h
  · intro z1a z1b h1
    with_reducible refine Keeps.same ?_
    exact h1

theorem startDieReset_keeps {x0} (h : Keeps s0 s) : Keeps s0 (s.startDieReset x0) := by
  delta State.startDieReset
  extract_lets +onlyGivenNames y1
  clear_value y1
  refine Keeps.ite ?_ ?_
  · exact h
  · extract_lets +onlyGivenNames y2
    have h2 : Keeps s0 y2 := by
      unfold y2
      refine Keeps.ite ?_ ?_
      · refine stopSluices_keeps ?_
        exact h
      · exact h
    clear_value y2
    extract_lets +onlyGivenNames y3
    have h3 : Keeps s0 y3 := by
      unfold y3
      refine setDie_keeps ?_
      exact h2
    clear_value y3
    extract_lets +onlyGivenNames y4
    have h4 : Keeps s0 y4 := by
      unfold y4
      refine Keeps.ite ?_ ?_
      · refine resetRegion_keeps ?_
        refine resetRegion_keeps ?_
        refine emptyRegion_keeps ?_
        refine emptyRegion_keeps ?_
        exact h3
      · refine Keeps.ite ?_ ?_
        · refine stopMedia_keeps ?_
          exact h3
        · refine Keeps.ite ?_ ?_
          · refine stopLinks_keeps ?_
            exact h3
          · exact h3
    clear_value y4
    extract_lets +onlyGivenNames y5
    have h5 : Keeps s0 y5 := by
      unfold y5
      refine Keeps.ite ?_ ?_
      · exact h4
      · refine freshPages_keeps ?_
        exact h4
    clear_value y5
    refine freshLanterns_keeps ?_
    exact h5

theorem contain_keeps {x0} (h : Keeps s0 s) : Keeps s0 (s.contain x0) := by
  delta State.contain
  extract_lets +onlyGivenNames y1
  have h1 : Keeps s0 y1 := by
    unfold y1
    refine lanternEvent_keeps ?_
    exact h
  clear_value y1
  refine Keeps.ite ?_ ?_
  · refine resetRegion_keeps ?_
    refine emptyRegion_keeps ?_
    exact h1
  · refine Keeps.ite ?_ ?_
    · refine startDieReset_keeps ?_
      exact h1
    · refine warmReset_keeps ?_
      exact h1

theorem countEscapes_keeps {x0} {x1} (h : Keeps s0 s) : Keeps s0 (s.countEscapes x0 x1) := by
  delta State.countEscapes
  extract_lets +onlyGivenNames y1
  clear_value y1
  refine Keeps.ite ?_ ?_
  · refine count_keeps ?_
    exact h
  · extract_lets +onlyGivenNames y2
    clear_value y2
    refine setJob_keeps ?_
    exact h

theorem collFinish_keeps {x0} {x1} {x2} (h : Keeps s0 s) : Keeps s0 (s.collFinish x0 x1 x2) := by
  delta State.collFinish
  extract_lets +onlyGivenNames y1
  clear_value y1
  extract_lets +onlyGivenNames y2
  clear_value y2
  extract_lets +onlyGivenNames y3
  clear_value y3
  extract_lets +onlyGivenNames y4
  clear_value y4
  extract_lets +onlyGivenNames y5
  clear_value y5
  extract_lets +onlyGivenNames y6
  clear_value y6
  extract_lets +onlyGivenNames y7
  clear_value y7
  extract_lets +onlyGivenNames y8
  clear_value y8
  extract_lets +onlyGivenNames y9
  clear_value y9
  split
  · rename_i e10a e10b
    split
    · rename_i e11a e11b e11c e11d
      refine faultJob_keeps ?_
      refine post_keeps ?_
      refine dropColl_keeps ?_
      exact h
  · rename_i e12a e12b
    split
    · rename_i e13a e13b e13c
      refine setDike_keeps ?_
      exact h
    · rename_i e14a e14b
      extract_lets +onlyGivenNames y15
      have h15 : Keeps s0 y15 := by
        unfold y15
        refine Keeps.foldl _ ?_ ?_
        · refine spend_keeps ?_
          exact h
        · intro z16a z16b h16
          refine write_keeps ?_
          exact h16
      clear_value y15
      extract_lets +onlyGivenNames y17
      have h17 : Keeps s0 y17 := by
        unfold y17
        refine dropColl_keeps ?_
        refine countEscapes_keeps ?_
        exact h15
      clear_value y17
      split
      · rename_i e18a e18b e18c
        refine semPost1_keeps ?_
        exact h17
      · rename_i e19a e19b
        exact h17

theorem moveStripe_keeps {c n k} (h : Keeps s0 s) : Keeps s0 (s.moveStripe c n k) := by
  induction n generalizing k with
  | zero => exact h
  | succ n ih =>
    unfold State.moveStripe
    dsimp only
    repeat' (first | with_reducible assumption | with_reducible apply ih | with_reducible apply seat_keeps | with_reducible apply saveTask_keeps | split)

theorem putLanes_keeps {x0} {x1} (h : Keeps s0 s) : Keeps s0 (s.putLanes x0 x1) := by
  delta State.putLanes
  refine Keeps.foldl _ ?_ ?_
  · exact h
  · intro z1a z1b h1
    refine bufWrite_keeps ?_
    exact h1

theorem semAdd_keeps {x0} {x1} {x2} {x3} (h : Keeps s0 s) : Keeps s0 (s.semAdd x0 x1 x2 x3) := by
  delta State.semAdd
  extract_lets +onlyGivenNames y1
  clear_value y1
  refine Keeps.ite ?_ ?_
  · exact h
  · refine Keeps.ite ?_ ?_
    · refine semValue_keeps ?_
      exact h
    · refine Keeps.ite ?_ ?_
      · refine semValue_keeps ?_
        exact h
      · refine instrFault_keeps ?_
        exact h

theorem linkEvent_keeps {x0} {x1} {x2} {x3} (h : Keeps s0 s) : Keeps s0 (s.linkEvent x0 x1 x2 x3) := by
  delta State.linkEvent
  extract_lets +onlyGivenNames y1
  clear_value y1
  refine tick_keeps ?_
  refine post_keeps ?_
  exact h

theorem recalStart_keeps {x0} (h : Keeps s0 s) : Keeps s0 (s.recalStart x0) := by
  delta State.recalStart
  extract_lets +onlyGivenNames y1
  clear_value y1
  refine Keeps.ite ?_ ?_
  · exact h
  · refine Keeps.ite ?_ ?_
    · refine linkEvent_keeps ?_
      refine setLink_keeps ?_
      exact h
    · refine Keeps.ite ?_ ?_
      · exact h
      · refine Keeps.ite ?_ ?_
        · refine linkEvent_keeps ?_
          refine setLink_keeps ?_
          exact h
        · refine setLink_keeps ?_
          exact h

theorem jumpTo_keeps {x0} {x1} (h : Keeps s0 s) : Keeps s0 (s.jumpTo x0 x1) := by
  delta State.jumpTo
  extract_lets +onlyGivenNames y1
  have h1 : Keeps s0 y1 := by
    unfold y1
    refine advance_keeps ?_
    exact h
  clear_value y1
  refine setAt_keeps ?_
  exact h1

theorem transfer_keeps {x0} {x1} {x2} {x3} {x4} {x5} (h : Keeps s0 s) : Keeps s0 (s.transfer x0 x1 x2 x3 x4 x5) := by
  delta State.transfer
  refine issue_keeps ?_ ?_
  · exact h
  · intro z1a h1
    extract_lets +onlyGivenNames y2
    clear_value y2
    split
    · rename_i e3a e3b e3c
      refine stopAt_keeps ?_
      exact h1
    · rename_i e4a e4b
      split
      · rename_i e5a e5b
        refine advance_keeps ?_
        exact h1
      · rename_i e6a e6b e6c
        refine Keeps.ite ?_ ?_
        · refine instrFault_keeps ?_
          exact h1
        · extract_lets +onlyGivenNames y7
          have h7 : Keeps s0 y7 := by
            unfold y7
            refine Keeps.ite ?_ ?_
            · refine setAt_keeps ?_
              exact h1
            · exact h1
          clear_value y7
          refine jumpTo_keeps ?_
          exact h7

theorem restoreRefresh_keeps {r} (h : Keeps s0 s) : Keeps s0 (s.restoreRefresh r) := by
  unfold State.restoreRefresh
  dsimp only
  refine refreshEvent_keeps (refreshRecord_keeps ?_)
  split
  · exact h
  · split
    · exact h
    · refine putRcb_keeps (Keeps.foldl _ h fun t x ht => ?_)
      split
      · split
        · exact putEpoch_keeps ht
        · exact ht
      · exact ht

theorem unfence_keeps {x0} (h : Keeps s0 s) : Keeps s0 (s.unfence x0) := by
  delta State.unfence
  extract_lets +onlyGivenNames y1
  clear_value y1
  refine Keeps.ite ?_ ?_
  · with_reducible refine Keeps.same ?_
    exact h
  · refine Keeps.ite ?_ ?_
    · exact h
    · refine Keeps.ite ?_ ?_
      · with_reducible refine Keeps.same ?_
        exact h
      · extract_lets +onlyGivenNames y2
        clear_value y2
        extract_lets +onlyGivenNames y3
        have h3 : Keeps s0 y3 := by
          unfold y3
          refine setCore_keeps ?_
          exact h
        clear_value y3
        refine post_keeps ?_
        exact h3

theorem stopQueue_keeps {x0} (h : Keeps s0 s) : Keeps s0 (s.stopQueue x0) := by
  delta State.stopQueue
  extract_lets +onlyGivenNames y1
  clear_value y1
  refine Keeps.ite ?_ ?_
  · exact h
  · refine Keeps.ite ?_ ?_
    · refine setQueue_keeps ?_
      exact h
    · refine setQueue_keeps ?_
      exact h

theorem queueError_keeps {x0} {x1} {x2} (h : Keeps s0 s) : Keeps s0 (s.queueError x0 x1 x2) := by
  delta State.queueError
  extract_lets +onlyGivenNames y1
  clear_value y1
  refine post_keeps ?_
  refine stopQueue_keeps ?_
  refine setQueue_keeps ?_
  exact h

theorem sqTail_keeps {x0} {x1} (h : Keeps s0 s) : Keeps s0 (s.sqTail x0 x1) := by
  delta State.sqTail
  extract_lets +onlyGivenNames y1
  clear_value y1
  extract_lets +onlyGivenNames y2
  clear_value y2
  refine Keeps.ite ?_ ?_
  · exact h
  · refine Keeps.ite ?_ ?_
    · refine queueError_keeps ?_
      exact h
    · refine setQueue_keeps ?_
      exact h

theorem testFailed_keeps {x0} {x1} {x2} {x3} (h : Keeps s0 s) : Keeps s0 (s.testFailed x0 x1 x2 x3) := by
  delta State.testFailed
  refine post_keeps ?_
  exact h

theorem coreTested_keeps {x0} {x1} (h : Keeps s0 s) : Keeps s0 (s.coreTested x0 x1) := by
  delta State.coreTested
  extract_lets +onlyGivenNames y1
  have h1 : Keeps s0 y1 := by
    unfold y1
    refine Keeps.ite ?_ ?_
    · exact h
    · refine fenceCore_keeps ?_
      exact h
  clear_value y1
  extract_lets +onlyGivenNames y2
  clear_value y2
  extract_lets +onlyGivenNames y3
  clear_value y3
  extract_lets +onlyGivenNames y4
  clear_value y4
  extract_lets +onlyGivenNames y5
  clear_value y5
  extract_lets +onlyGivenNames y6
  have h6 : Keeps s0 y6 := by
    unfold y6
    refine setCore_keeps ?_
    exact h1
  clear_value y6
  refine Keeps.ite ?_ ?_
  · exact h6
  · refine testFailed_keeps ?_
    exact h6

theorem putAttn_keeps {x0} {x1} {x2} (h : Keeps s0 s) : Keeps s0 (s.putAttn x0 x1 x2) := by
  delta State.putAttn
  refine updateHead_keeps ?_
  exact h

theorem numberEarly_keeps (h : Keeps s0 s) : Keeps s0 (s.numberEarly) := by
  delta State.numberEarly
  refine Keeps.foldl _ ?_ ?_
  · refine setEv_keeps ?_
    exact h
  · intro z1a z1b h1
    split
    · rename_i e2a e2b
      refine numberEvent_keeps ?_
      exact h1
    · rename_i e3a e3b
      refine numberEvent_keeps ?_
      exact h1
    · rename_i e4a
      refine nextSeq_keeps ?_
      exact h1

theorem branch_keeps {x0} {x1} {x2} (h : Keeps s0 s) : Keeps s0 (s.branch x0 x1 x2) := by
  delta State.branch
  refine transfer_keeps ?_
  exact h

theorem nextExtent_keeps {x0} {x1} (h : Keeps s0 s) : Keeps s0 (s.nextExtent x0 x1) := by
  delta State.nextExtent
  extract_lets +onlyGivenNames y1
  have h1 : Keeps s0 y1 := by
    unfold y1
    refine setSluice_keeps ?_
    exact h
  clear_value y1
  refine Keeps.ite ?_ ?_
  · refine endSluice_keeps ?_
    exact h1
  · exact h1

theorem hostLimit_keeps {x0} (h : Keeps s0 s) : Keeps s0 (s.hostLimit x0) := by
  delta State.hostLimit
  extract_lets +onlyGivenNames y1
  clear_value y1
  refine setPower_keeps ?_
  exact h

theorem skipReverted_keeps (h : Keeps s0 s) : Keeps s0 (s.skipReverted) := by
  delta State.skipReverted
  refine Keeps.foldl _ ?_ ?_
  · exact h
  · intro z1a z1b h1
    extract_lets +onlyGivenNames y2
    clear_value y2
    refine Keeps.ite ?_ ?_
    · refine nextExtent_keeps ?_
      exact h1
    · exact h1

theorem loseDdr_keeps {b} (h : Keeps s0 s) : Keeps s0 (s.loseDdr b) := by
  unfold State.loseDdr
  extract_lets +onlyGivenNames s1 s2 s3
  have h1 : Keeps s0 s1 := Keeps.foldl _ h fun t x ht => by
    split
    · exact revertExtent_keeps ht
    · exact ht
  have h2 : Keeps s0 s2 := Keeps.foldl _ h1 fun t x ht => by
    split
    · exact setHome_keeps ht
    · exact ht
  have h3 : Keeps s0 s3 := settleFlips_keeps (skipReverted_keeps h2)
  exact ⟨h3.1, h3.2, h3.3⟩

theorem sramCorrected_keeps {x0} (h : Keeps s0 s) : Keeps s0 (s.sramCorrected x0) := by
  delta State.sramCorrected
  split
  · rename_i e1a e1b e1c e1d e1e
    extract_lets +onlyGivenNames y2
    clear_value y2
    extract_lets +onlyGivenNames y3
    clear_value y3
    extract_lets +onlyGivenNames y4
    have h4 : Keeps s0 y4 := by
      unfold y4
      refine Keeps.ite ?_ ?_
      · refine setCore_keeps ?_
        exact h
      · exact h
    clear_value y4
    refine corrected_keeps ?_
    exact h4

theorem stackSplitWrite_keeps {x0} (h : Keeps s0 s) : Keeps s0 (s.stackSplitWrite x0) := by
  delta State.stackSplitWrite
  extract_lets +onlyGivenNames y1
  clear_value y1
  refine Keeps.ite ?_ ?_
  · with_reducible refine Keeps.same ?_
    exact h
  · with_reducible refine Keeps.same ?_
    exact h

theorem writePkgId_keeps {x0} (h : Keeps s0 s) : Keeps s0 (s.writePkgId x0) := by
  delta State.writePkgId
  extract_lets +onlyGivenNames y1
  clear_value y1
  extract_lets +onlyGivenNames y2
  clear_value y2
  with_reducible refine Keeps.same ?_
  exact h

theorem vfPolderPut_keeps {x0} {x1} (h : Keeps s0 s) : Keeps s0 (s.vfPolderPut x0 x1) := by
  delta State.vfPolderPut
  extract_lets +onlyGivenNames y1
  clear_value y1
  with_reducible refine Keeps.same ?_
  exact h

theorem setTest_keeps {x0} {x1} (h : Keeps s0 s) : Keeps s0 (s.setTest x0 x1) := by
  delta State.setTest
  with_reducible refine Keeps.same ?_
  exact h

theorem closeTest_keeps {x0} (h : Keeps s0 s) : Keeps s0 (s.closeTest x0) := by
  delta State.closeTest
  extract_lets y1 y2
  exact Keeps.foldl _ (finishAll_keeps (setTest_keeps h)) fun _ _ h => Keeps.ite (resumeJob_keeps h) h

theorem endPass_keeps {x0} (h : Keeps s0 s) : Keeps s0 (s.endPass x0) := by
  delta State.endPass
  extract_lets y1 y2
  have h2 : Keeps s0 y2 := post_keeps h
  exact Keeps.ite (setTest_keeps h2) (closeTest_keeps h2)

theorem unitDone_keeps {x0} {x1} {x2} (h : Keeps s0 s) : Keeps s0 (s.unitDone x0 x1 x2) := by
  delta State.unitDone
  extract_lets y1 y2 y3 y4
  have h3 : Keeps s0 y3 := setTest_keeps h
  have h4 : Keeps s0 y4 := Keeps.ite (finishAll_keeps h3) h3
  exact Keeps.ite (endPass_keeps h4) (Keeps.ite (closeTest_keeps h4) h4)

theorem stopTest_keeps {x0} (h : Keeps s0 s) : Keeps s0 (s.stopTest x0) := by
  delta State.stopTest
  extract_lets +onlyGivenNames y1
  clear_value y1
  extract_lets +onlyGivenNames y2
  have h2 : Keeps s0 y2 := by
    unfold y2
    split
    · rename_i e3a e3b e3c e3d
      refine Keeps.ite ?_ ?_
      · refine unitDone_keeps ?_
        exact h
      · exact h
    · rename_i e4a e4b
      exact h
  clear_value y2
  extract_lets +onlyGivenNames y5
  clear_value y5
  extract_lets +onlyGivenNames y6
  have h6 : Keeps s0 y6 := by
    unfold y6
    refine fenceCore_keeps ?_
    refine setCore_keeps ?_
    exact h2
  clear_value y6
  extract_lets +onlyGivenNames y7
  clear_value y7
  refine setCore_keeps ?_
  exact h6

theorem fenceRequest_keeps {x0} (h : Keeps s0 s) : Keeps s0 (s.fenceRequest x0) := by
  delta State.fenceRequest
  refine Keeps.ite ?_ ?_
  · exact h
  · refine Keeps.ite ?_ ?_
    · refine stopTest_keeps ?_
      exact h
    · refine fenceCore_keeps ?_
      exact h

theorem fenceCmd_keeps {x0} (h : Keeps s0 s) : Keeps s0 (s.fenceCmd x0) := by
  delta State.fenceCmd
  extract_lets +onlyGivenNames y1
  clear_value y1
  extract_lets +onlyGivenNames y2
  clear_value y2
  extract_lets +onlyGivenNames y3
  have h3 : Keeps s0 y3 := by
    unfold y3
    with_reducible refine Keeps.same ?_
    exact h
  clear_value y3
  refine Keeps.ite ?_ ?_
  · exact h3
  · refine Keeps.ite ?_ ?_
    · refine fenceRequest_keeps ?_
      exact h3
    · refine unfence_keeps ?_
      exact h3

theorem hubPutReg_keeps {x0} {x1} (h : Keeps s0 s) : Keeps s0 (s.hubPutReg x0 x1) := by
  delta State.hubPutReg
  extract_lets +onlyGivenNames y1
  clear_value y1
  split
  · rename_i e2a
    with_reducible refine Keeps.same ?_
    exact h
  · rename_i e3a
    refine stackSplitWrite_keeps ?_
    exact h
  · rename_i e4a
    refine writePkgId_keeps ?_
    exact h
  · rename_i e5a
    refine vfPolderPut_keeps ?_
    exact h
  · rename_i e6a
    refine vfPolderPut_keeps ?_
    exact h
  · rename_i e7a
    with_reducible refine Keeps.same ?_
    exact h
  · rename_i e8a
    refine fenceCmd_keeps ?_
    exact h
  · rename_i e9a
    refine setHost_keeps ?_
    exact h
  · rename_i e10a
    refine setHost_keeps ?_
    exact h
  · rename_i e11a e11b e11c e11d e11e e11f e11g e11h e11i e11j
    exact h

theorem eventSelect_keeps {x0} (h : Keeps s0 s) : Keeps s0 (s.eventSelect x0) := by
  delta State.eventSelect
  refine setEv_keeps ?_
  exact h

theorem eventCtrl_keeps {x0} (h : Keeps s0 s) : Keeps s0 (s.eventCtrl x0) := by
  delta State.eventCtrl
  refine Keeps.ite ?_ ?_
  · exact h
  · refine setEv_keeps ?_
    exact h

theorem eventPutReg_keeps {x0} {x1} (h : Keeps s0 s) : Keeps s0 (s.eventPutReg x0 x1) := by
  delta State.eventPutReg
  split
  · rename_i e1a
    refine eventSelect_keeps ?_
    exact h
  · rename_i e2a
    refine eventCtrl_keeps ?_
    exact h
  · rename_i e3a
    refine setEv_keeps ?_
    exact h
  · rename_i e4a
    refine setEv_keeps ?_
    exact h
  · rename_i e5a e5b e5c e5d e5e
    exact h

theorem reply_keeps {x0} {x1} {x2} (h : Keeps s0 s) : Keeps s0 (s.reply x0 x1 x2) := by
  delta State.reply
  refine setSec_keeps ?_
  exact h

theorem secGo_keeps {x0} (h : Keeps s0 s) : Keeps s0 (s.secGo x0) := by
  delta State.secGo
  extract_lets +onlyGivenNames y1
  clear_value y1
  extract_lets +onlyGivenNames y2
  clear_value y2
  extract_lets +onlyGivenNames y3
  clear_value y3
  extract_lets +onlyGivenNames y4
  have h4 : Keeps s0 y4 := by
    unfold y4
    refine setSec_keeps ?_
    exact h
  clear_value y4
  refine Keeps.ite ?_ ?_
  · exact h4
  · refine Keeps.ite ?_ ?_
    · refine reply_keeps ?_
      exact h4
    · refine Keeps.ite ?_ ?_
      · refine reply_keeps ?_
        exact h4
      · refine setSec_keeps ?_
        exact h4

theorem secPutReg_keeps {x0} {x1} (h : Keeps s0 s) : Keeps s0 (s.secPutReg x0 x1) := by
  delta State.secPutReg
  refine Keeps.ite ?_ ?_
  · refine setSec_keeps ?_
    exact h
  · refine Keeps.ite ?_ ?_
    · refine Keeps.ite ?_ ?_
      · refine setSec_keeps ?_
        exact h
      · refine Keeps.ite ?_ ?_
        · refine secGo_keeps ?_
          exact h
        · refine setSec_keeps ?_
          exact h
    · exact h

theorem ownerWrite_keeps {x0} {x1} (h : Keeps s0 s) : Keeps s0 (s.ownerWrite x0 x1) := by
  delta State.ownerWrite
  extract_lets +onlyGivenNames y1
  clear_value y1
  extract_lets +onlyGivenNames y2
  clear_value y2
  extract_lets +onlyGivenNames y3
  clear_value y3
  extract_lets +onlyGivenNames y4
  clear_value y4
  refine Keeps.ite ?_ ?_
  · exact h
  · refine setQueue_keeps ?_
    exact h

theorem startQueue_keeps {x0} (h : Keeps s0 s) : Keeps s0 (s.startQueue x0) := by
  delta State.startQueue
  extract_lets +onlyGivenNames y1
  clear_value y1
  extract_lets +onlyGivenNames y2
  clear_value y2
  refine Keeps.ite ?_ ?_
  · refine setQueue_keeps ?_
    exact h
  · refine setQueue_keeps ?_
    exact h

theorem queueWrite_keeps {x0} {x1} {x2} (h : Keeps s0 s) : Keeps s0 (s.queueWrite x0 x1 x2) := by
  delta State.queueWrite
  extract_lets +onlyGivenNames y1
  clear_value y1
  refine Keeps.ite ?_ ?_
  · refine setQueue_keeps ?_
    exact h
  · refine Keeps.ite ?_ ?_
    · refine Keeps.ite ?_ ?_
      · refine Keeps.ite ?_ ?_
        · exact h
        · refine stopQueue_keeps ?_
          refine setQueue_keeps ?_
          exact h
      · extract_lets +onlyGivenNames y2
        have h2 : Keeps s0 y2 := by
          unfold y2
          refine setQueue_keeps ?_
          exact h
        clear_value y2
        refine Keeps.ite ?_ ?_
        · refine startQueue_keeps ?_
          exact h2
        · exact h2
    · refine Keeps.ite ?_ ?_
      · exact h
      · split
        · rename_i e3a
          refine setQueue_keeps ?_
          exact h
        · rename_i e4a
          refine setQueue_keeps ?_
          exact h
        · rename_i e5a
          refine setQueue_keeps ?_
          exact h
        · rename_i e6a
          refine setQueue_keeps ?_
          exact h
        · rename_i e7a e7b e7c e7d e7e
          exact h

theorem ownWrite_keeps {x0} {x1} {x2} {x3} (h : Keeps s0 s) : Keeps s0 (s.ownWrite x0 x1 x2 x3) := by
  delta State.ownWrite
  split
  · rename_i e1a e1b e1c
    refine Keeps.ite ?_ ?_
    · refine queueWrite_keeps ?_
      exact h
    · exact h
  · rename_i e2a e2b
    exact h

theorem msixPutReg_keeps {x0} {x1} {x2} {x3} (h : Keeps s0 s) : Keeps s0 (s.msixPutReg x0 x1 x2 x3) := by
  delta State.msixPutReg
  refine Keeps.ite ?_ ?_
  · exact h
  · extract_lets +onlyGivenNames y1
    clear_value y1
    extract_lets +onlyGivenNames y2
    clear_value y2
    split
    · rename_i e3a e3b
      refine setMsix_keeps ?_
      exact h
    · rename_i e4a e4b
      refine setMsix_keeps ?_
      exact h
    · rename_i e5a e5b
      refine setMsix_keeps ?_
      exact h
    · rename_i e6a e6b e6c e6d
      refine sendPending_keeps ?_
      refine setMsix_keeps ?_
      exact h

theorem recalRequest_keeps {x0} (h : Keeps s0 s) : Keeps s0 (s.recalRequest x0) := by
  delta State.recalRequest
  extract_lets +onlyGivenNames y1
  clear_value y1
  refine Keeps.ite ?_ ?_
  · exact h
  · refine recalStart_keeps ?_
    refine setLink_keeps ?_
    exact h

theorem linkCtrl_keeps {x0} {x1} (h : Keeps s0 s) : Keeps s0 (s.linkCtrl x0 x1) := by
  delta State.linkCtrl
  extract_lets +onlyGivenNames y1
  refine Keeps.ite ?_ ?_
  · exact h
  · extract_lets +onlyGivenNames y2
    extract_lets +onlyGivenNames y3
    clear_value y3
    extract_lets +onlyGivenNames y4
    clear_value y4
    extract_lets +onlyGivenNames y5
    have h5 : Keeps s0 y5 := by
      unfold y5
      refine setLink_keeps ?_
      exact h
    clear_value y5
    extract_lets +onlyGivenNames y6
    have h6 : Keeps s0 y6 := by
      unfold y6
      refine Keeps.ite ?_ ?_
      · refine retrainRequest_keeps ?_
        exact h5
      · exact h5
    clear_value y6
    refine Keeps.ite ?_ ?_
    · refine recalRequest_keeps ?_
      exact h6
    · exact h6

theorem cqHead_keeps {x0} {x1} (h : Keeps s0 s) : Keeps s0 (s.cqHead x0 x1) := by
  delta State.cqHead
  extract_lets +onlyGivenNames y1
  clear_value y1
  extract_lets +onlyGivenNames y2
  clear_value y2
  refine Keeps.ite ?_ ?_
  · exact h
  · extract_lets +onlyGivenNames y3
    clear_value y3
    extract_lets +onlyGivenNames y4
    clear_value y4
    refine Keeps.ite ?_ ?_
    · refine queueError_keeps ?_
      exact h
    · refine setQueue_keeps ?_
      exact h

theorem doorbell_keeps {x0} {x1} {x2} {x3} (h : Keeps s0 s) : Keeps s0 (s.doorbell x0 x1 x2 x3) := by
  delta State.doorbell
  split
  · rename_i e1a e1b e1c
    refine Keeps.ite ?_ ?_
    · refine sqTail_keeps ?_
      exact h
    · refine Keeps.ite ?_ ?_
      · refine cqHead_keeps ?_
        exact h
      · exact h
  · rename_i e2a e2b
    exact h

theorem pfPut_keeps {x0} {x1} (h : Keeps s0 s) : Keeps s0 (s.pfPut x0 x1) := by
  delta State.pfPut
  refine Keeps.ite ?_ ?_
  · refine hubPutReg_keeps ?_
    exact h
  · refine Keeps.ite ?_ ?_
    · refine eventPutReg_keeps ?_
      exact h
    · refine Keeps.ite ?_ ?_
      · refine secPutReg_keeps ?_
        exact h
      · refine Keeps.ite ?_ ?_
        · exact h
        · refine Keeps.ite ?_ ?_
          · refine Keeps.ite ?_ ?_
            · refine ownerWrite_keeps ?_
              exact h
            · refine ownWrite_keeps ?_
              exact h
          · refine Keeps.ite ?_ ?_
            · refine msixPutReg_keeps ?_
              exact h
            · refine Keeps.ite ?_ ?_
              · refine polderPutReg_keeps ?_
                exact h
              · refine Keeps.ite ?_ ?_
                · refine Keeps.ite ?_ ?_
                  · refine linkCtrl_keeps ?_
                    exact h
                  · exact h
                · refine Keeps.ite ?_ ?_
                  · refine hostLimit_keeps ?_
                    exact h
                  · refine Keeps.ite ?_ ?_
                    · refine doorbell_keeps ?_
                      exact h
                    · exact h

theorem vfPut_keeps {x0} {x1} {x2} (h : Keeps s0 s) : Keeps s0 (s.vfPut x0 x1 x2) := by
  delta State.vfPut
  refine Keeps.ite ?_ ?_
  · exact h
  · refine Keeps.ite ?_ ?_
    · refine ownWrite_keeps ?_
      exact h
    · refine Keeps.ite ?_ ?_
      · refine msixPutReg_keeps ?_
        exact h
      · refine Keeps.ite ?_ ?_
        · refine doorbell_keeps ?_
          exact h
        · exact h

theorem putWord_keeps {x0} {x1} {x2} (h : Keeps s0 s) : Keeps s0 (s.putWord x0 x1 x2) := by
  delta State.putWord
  refine Keeps.ite ?_ ?_
  · refine pfPut_keeps ?_
    exact h
  · refine vfPut_keeps ?_
    exact h

theorem copyRun_keeps {x0} {x1} (h : Keeps s0 s) : Keeps s0 (s.copyRun x0 x1) := by
  delta State.copyRun
  extract_lets +onlyGivenNames y1
  clear_value y1
  extract_lets +onlyGivenNames y2
  clear_value y2
  extract_lets +onlyGivenNames y3
  clear_value y3
  extract_lets +onlyGivenNames y4
  clear_value y4
  split
  · rename_i e5a e5b e5c e5d
    split
    · rename_i e6a e6b e6c e6d
      extract_lets +onlyGivenNames y7
      clear_value y7
      extract_lets +onlyGivenNames y8
      clear_value y8
      split
      · rename_i e9a e9b e9c
        refine setDike_keeps ?_
        exact h
      · rename_i e10a e10b
        extract_lets +onlyGivenNames y11
        clear_value y11
        extract_lets +onlyGivenNames y12
        have h12 : Keeps s0 y12 := by
          unfold y12
          refine write_keeps ?_
          refine charge_keeps ?_
          exact h
        clear_value y12
        extract_lets +onlyGivenNames y13
        have h13 : Keeps s0 y13 := by
          unfold y13
          refine setSluice_keeps ?_
          refine countCopied_keeps ?_
          exact h12
        clear_value y13
        refine Keeps.ite ?_ ?_
        · refine endSluice_keeps ?_
          exact h13
        · split
          · rename_i e14a e14b e14c e14d
            extract_lets +onlyGivenNames y15
            clear_value y15
            extract_lets +onlyGivenNames y16
            have h16 : Keeps s0 y16 := by
              unfold y16
              refine post_keeps ?_
              exact h13
            clear_value y16
            refine faultJob_keeps ?_
            refine endSluice_keeps ?_
            exact h16

theorem putPieces_keeps {x0} {x1} {x2} (h : Keeps s0 s) : Keeps s0 (s.putPieces x0 x1 x2) := by
  delta State.putPieces
  refine Keeps.foldl _ ?_ ?_
  · exact h
  · intro z1a z1b h1
    refine Keeps.ite ?_ ?_
    · refine bufWrite_keeps ?_
      exact h1
    · refine devWrite_keeps ?_
      refine devSpend_keeps ?_
      exact h1

theorem jtagMem_keeps {x0} {x1} (h : Keeps s0 s) : Keeps s0 (s.jtagMem x0 x1) := by
  delta State.jtagMem
  split
  · rename_i e1a e1b e1c
    refine tick_keeps ?_
    refine reply_keeps ?_
    exact h
  · rename_i e2a e2b
    split
    · rename_i e3a e3b
      refine reply_keeps ?_
      refine write_keeps ?_
      exact h
    · rename_i e4a
      refine reply_keeps ?_
      exact h

theorem countFallback_keeps {x0} {x1} {x2} {x3} (h : Keeps s0 s) : Keeps s0 (s.countFallback x0 x1 x2 x3) := by
  delta State.countFallback
  extract_lets +onlyGivenNames y1
  clear_value y1
  refine Keeps.ite ?_ ?_
  · refine setAt_keeps ?_
    exact h
  · extract_lets +onlyGivenNames y2
    clear_value y2
    extract_lets +onlyGivenNames y3
    clear_value y3
    extract_lets +onlyGivenNames y4
    have h4 : Keeps s0 y4 := by
      unfold y4
      refine Keeps.ite ?_ ?_
      · refine setJob_keeps ?_
        exact h
      · exact h
    clear_value y4
    extract_lets +onlyGivenNames y5
    clear_value y5
    refine Keeps.ite ?_ ?_
    · extract_lets +onlyGivenNames y6
      have h6 : Keeps s0 y6 := by
        unfold y6
        refine setAt_keeps ?_
        exact h4
      clear_value y6
      extract_lets +onlyGivenNames y7
      clear_value y7
      extract_lets +onlyGivenNames y8
      clear_value y8
      extract_lets +onlyGivenNames y9
      have h9 : Keeps s0 y9 := by
        unfold y9
        refine postEachSecond_keeps ?_
        exact h6
      clear_value y9
      refine Keeps.ite ?_ ?_
      · refine setJob_keeps ?_
        exact h9
      · exact h9
    · refine setAt_keeps ?_
      exact h4

theorem startTile_keeps {a r} (h : Keeps s0 s) : Keeps s0 (s.startTile a r).1 := by
  unfold State.startTile
  dsimp only
  split
  · exact tick_keeps (Keeps.same (accWrite_keeps (countFallback_keeps (count_keeps h))))
  · exact accWrite_keeps h
  · exact accWrite_keeps h

theorem startTile_pair {a r} {y} (h : Keeps s0 s) (e : s.startTile a r = (t, y)) : Keeps s0 t := by
  have := startTile_keeps (h := h) (a := a) (r := r)
  rw [e] at this; exact this

theorem fwdStep_keeps {a r fk fp sk sv cols} (h : Keeps s0 s) : Keeps s0 (s.fwdStep a r fk fp sk sv cols).1 := by
  unfold State.fwdStep
  exact passN_keeps (accWrite_keeps h)

theorem fwdStep_pair {a r fk fp sk sv cols} {y} (h : Keeps s0 s) (e : s.fwdStep a r fk fp sk sv cols = (t, y)) :
    Keeps s0 t := by
  have := fwdStep_keeps (h := h) (a := a) (r := r) (fk := fk) (fp := fp) (sk := sk) (sv := sv) (cols := cols)
  rw [e] at this; exact this

theorem stat_keeps {x0} {x1} {x2} (h : Keeps s0 s) : Keeps s0 (s.stat x0 x1 x2) := by
  delta State.stat
  extract_lets +onlyGivenNames y1
  clear_value y1
  refine write_keeps ?_
  exact h

theorem collect_keeps {r n} (h : Keeps s0 s) : Keeps s0 (s.collect r n).1 := by
  induction n generalizing s r with
  | zero => exact h
  | succ n ih =>
    unfold State.collect
    dsimp only
    repeat' (first | exact h | exact ih (stat_keeps h) | exact ih h | split)

theorem collect_pair {r n} {y} (h : Keeps s0 s) (e : s.collect r n = (t, y)) : Keeps s0 t := by
  have := collect_keeps (h := h) (r := r) (n := n)
  rw [e] at this; exact this

theorem pageStep_keeps {a r p k} (h : Keeps s0 s) (e : s.pageStep a r p = .step t k) : Keeps s0 t := by
  unfold State.pageStep at e
  dsimp only at e
  repeat' (first | split at e | (cases e; done))
  all_goals (cases e; first | exact h | exact fwdStep_keeps (devSpend_keeps (devSpend_keeps h)))

theorem fwdNext_keeps {a r k} (h : Keeps s0 s) (e : s.fwdNext a r = .step t k) : Keeps s0 t := by
  unfold State.fwdNext at e
  dsimp only at e
  split at e
  · split at e
    · cases e
    · split at e
      · cases e
      · cases e
        exact tick_keeps (fwdStep_keeps h)
  · split at e
    · split at e
      · cases e; exact collect_keeps h
      · exact pageStep_keeps (collect_keeps h) e
    · split at e
      · cases e
      · split at e
        · cases e
        · cases e
          exact fwdStep_keeps (collect_keeps h)

theorem mergeRow_keeps {x0} {x1} (h : Keeps s0 s) : Keeps s0 (s.mergeRow x0 x1) := by
  delta State.mergeRow
  extract_lets +onlyGivenNames y1
  clear_value y1
  extract_lets +onlyGivenNames y2
  clear_value y2
  extract_lets +onlyGivenNames y3
  clear_value y3
  refine tick_keeps ?_
  refine Keeps.foldl _ ?_ ?_
  · exact h
  · intro z4a z4b h4
    extract_lets +onlyGivenNames y5
    clear_value y5
    split
    · rename_i e6a e6b e6c e6d
      split
      · rename_i e7a e7b e7c e7d
        extract_lets +onlyGivenNames y8
        clear_value y8
        extract_lets +onlyGivenNames y9
        clear_value y9
        extract_lets +onlyGivenNames y10
        clear_value y10
        split
        · rename_i e11a e11b e11c e11d e11e e11f
          extract_lets +onlyGivenNames y12
          have h12 : Keeps s0 y12 := by
            unfold y12
            refine putHead_keeps ?_
            refine passN_keeps ?_
            exact h4
          clear_value y12
          refine Keeps.ite ?_ ?_
          · refine putStats_keeps ?_
            exact h12
          · exact h12

theorem bwdQStep_keeps {a r} (h : Keeps s0 s) : Keeps s0 (s.bwdQStep a r).1 := by
  unfold State.bwdQStep
  exact passN_keeps (accWrite_keeps h)

theorem bwdQStep_pair {a r} {y} (h : Keeps s0 s) (e : s.bwdQStep a r = (t, y)) : Keeps s0 t := by
  have := bwdQStep_keeps (h := h) (a := a) (r := r)
  rw [e] at this; exact this

theorem bwdKvStep_keeps {a r} (h : Keeps s0 s) : Keeps s0 (s.bwdKvStep a r).1 := by
  unfold State.bwdKvStep
  exact passN_keeps (accWrite_keeps (accWrite_keeps h))

theorem bwdKvStep_pair {a r} {y} (h : Keeps s0 s) (e : s.bwdKvStep a r = (t, y)) : Keeps s0 t := by
  have := bwdKvStep_keeps (h := h) (a := a) (r := r)
  rw [e] at this; exact this

theorem attnNext_keeps {a r k} (h : Keeps s0 s) (e : s.attnNext a r = .step t k) : Keeps s0 t := by
  unfold State.attnNext at e
  split at e
  · exact fwdNext_keeps h e
  · split at e
    · cases e
    · cases e; exact mergeRow_keeps h
  · split at e
    · cases e
    · split at e
      · cases e
      · split at e
        rename_i hk
        cases e
        refine tick_keeps ?_
        split at hk
        · exact bwdQStep_pair h hk
        · exact bwdKvStep_pair h hk

theorem attnStep_keeps {a q r} (h : Keeps s0 s) : Keeps s0 (s.attnStep a q r) := by
  unfold State.attnStep
  extract_lets +onlyGivenNames start
  clear_value start
  split
  · exact stopAt_keeps h
  · split
    rename_i u x hp
    have hu : Keeps s0 u := by
      split at hp
      · cases hp; exact h
      · exact startTile_pair h hp
    split
    · exact updateHead_keeps hu
    · exact stopAt_keeps hu
    · exact closeTile_keeps hu
    · rename_i hn
      have hv := attnNext_keeps hu hn
      split
      · exact closeTile_keeps hv
      · exact updateHead_keeps hv

theorem freeFrame_keeps {x0} {x1} (h : Keeps s0 s) : Keeps s0 (s.freeFrame x0 x1) := by
  delta State.freeFrame
  extract_lets +onlyGivenNames y1
  clear_value y1
  refine setSet_keeps ?_
  refine setFrame_keeps ?_
  exact h

theorem semWait_keeps {x0} {x1} {x2} (h : Keeps s0 s) : Keeps s0 (s.semWait x0 x1 x2) := by
  delta State.semWait
  refine issue_keeps ?_ ?_
  · exact h
  · intro z1a h1
    extract_lets +onlyGivenNames y2
    clear_value y2
    extract_lets +onlyGivenNames y3
    clear_value y3
    extract_lets +onlyGivenNames y4
    clear_value y4
    extract_lets +onlyGivenNames y5
    clear_value y5
    split
    · rename_i e6a e6b e6c
      refine stopAt_keeps ?_
      exact h1
    · rename_i e7a e7b
      refine Keeps.ite ?_ ?_
      · extract_lets +onlyGivenNames y8
        have h8 : Keeps s0 y8 := by
          unfold y8
          refine Keeps.ite ?_ ?_
          · exact h1
          · refine setSem_keeps ?_
            exact h1
        clear_value y8
        refine advance_keeps ?_
        refine setAt_keeps ?_
        exact h8
      · extract_lets +onlyGivenNames y9
        clear_value y9
        extract_lets +onlyGivenNames y10
        have h10 : Keeps s0 y10 := by
          unfold y10
          refine setSem_keeps ?_
          exact h1
        clear_value y10
        extract_lets +onlyGivenNames y11
        have h11 : Keeps s0 y11 := by
          unfold y11
          refine advance_keeps ?_
          exact h10
        clear_value y11
        refine setAt_keeps ?_
        exact h11

theorem controlBq_keeps {x0} {x1} {x2} (h : Keeps s0 s) : Keeps s0 (s.controlBq x0 x1 x2) := by
  delta State.controlBq
  extract_lets +onlyGivenNames y1
  clear_value y1
  refine Keeps.ite ?_ ?_
  · refine finish_keeps ?_
    exact h
  · refine Keeps.ite ?_ ?_
    · refine cancelBq_keeps ?_
      exact h
    · extract_lets +onlyGivenNames y2
      clear_value y2
      refine finishAll_keeps ?_
      refine setBq_keeps ?_
      exact h

theorem countClip_keeps {x0} {x1} (h : Keeps s0 s) : Keeps s0 (s.countClip x0 x1) := by
  delta State.countClip
  refine Keeps.ite ?_ ?_
  · refine count_keeps ?_
    exact h
  · exact h

theorem fetchTimeout_keeps {x0} {x1} {x2} (h : Keeps s0 s) : Keeps s0 (s.fetchTimeout x0 x1 x2) := by
  delta State.fetchTimeout
  refine pageFault_keeps ?_
  exact h

theorem setGroup_keeps {x0} {x1} (h : Keeps s0 s) : Keeps s0 (s.setGroup x0 x1) := by
  delta State.setGroup
  with_reducible refine Keeps.same ?_
  exact h

theorem collIssue_keeps {x0} {x1} {x2} (h : Keeps s0 s) : Keeps s0 (s.collIssue x0 x1 x2) := by
  delta State.collIssue
  refine run_keeps ?_ ?_
  · exact h
  · intro z1a h1
    extract_lets +onlyGivenNames y2
    clear_value y2
    extract_lets +onlyGivenNames y3
    clear_value y3
    extract_lets +onlyGivenNames y4
    clear_value y4
    extract_lets +onlyGivenNames y5
    clear_value y5
    extract_lets +onlyGivenNames y6
    clear_value y6
    extract_lets +onlyGivenNames y7
    have h7 : Keeps s0 y7 := by
      unfold y7
      refine setGroup_keeps ?_
      refine passFree_keeps ?_
      refine devSpend_keeps ?_
      exact h1
    clear_value y7
    with_reducible refine Keeps.same ?_
    exact h7

theorem writeStats_keeps {x0} (h : Keeps s0 s) : Keeps s0 (s.writeStats x0) := by
  delta State.writeStats
  refine hubPut_keeps ?_
  exact h

theorem jobSuspended_keeps {x0} (h : Keeps s0 s) : Keeps s0 (s.jobSuspended x0) := by
  delta State.jobSuspended
  extract_lets +onlyGivenNames y1
  clear_value y1
  refine Keeps.ite ?_ ?_
  · exact h
  · split
    · rename_i e2a e2b e2c
      refine faultJob_keeps ?_
      exact h
    · rename_i e3a e3b
      extract_lets +onlyGivenNames y4
      have h4 : Keeps s0 y4 := by
        unfold y4
        refine Keeps.foldl _ ?_ ?_
        · exact h
        · intro z5a z5b h5
          refine Keeps.foldl _ ?_ ?_
          · exact h5
          · intro z6a z6b h6
            extract_lets +onlyGivenNames y7
            clear_value y7
            refine Keeps.ite ?_ ?_
            · refine saveTask_keeps ?_
              exact h6
            · exact h6
      clear_value y4
      extract_lets +onlyGivenNames y8
      have h8 : Keeps s0 y8 := by
        unfold y8
        refine writeStats_keeps ?_
        refine showRefresh_keeps ?_
        refine shiftOps_keeps ?_
        exact h4
      clear_value y8
      extract_lets +onlyGivenNames y9
      clear_value y9
      extract_lets +onlyGivenNames y10
      have h10 : Keeps s0 y10 := by
        unfold y10
        refine setJob_keeps ?_
        exact h8
      clear_value y10
      extract_lets +onlyGivenNames y11
      have h11 : Keeps s0 y11 := by
        unfold y11
        refine Keeps.foldl _ ?_ ?_
        · exact h10
        · intro z12a z12b h12
          refine finish_keeps ?_
          exact h12
      clear_value y11
      split
      · rename_i e13a e13b e13c
        refine finish_keeps ?_
        refine resumeJob_keeps ?_
        exact h11
      · rename_i e14a e14b
        exact h11

theorem startConv_keeps {x0} {x1} {x2} (h : Keeps s0 s) : Keeps s0 (s.startConv x0 x1 x2) := by
  delta State.startConv
  extract_lets +onlyGivenNames y1
  clear_value y1
  extract_lets +onlyGivenNames y2
  clear_value y2
  split
  · rename_i e3a e3b e3c e3d e3e e3f
    extract_lets +onlyGivenNames y4
    clear_value y4
    extract_lets +onlyGivenNames y5
    clear_value y5
    extract_lets +onlyGivenNames y6
    clear_value y6
    extract_lets +onlyGivenNames y7
    clear_value y7
    refine enqueue_keeps ?_
    refine count_keeps ?_
    exact h

theorem secEvent_keeps {x0} {x1} {x2} (h : Keeps s0 s) : Keeps s0 (s.secEvent x0 x1 x2) := by
  delta State.secEvent
  refine post_keeps ?_
  exact h

theorem activated_keeps {x0} (h : Keeps s0 s) : Keeps s0 (s.activated x0) := by
  delta State.activated
  refine secEvent_keeps ?_
  with_reducible refine Keeps.same ?_
  exact h

theorem sfuApply_keeps {x0} {x1} {x2} {x3} {x4} (h : Keeps s0 s) : Keeps s0 (s.sfuApply x0 x1 x2 x3 x4) := by
  delta State.sfuApply
  extract_lets +onlyGivenNames y1
  clear_value y1
  extract_lets +onlyGivenNames y2
  clear_value y2
  extract_lets +onlyGivenNames y3
  clear_value y3
  refine passN_keeps ?_
  refine count_keeps ?_
  refine setAt_keeps ?_
  exact h

theorem tileUpset_keeps {x0} {x1} {x2} (h : Keeps s0 s) : Keeps s0 (s.tileUpset x0 x1 x2) := by
  delta State.tileUpset
  split
  · rename_i e1a
    exact h
  · rename_i e2a e2b e2c
    extract_lets +onlyGivenNames y3
    have h3 : Keeps s0 y3 := by
      unfold y3
      refine mismatch_keeps ?_
      exact h
    clear_value y3
    refine Keeps.ite ?_ ?_
    · refine fenceCore_keeps ?_
      refine mismatch_keeps ?_
      exact h3
    · refine countTowardFence_keeps ?_
      exact h3
  · rename_i e4a e4b e4c
    extract_lets +onlyGivenNames y5
    have h5 : Keeps s0 y5 := by
      unfold y5
      refine mismatch_keeps ?_
      exact h
    clear_value y5
    refine Keeps.ite ?_ ?_
    · refine fenceCore_keeps ?_
      refine mismatch_keeps ?_
      exact h5
    · refine countTowardFence_keeps ?_
      exact h5

theorem spendRows_keeps {x0} {x1} {x2} {x3} {x4} {x5} {x6} {x7} (h : Keeps s0 s) :
    Keeps s0 (s.spendRows x0 x1 x2 x3 x4 x5 x6 x7) := by
  delta State.spendRows
  refine Keeps.ite ?_ ?_
  · exact h
  · refine Keeps.foldl _ ?_ ?_
    · exact h
    · intro z1a z1b h1
      refine devSpend_keeps ?_
      exact h1

theorem runTile_keeps {x0} {x1} {x2} {x3} (h : Keeps s0 s) : Keeps s0 (s.runTile x0 x1 x2 x3) := by
  delta State.runTile
  extract_lets +onlyGivenNames y1
  clear_value y1
  extract_lets +onlyGivenNames y2
  clear_value y2
  extract_lets +onlyGivenNames y3
  clear_value y3
  extract_lets +onlyGivenNames y4
  clear_value y4
  extract_lets +onlyGivenNames y5
  clear_value y5
  extract_lets +onlyGivenNames y6
  clear_value y6
  extract_lets +onlyGivenNames y7
  clear_value y7
  extract_lets +onlyGivenNames y8
  clear_value y8
  extract_lets +onlyGivenNames y9
  clear_value y9
  extract_lets +onlyGivenNames y10
  clear_value y10
  extract_lets +onlyGivenNames y11
  clear_value y11
  extract_lets +onlyGivenNames y12
  clear_value y12
  extract_lets +onlyGivenNames y13
  clear_value y13
  extract_lets +onlyGivenNames y14
  clear_value y14
  extract_lets +onlyGivenNames y15
  clear_value y15
  extract_lets +onlyGivenNames y16
  clear_value y16
  extract_lets +onlyGivenNames y17
  clear_value y17
  extract_lets +onlyGivenNames y18
  clear_value y18
  extract_lets +onlyGivenNames y19
  clear_value y19
  extract_lets +onlyGivenNames y20
  clear_value y20
  extract_lets +onlyGivenNames y21
  clear_value y21
  extract_lets +onlyGivenNames y22
  clear_value y22
  extract_lets +onlyGivenNames y23
  clear_value y23
  extract_lets +onlyGivenNames y24
  clear_value y24
  extract_lets +onlyGivenNames y25
  clear_value y25
  extract_lets +onlyGivenNames y26
  clear_value y26
  split
  · rename_i e27a e27b e27c
    refine accessFault_keeps ?_
    exact h
  · rename_i e28a e28b e28c e28d
    refine stopAt_keeps ?_
    exact h
  · rename_i e29a e29b
    refine Keeps.ite ?_ ?_
    · refine tileUpset_keeps ?_
      exact h
    · extract_lets +onlyGivenNames y30
      clear_value y30
      extract_lets +onlyGivenNames y31
      clear_value y31
      extract_lets +onlyGivenNames y32
      clear_value y32
      extract_lets +onlyGivenNames y33
      clear_value y33
      extract_lets +onlyGivenNames y34
      clear_value y34
      extract_lets +onlyGivenNames y35
      clear_value y35
      split
      · rename_i e36a e36b e36c e36d e36e e36f e36g e36h
        extract_lets +onlyGivenNames y37
        clear_value y37
        extract_lets +onlyGivenNames y38
        clear_value y38
        extract_lets +onlyGivenNames y39
        clear_value y39
        extract_lets +onlyGivenNames y40
        clear_value y40
        extract_lets +onlyGivenNames y41
        clear_value y41
        extract_lets +onlyGivenNames y42
        clear_value y42
        extract_lets +onlyGivenNames y43
        clear_value y43
        extract_lets +onlyGivenNames y44
        clear_value y44
        extract_lets +onlyGivenNames y45
        clear_value y45
        extract_lets +onlyGivenNames y46
        clear_value y46
        extract_lets +onlyGivenNames y47
        clear_value y47
        extract_lets +onlyGivenNames y48
        clear_value y48
        extract_lets +onlyGivenNames y49
        have h49 : Keeps s0 y49 := by
          unfold y49
          refine tick_keeps ?_
          refine tileUpset_keeps ?_
          exact h
        clear_value y49
        extract_lets +onlyGivenNames y50
        have h50 : Keeps s0 y50 := by
          unfold y50
          refine Keeps.ite ?_ ?_
          · refine spendRows_keeps ?_
            exact h49
          · exact h49
        clear_value y50
        extract_lets +onlyGivenNames y51
        have h51 : Keeps s0 y51 := by
          unfold y51
          refine Keeps.ite ?_ ?_
          · refine spendRows_keeps ?_
            exact h50
          · exact h50
        clear_value y51
        extract_lets +onlyGivenNames y52
        have h52 : Keeps s0 y52 := by
          unfold y52
          refine Keeps.ite ?_ ?_
          · refine bufWrite_keeps ?_
            exact h51
          · exact h51
        clear_value y52
        extract_lets +onlyGivenNames y53
        have h53 : Keeps s0 y53 := by
          unfold y53
          refine Keeps.ite ?_ ?_
          · refine bufWrite_keeps ?_
            exact h52
          · exact h52
        clear_value y53
        extract_lets +onlyGivenNames y54
        have h54 : Keeps s0 y54 := by
          unfold y54
          refine accWrite_keeps ?_
          exact h53
        clear_value y54
        extract_lets +onlyGivenNames y55
        have h55 : Keeps s0 y55 := by
          unfold y55
          refine count_keeps ?_
          exact h54
        clear_value y55
        extract_lets +onlyGivenNames y56
        have h56 : Keeps s0 y56 := by
          unfold y56
          refine countFallback_keeps ?_
          exact h55
        clear_value y56
        extract_lets +onlyGivenNames y57
        clear_value y57
        extract_lets +onlyGivenNames y58
        clear_value y58
        extract_lets +onlyGivenNames y59
        have h59 : ∀ z59a, Keeps s0 z59a → Keeps s0 (y59 z59a) := by
          unfold y59
          intro z60a h60
          refine updateHead_keeps ?_
          exact h60
        clear_value y59
        refine Keeps.ite ?_ ?_
        · extract_lets +onlyGivenNames y61
          clear_value y61
          extract_lets +onlyGivenNames y62
          clear_value y62
          split
          · rename_i e63a e63b e63c e63d
            split
            · rename_i e64a e64b e64c
              refine accessFault_keeps ?_
              exact h56
            · rename_i e65a e65b
              refine h59 _ ?_
              refine count_keeps ?_
              refine putPieces_keeps ?_
              exact h56
        · refine h59 _ ?_
          exact h56

theorem latch_keeps {x0} {x1} {x2} (h : Keeps s0 s) : Keeps s0 (s.latch x0 x1 x2) := by
  delta State.latch
  split
  · rename_i e1a
    refine setSec_keeps ?_
    exact h
  · rename_i e2a e2b
    exact h

theorem refuse_keeps {x0} {x1} (h : Keeps s0 s) : Keeps s0 (s.refuse x0 x1) := by
  delta State.refuse
  extract_lets +onlyGivenNames y1
  clear_value y1
  extract_lets +onlyGivenNames y2
  have h2 : Keeps s0 y2 := by
    unfold y2
    with_reducible refine Keeps.same ?_
    exact h
  clear_value y2
  refine postEachSecond_keeps ?_
  exact h2

theorem secRequest_keeps {x0} {x1} {x2} {x3} (h : Keeps s0 s) (h3 : ∀ t, Keeps s0 t → Keeps s0 (x3 t)) :
    Keeps s0 (s.secRequest x0 x1 x2 x3) := by
  delta State.secRequest
  refine Keeps.ite ?_ ?_
  · exact h
  · refine Keeps.ite ?_ ?_
    · refine h3 _ ?_
      refine latch_keeps ?_
      exact h
    · refine reply_keeps ?_
      refine refuse_keeps ?_
      refine latch_keeps ?_
      exact h

theorem vecSlotOp_keeps {x0} {x1} {x2} {x3} {x4} (h : Keeps s0 s) : Keeps s0 (s.vecSlotOp x0 x1 x2 x3 x4) := by
  delta State.vecSlotOp
  refine run_keeps ?_ ?_
  · exact h
  · intro z1a h1
    refine setAt_keeps ?_
    exact h1

theorem putToken_keeps {x0} {x1} {x2} {x3} {x4} {x5} {x6} (h : Keeps s0 s) :
    Keeps s0 (s.putToken x0 x1 x2 x3 x4 x5 x6) := by
  delta State.putToken
  extract_lets +onlyGivenNames y1
  clear_value y1
  extract_lets +onlyGivenNames y2
  clear_value y2
  extract_lets +onlyGivenNames y3
  clear_value y3
  extract_lets +onlyGivenNames y4
  clear_value y4
  extract_lets +onlyGivenNames y5
  clear_value y5
  extract_lets +onlyGivenNames y6
  clear_value y6
  extract_lets +onlyGivenNames y7
  clear_value y7
  extract_lets +onlyGivenNames y8
  have h8 : Keeps s0 y8 := by
    unfold y8
    refine Keeps.foldl _ ?_ ?_
    · exact h
    · intro z9a z9b h9
      refine write_keeps ?_
      refine write_keeps ?_
      exact h9
  clear_value y8
  extract_lets +onlyGivenNames y10
  clear_value y10
  refine setFrame_keeps ?_
  exact h8

theorem recoveryRom_keeps (h : Keeps s0 s) : Keeps s0 (s.recoveryRom) := by
  delta State.recoveryRom
  with_reducible refine Keeps.same ?_
  exact h

theorem decodeFrame_keeps {x0} {x1} {x2} (h : Keeps s0 s) : Keeps s0 (s.decodeFrame x0 x1 x2) := by
  delta State.decodeFrame
  extract_lets +onlyGivenNames y1
  clear_value y1
  split
  · rename_i e2a e2b
    exact h
  · rename_i e3a e3b e3c
    extract_lets +onlyGivenNames y4
    clear_value y4
    extract_lets +onlyGivenNames y5
    clear_value y5
    extract_lets +onlyGivenNames y6
    clear_value y6
    extract_lets +onlyGivenNames y7
    have h7 : Keeps s0 y7 := by
      unfold y7
      refine tick_keeps ?_
      refine bump_keeps ?_
      refine chargeCodec_keeps ?_
      exact h
    clear_value y7
    extract_lets +onlyGivenNames y8
    have h8 : Keeps s0 y8 := by
      unfold y8
      refine setBq_keeps ?_
      exact h7
    clear_value y8
    refine Keeps.ite ?_ ?_
    · exact h8
    · refine mediaEvent_keeps ?_
      exact h8

theorem updateBack_keeps {x0} (h : Keeps s0 s) : Keeps s0 (s.updateBack x0) := by
  delta State.updateBack
  split
  · rename_i e1a e1b
    exact h
  · rename_i e2a e2b e2c
    extract_lets +onlyGivenNames y3
    clear_value y3
    extract_lets +onlyGivenNames y4
    clear_value y4
    extract_lets +onlyGivenNames y5
    have h5 : Keeps s0 y5 := by
      unfold y5
      refine lanternEvent_keeps ?_
      refine setDep_keeps ?_
      exact h
    clear_value y5
    extract_lets +onlyGivenNames y6
    clear_value y6
    extract_lets +onlyGivenNames y7
    have h7 : Keeps s0 y7 := by
      unfold y7
      with_reducible refine Keeps.same ?_
      exact h5
    clear_value y7
    extract_lets +onlyGivenNames y8
    have h8 : Keeps s0 y8 := by
      unfold y8
      refine Keeps.foldl _ ?_ ?_
      · exact h7
      · intro z9a z9b h9
        refine setRunning_keeps ?_
        exact h9
    clear_value y8
    extract_lets +onlyGivenNames y10
    have h10 : Keeps s0 y10 := by
      unfold y10
      refine Keeps.foldl _ ?_ ?_
      · exact h8
      · intro z11a z11b h11
        refine tableRequest_keeps ?_
        exact h11
    clear_value y10
    refine Keeps.foldl _ ?_ ?_
    · exact h10
    · intro z12a z12b h12
      refine Keeps.ite ?_ ?_
      · refine resumeJob_keeps ?_
        exact h12
      · exact h12

theorem afterCold_keeps  (h : Keeps s0 s) : Keeps s0 (s.afterCold ) := by
  refine ⟨h.1, h.2, fun hm => ?_⟩
  simp only [State.afterCold]
  decide

theorem suspendJob_keeps {x0} {x1} (h : Keeps s0 s) : Keeps s0 (s.suspendJob x0 x1) := by
  delta State.suspendJob
  extract_lets +onlyGivenNames y1
  clear_value y1
  extract_lets +onlyGivenNames y2
  have h2 : Keeps s0 y2 := by
    unfold y2
    refine shiftOps_keeps ?_
    refine setJob_keeps ?_
    exact h
  clear_value y2
  refine Keeps.foldl _ ?_ ?_
  · exact h2
  · intro z3a z3b h3
    refine Keeps.foldl _ ?_ ?_
    · exact h3
    · intro z4a z4b h4
      extract_lets +onlyGivenNames y5
      clear_value y5
      refine Keeps.ite ?_ ?_
      · refine withdraw_keeps ?_
        refine setSlot_keeps ?_
        exact h4
      · exact h4

theorem suspendAll_keeps (h : Keeps s0 s) : Keeps s0 (s.suspendAll) := by
  delta State.suspendAll
  refine Keeps.foldl _ ?_ ?_
  · exact h
  · intro z1a z1b h1
    refine Keeps.ite ?_ ?_
    · refine suspendJob_keeps ?_
      exact h1
    · exact h1

theorem vec_keeps {x0} {x1} {x2} {x3} {x4} {x5} (h : Keeps s0 s) : Keeps s0 (s.vec x0 x1 x2 x3 x4 x5) := by
  delta State.vec
  refine run_keeps ?_ ?_
  · exact h
  · intro z1a h1
    refine setAt_keeps ?_
    exact h1

theorem vecCmp_keeps {x0} {x1} {x2} {x3} (h : Keeps s0 s) : Keeps s0 (s.vecCmp x0 x1 x2 x3) := by
  delta State.vecCmp
  refine vec_keeps ?_
  exact h

theorem reduce_keeps {x0} {x1} {x2} {x3} {x4} (h : Keeps s0 s) : Keeps s0 (s.reduce x0 x1 x2 x3 x4) := by
  delta State.reduce
  refine issue_keeps ?_ ?_
  · exact h
  · intro z1a h1
    extract_lets +onlyGivenNames y2
    clear_value y2
    split
    · rename_i e3a e3b e3c
      refine stopAt_keeps ?_
      exact h1
    · rename_i e4a e4b
      refine guarded_keeps ?_ ?_
      · exact h1
      · intro z5a h5
        extract_lets +onlyGivenNames y6
        clear_value y6
        extract_lets +onlyGivenNames y7
        clear_value y7
        refine tick_keeps ?_
        refine advance_keeps ?_
        refine setAt_keeps ?_
        exact h5

theorem argReduce_keeps {x0} {x1} {x2} (h : Keeps s0 s) : Keeps s0 (s.argReduce x0 x1 x2) := by
  delta State.argReduce
  refine reduce_keeps ?_
  exact h

theorem runRow_keeps {x0} {x1} {x2} (h : Keeps s0 s) : Keeps s0 (s.runRow x0 x1 x2) := by
  delta State.runRow
  split
  · rename_i e1a e1b e1c e1d
    extract_lets +onlyGivenNames y2
    clear_value y2
    extract_lets +onlyGivenNames y3
    clear_value y3
    extract_lets +onlyGivenNames y4
    clear_value y4
    extract_lets +onlyGivenNames y5
    clear_value y5
    extract_lets +onlyGivenNames y6
    have h6 : Keeps s0 y6 := by
      unfold y6
      refine bufWrite_keeps ?_
      exact h
    clear_value y6
    extract_lets +onlyGivenNames y7
    have h7 : Keeps s0 y7 := by
      unfold y7
      refine passN_keeps ?_
      refine count_keeps ?_
      refine putLanes_keeps ?_
      exact h6
    clear_value y7
    refine updateHead_keeps ?_
    exact h7

theorem rowUpset_keeps {x0} {x1} {x2} {x3} (h : Keeps s0 s) : Keeps s0 (s.rowUpset x0 x1 x2 x3) := by
  delta State.rowUpset
  extract_lets +onlyGivenNames y1
  clear_value y1
  extract_lets +onlyGivenNames y2
  clear_value y2
  extract_lets +onlyGivenNames y3
  have h3 : Keeps s0 y3 := by
    unfold y3
    refine mismatch_keeps ?_
    exact h
  clear_value y3
  refine Keeps.ite ?_ ?_
  · refine fenceCore_keeps ?_
    refine mismatch_keeps ?_
    exact h3
  · refine Keeps.ite ?_ ?_
    · extract_lets +onlyGivenNames y4
      clear_value y4
      extract_lets +onlyGivenNames y5
      have h5 : Keeps s0 y5 := by
        unfold y5
        refine setAt_keeps ?_
        exact h3
      clear_value y5
      refine countTowardFence_keeps ?_
      refine updateHead_keeps ?_
      exact h5
    · refine countTowardFence_keeps ?_
      refine runRow_keeps ?_
      exact h3

theorem pfOnly_keeps {x0} {x1} {x2} (h : Keeps s0 s) (h2 : ∀ t, Keeps s0 t → Keeps s0 (x2 t)) :
    Keeps s0 (s.pfOnly x0 x1 x2) := by
  delta State.pfOnly
  refine Keeps.ite ?_ ?_
  · refine h2 _ ?_
    exact h
  · refine finish_keeps ?_
    refine refuse_keeps ?_
    exact h

theorem controlRefresh_keeps {x0} {x1} {x2} {x3} (h : Keeps s0 s) : Keeps s0 (s.controlRefresh x0 x1 x2 x3) := by
  delta State.controlRefresh
  refine Keeps.ite ?_ ?_
  · refine finish_keeps ?_
    refine abandonRefresh_keeps ?_
    exact h
  · extract_lets +onlyGivenNames y1
    clear_value y1
    refine finishAll_keeps ?_
    refine showRefresh_keeps ?_
    refine setJob_keeps ?_
    exact h

theorem ringFetch_keeps {x0} {x1} {x2} (h : Keeps s0 s) : Keeps s0 (s.ringFetch x0 x1 x2) := by
  delta State.ringFetch
  extract_lets +onlyGivenNames y1
  clear_value y1
  extract_lets +onlyGivenNames y2
  clear_value y2
  extract_lets +onlyGivenNames y3
  clear_value y3
  extract_lets +onlyGivenNames y4
  clear_value y4
  extract_lets +onlyGivenNames y5
  have h5 : Keeps s0 y5 := by
    unfold y5
    refine Keeps.ite ?_ ?_
    · exact h
    · refine Keeps.ite ?_ ?_
      · refine setFrame_keeps ?_
        exact h
      · exact h
  clear_value y5
  extract_lets +onlyGivenNames y6
  have h6 : Keeps s0 y6 := by
    unfold y6
    refine setSet_keeps ?_
    exact h5
  clear_value y6
  extract_lets +onlyGivenNames y7
  clear_value y7
  refine addSluice_keeps ?_
  refine stat_keeps ?_
  exact h6

theorem regionReset_keeps {x0} (h : Keeps s0 s) : Keeps s0 (s.regionReset x0) := by
  delta State.regionReset
  refine Keeps.ite ?_ ?_
  · exact h
  · refine resetRegion_keeps ?_
    refine emptyRegion_keeps ?_
    exact h

theorem postRows_keeps {a b r rowEnd} (h : Keeps s0 s) : Keeps s0 (s.postRows a b r rowEnd).1 := by
  unfold State.postRows
  dsimp only
  repeat' (first | with_reducible assumption | with_reducible apply semAdd_keeps | split)

theorem postRows_pair {a b r rowEnd} {y} (h : Keeps s0 s) (e : s.postRows a b r rowEnd = (t, y)) : Keeps s0 t := by
  have := postRows_keeps (h := h) (a := a) (b := b) (r := r) (rowEnd := rowEnd)
  rw [e] at this; exact this

theorem runPass_keeps {x0} {x1} {x2} (h : Keeps s0 s) : Keeps s0 (s.runPass x0 x1 x2) := by
  delta State.runPass
  extract_lets +onlyGivenNames y1
  clear_value y1
  extract_lets +onlyGivenNames y2
  clear_value y2
  split
  · rename_i e3a e3b e3c e3d e3e e3f
    split
    · rename_i e4a e4b e4c
      refine stopAt_keeps ?_
      exact h
    · rename_i e5a e5b
      extract_lets +onlyGivenNames y6
      clear_value y6
      split
      · rename_i e7a e7b e7c e7d
        split
        · rename_i e8a e8b e8c
          refine stopAt_keeps ?_
          exact h
        · rename_i e9a e9b
          extract_lets +onlyGivenNames y10
          have h10 : Keeps s0 y10 := by
            unfold y10
            refine tick_keeps ?_
            refine passSpend_keeps ?_
            exact h
          clear_value y10
          extract_lets +onlyGivenNames y11
          clear_value y11
          extract_lets +onlyGivenNames y12
          have h12 : Keeps s0 y12 := by
            unfold y12
            refine Keeps.ite ?_ ?_
            · refine accWrite_keeps ?_
              exact h10
            · exact h10
          clear_value y12
          extract_lets +onlyGivenNames y13
          have h13 : Keeps s0 y13 := by
            unfold y13
            refine count_keeps ?_
            refine count_keeps ?_
            refine putPieces_keeps ?_
            exact h12
          clear_value y13
          extract_lets +onlyGivenNames y14
          have h14 : Keeps s0 y14 := by
            unfold y14
            refine Keeps.ite ?_ ?_
            · refine countFallback_keeps ?_
              exact h13
            · exact h13
          clear_value y14
          split
          · rename_i e15a e15b e15c e15d e15e
            split
            · rename_i e16a e16b e16c e16d
              have h17 := postRows_pair (by assumption) e16d
              refine updateHead_keeps ?_
              exact h17

theorem takeFrame_keeps {i} (h : Keeps s0 s) : Keeps s0 (s.takeFrame i).1 := by
  unfold State.takeFrame
  exact setFrame_keeps (setSet_keeps h)

theorem takeFrame_pair {i} {y} (h : Keeps s0 s) (e : s.takeFrame i = (t, y)) : Keeps s0 t := by
  have := takeFrame_keeps (h := h) (i := i)
  rw [e] at this; exact this

theorem setEntry_keeps {x0} {x1} {x2} (h : Keeps s0 s) : Keeps s0 (s.setEntry x0 x1 x2) := by
  delta State.setEntry
  refine write_keeps ?_
  exact h

theorem ownFrame_keeps {x0} {x1} (h : Keeps s0 s) : Keeps s0 (s.ownFrame x0 x1) := by
  delta State.ownFrame
  extract_lets +onlyGivenNames y1
  clear_value y1
  extract_lets +onlyGivenNames y2
  clear_value y2
  refine Keeps.ite ?_ ?_
  · split
    · rename_i e3a e3b e3c e3d
      have h4 := takeFrame_pair (by assumption) e3d
      refine setEntry_keeps ?_
      exact h4
  · extract_lets +onlyGivenNames y5
    clear_value y5
    refine Keeps.ite ?_ ?_
    · exact h
    · split
      · rename_i e6a e6b e6c e6d
        have h7 := takeFrame_pair (by assumption) e6d
        extract_lets +onlyGivenNames y8
        clear_value y8
        extract_lets +onlyGivenNames y9
        clear_value y9
        extract_lets +onlyGivenNames y10
        have h10 : Keeps s0 y10 := by
          unfold y10
          refine Keeps.foldl _ ?_ ?_
          · exact h7
          · intro z11a z11b h11
            refine write_keeps ?_
            exact h11
        clear_value y10
        extract_lets +onlyGivenNames y12
        have h12 : Keeps s0 y12 := by
          unfold y12
          refine setFrame_keeps ?_
          exact h10
        clear_value y12
        extract_lets +onlyGivenNames y13
        clear_value y13
        extract_lets +onlyGivenNames y14
        have h14 : Keeps s0 y14 := by
          unfold y14
          refine Keeps.ite ?_ ?_
          · exact h12
          · refine setFrame_keeps ?_
            exact h12
        clear_value y14
        refine stat_keeps ?_
        refine setEntry_keeps ?_
        exact h14

theorem releaseFlip_keeps {x0} {x1} {x2} (h : Keeps s0 s) : Keeps s0 (s.releaseFlip x0 x1 x2) := by
  delta State.releaseFlip
  split
  · rename_i e1a e1b e1c
    refine settleBarrier_keeps ?_
    exact h
  · rename_i e2a e2b
    exact h

theorem takeFront_keeps {x0} {x1} {x2} {x3} (h : Keeps s0 s) (h3 : ∀ t r e, Keeps s0 t → Keeps s0 (x3 t r e)) :
    Keeps s0 (s.takeFront x0 x1 x2 x3) := by
  delta State.takeFront
  split
  · exact h
  · exact queueError_keeps h
  · extract_lets +onlyGivenNames y1 y2 y3 y4 y5 y6 y7
    refine Keeps.ite h ?_
    exact Keeps.ite (setQueue_keeps (ringTouch_keeps h)) (h3 _ _ _ (setQueue_keeps (ringTouch_keeps h)))

theorem startHeld_keeps {x0} {x1} {x2} {x3} {x4} (h : Keeps s0 s) (h3 : ∀ t r e, Keeps s0 t → Keeps s0 (x4 t r e)) :
    Keeps s0 (s.startHeld x0 x1 x2 x3 x4) := by
  delta State.startHeld
  extract_lets y1
  exact Keeps.ite h (h3 _ _ _ (setQueue_keeps h))

theorem takeIf_keeps {x0} {x1} {x2} {x3} (h : Keeps s0 s) (h3 : ∀ t r e, Keeps s0 t → Keeps s0 (x3 t r e)) :
    Keeps s0 (s.takeIf x0 x1 x2 x3) := by
  delta State.takeIf
  split
  · exact startHeld_keeps h h3
  · exact takeFront_keeps h h3

theorem mainDown_keeps (h : Keeps s0 s) : Keeps s0 (s.mainDown) := by
  delta State.mainDown
  refine afterMainLoss_keeps ?_
  refine numberAll_keeps ?_
  exact h

theorem onTarget_keeps {x0} {x1} {x2} (h : Keeps s0 s) (h2 : ∀ t, Keeps s0 t → Keeps s0 (x2 t)) :
    Keeps s0 (s.onTarget x0 x1 x2) := by
  delta State.onTarget
  refine Keeps.ite ?_ ?_
  · refine finish_keeps ?_
    exact h
  · split
    · rename_i e1a e1b
      refine finish_keeps ?_
      exact h
    · rename_i e2a e2b e2c
      refine Keeps.ite ?_ ?_
      · refine finish_keeps ?_
        refine refuse_keeps ?_
        exact h
      · refine h2 _ ?_
        exact h

theorem coldRefreshes_keeps (h : Keeps s0 s) : Keeps s0 (s.coldRefreshes) := by
  delta State.coldRefreshes
  refine Keeps.foldl _ ?_ ?_
  · exact h
  · intro z1a z1b h1
    refine refreshEvent_keeps ?_
    refine refreshRecord_keeps ?_
    exact h1

theorem loseEntry_keeps {x} (h : Keeps s0 s) : Keeps s0 (s.loseEntry x) := by
  unfold State.loseEntry
  dsimp only
  refine post_keeps (skipReverted_keeps (settleFlips_keeps (setHome_keeps ?_)))
  refine h.withMem fun hm => ?_
  simp only [Mem.wf, Bool.and_eq_true] at hm ⊢
  simp only [hm, mapSet_wf, and_self]

theorem addRef_keeps {x0} {x1} {x2} (h : Keeps s0 s) : Keeps s0 (s.addRef x0 x1 x2) := by
  delta State.addRef
  extract_lets +onlyGivenNames y1
  clear_value y1
  extract_lets +onlyGivenNames y2
  clear_value y2
  refine Keeps.ite ?_ ?_
  · extract_lets +onlyGivenNames y3
    have h3 : Keeps s0 y3 := by
      unfold y3
      refine setFrame_keeps ?_
      exact h
    clear_value y3
    refine Keeps.ite ?_ ?_
    · exact h3
    · refine coreEvent_keeps ?_
      refine stat_keeps ?_
      exact h3
  · refine setFrame_keeps ?_
    exact h

theorem vecInt_keeps {x0} {x1} {x2} (h : Keeps s0 s) : Keeps s0 (s.vecInt x0 x1 x2) := by
  delta State.vecInt
  refine vec_keeps ?_
  exact h

theorem vecFp_keeps {x0} {x1} {x2} {x3} {x4} (h : Keeps s0 s) : Keeps s0 (s.vecFp x0 x1 x2 x3 x4) := by
  delta State.vecFp
  refine vec_keeps ?_
  exact h

theorem convCmdAt_keeps {x0} {x1} {x2} {x3} (h : Keeps s0 s) : Keeps s0 (s.convCmdAt x0 x1 x2 x3) := by
  delta State.convCmdAt
  refine run_keeps ?_ ?_
  · exact h
  · intro z1a h1
    extract_lets +onlyGivenNames y2
    clear_value y2
    extract_lets +onlyGivenNames y3
    clear_value y3
    extract_lets +onlyGivenNames y4
    clear_value y4
    refine startConv_keeps ?_
    refine passFree_keeps ?_
    refine devSpend_keeps ?_
    exact h1

theorem cancelEnc_keeps {x0} {x1} (h : Keeps s0 s) : Keeps s0 (s.cancelEnc x0 x1) := by
  delta State.cancelEnc
  extract_lets +onlyGivenNames y1
  clear_value y1
  extract_lets +onlyGivenNames y2
  have h2 : Keeps s0 y2 := by
    unfold y2
    split
    · rename_i e3a e3b e3c
      refine finish_keeps ?_
      exact h
    · rename_i e4a e4b
      exact h
  clear_value y2
  refine setEnc_keeps ?_
  exact h2

theorem controlEnc_keeps {x0} {x1} {x2} (h : Keeps s0 s) : Keeps s0 (s.controlEnc x0 x1 x2) := by
  delta State.controlEnc
  extract_lets +onlyGivenNames y1
  clear_value y1
  refine Keeps.ite ?_ ?_
  · refine finish_keeps ?_
    exact h
  · refine Keeps.ite ?_ ?_
    · refine cancelEnc_keeps ?_
      exact h
    · extract_lets +onlyGivenNames y2
      clear_value y2
      refine finishAll_keeps ?_
      refine setEnc_keeps ?_
      exact h

theorem vectorStore_keeps {x0} {x1} {x2} (h : Keeps s0 s) : Keeps s0 (s.vectorStore x0 x1 x2) := by
  delta State.vectorStore
  refine run_keeps ?_ ?_
  · exact h
  · intro z1a h1
    extract_lets +onlyGivenNames y2
    clear_value y2
    extract_lets +onlyGivenNames y3
    clear_value y3
    extract_lets +onlyGivenNames y4
    clear_value y4
    extract_lets +onlyGivenNames y5
    clear_value y5
    extract_lets +onlyGivenNames y6
    clear_value y6
    extract_lets +onlyGivenNames y7
    clear_value y7
    extract_lets +onlyGivenNames y8
    clear_value y8
    extract_lets +onlyGivenNames y9
    clear_value y9
    extract_lets +onlyGivenNames y10
    clear_value y10
    refine Keeps.ite ?_ ?_
    · refine countClip_keeps ?_
      exact h1
    · refine Keeps.ite ?_ ?_
      · extract_lets +onlyGivenNames y11
        clear_value y11
        refine countClip_keeps ?_
        refine bufWrite_keeps ?_
        exact h1
      · refine Keeps.ite ?_ ?_
        · extract_lets +onlyGivenNames y12
          clear_value y12
          refine countClip_keeps ?_
          refine count_keeps ?_
          refine bufWrite_keeps ?_
          exact h1
        · extract_lets +onlyGivenNames y13
          clear_value y13
          extract_lets +onlyGivenNames y14
          clear_value y14
          extract_lets +onlyGivenNames y15
          clear_value y15
          extract_lets +onlyGivenNames y16
          clear_value y16
          extract_lets +onlyGivenNames y17
          clear_value y17
          refine countClip_keeps ?_
          refine count_keeps ?_
          refine bufWrite_keeps ?_
          exact h1

theorem pageOp_keeps {a f c x} (h : Keeps s0 s) (hx : ∀ t, Keeps s0 t → Keeps s0 (x t).1) :
    Keeps s0 (s.pageOp a f c x) := by
  unfold State.pageOp
  refine run_keeps h fun t ht => ?_
  exact duePost_keeps (setAt_keeps (hx t ht))

theorem emulateTier_keeps {x0} {x1} (h : Keeps s0 s) : Keeps s0 (s.emulateTier x0 x1) := by
  delta State.emulateTier
  extract_lets +onlyGivenNames y1
  clear_value y1
  refine Keeps.ite ?_ ?_
  · split
    · rename_i e2a e2b e2c
      refine Keeps.ite ?_ ?_
      · refine emulate_keeps ?_
        exact h
      · exact h
    · rename_i e3a e3b
      exact h
  · refine Keeps.ite ?_ ?_
    · refine emulate_keeps ?_
      exact h
    · exact h

theorem scribble_keeps {x0} {x1} {x2} {x3} (h : Keeps s0 s) : Keeps s0 (s.scribble x0 x1 x2 x3) := by
  delta State.scribble
  extract_lets +onlyGivenNames y1
  clear_value y1
  extract_lets +onlyGivenNames y2
  have h2 : Keeps s0 y2 := by
    unfold y2
    refine bufWrite_keeps ?_
    exact h
  clear_value y2
  refine passN_keeps ?_
  refine accWrite_keeps ?_
  exact h2

theorem startAttn_keeps {x0} {x1} {x2} (h : Keeps s0 s) : Keeps s0 (s.startAttn x0 x1 x2) := by
  delta State.startAttn
  extract_lets +onlyGivenNames y1
  clear_value y1
  extract_lets +onlyGivenNames y2
  clear_value y2
  extract_lets +onlyGivenNames y3
  clear_value y3
  extract_lets +onlyGivenNames y4
  clear_value y4
  extract_lets +onlyGivenNames y5
  have h5 : Keeps s0 y5 := by
    unfold y5
    refine count_keeps ?_
    exact h
  clear_value y5
  extract_lets +onlyGivenNames y6
  have h6 : Keeps s0 y6 := by
    unfold y6
    refine Keeps.ite ?_ ?_
    · exact h5
    · refine scribble_keeps ?_
      exact h5
  clear_value y6
  refine enqueue_keeps ?_
  exact h6

theorem atomic_keeps {x0} {x1} {x2} {x3} (h : Keeps s0 s) : Keeps s0 (s.atomic x0 x1 x2 x3) := by
  delta State.atomic
  refine run_keeps ?_ ?_
  · exact h
  · intro z1a h1
    extract_lets +onlyGivenNames y2
    clear_value y2
    extract_lets +onlyGivenNames y3
    clear_value y3
    extract_lets +onlyGivenNames y4
    clear_value y4
    extract_lets +onlyGivenNames y5
    have h5 : Keeps s0 y5 := by
      unfold y5
      refine devWrite_keeps ?_
      refine passFree_keeps ?_
      refine devSpend_keeps ?_
      exact h1
    clear_value y5
    refine setAt_keeps ?_
    exact h5

theorem failWaiters_keeps {x0} (h : Keeps s0 s) : Keeps s0 (s.failWaiters x0) := by
  delta State.failWaiters
  refine Keeps.foldl _ ?_ ?_
  · exact h
  · intro z1a z1b h1
    refine Keeps.foldl _ ?_ ?_
    · exact h1
    · intro z2a z2b h2
      split
      · rename_i e3a e3b e3c e3d
        refine Keeps.ite ?_ ?_
        · refine instrFault_keeps ?_
          exact h2
        · exact h2
      · rename_i e4a e4b
        exact h2

theorem dieReset_keeps {x0} (h : Keeps s0 s) : Keeps s0 (s.dieReset x0) := by
  delta State.dieReset
  refine Keeps.ite ?_ ?_
  · refine warmReset_keeps ?_
    exact h
  · refine startDieReset_keeps ?_
    exact h

theorem answerReg_keeps {x0} (h : Keeps s0 s) : Keeps s0 (s.answerReg x0) := by
  delta State.answerReg
  refine setHost_keeps ?_
  exact h

theorem settleJobId_keeps {x0} (h : Keeps s0 s) : Keeps s0 (s.settleJobId x0) := by
  delta State.settleJobId
  refine Keeps.ite ?_ ?_
  · refine setJob_keeps ?_
    exact h
  · exact h

theorem pairMismatch_keeps (h : Keeps s0 s) : Keeps s0 (s.pairMismatch) := by
  delta State.pairMismatch
  extract_lets +onlyGivenNames y1
  clear_value y1
  extract_lets +onlyGivenNames y2
  clear_value y2
  extract_lets +onlyGivenNames y3
  have h3 : Keeps s0 y3 := by
    unfold y3
    refine setDep_keeps ?_
    exact h
  clear_value y3
  extract_lets +onlyGivenNames y4
  clear_value y4
  extract_lets +onlyGivenNames y5
  have h5 : Keeps s0 y5 := by
    unfold y5
    refine post_keeps ?_
    refine pairRestart_keeps ?_
    exact h3
  clear_value y5
  refine Keeps.ite ?_ ?_
  · refine post_keeps ?_
    refine setDep_keeps ?_
    exact h5
  · exact h5

theorem setSlotB_keeps {x0} {x1} (h : Keeps s0 s) : Keeps s0 (s.setSlotB x0 x1) := by
  delta State.setSlotB
  refine setSec_keeps ?_
  exact h

theorem take_keeps {x0} {x1} {x2} {x3} (h : Keeps s0 s) (h3 : ∀ t r e, Keeps s0 t → Keeps s0 (x3 t r e)) :
    Keeps s0 (s.take x0 x1 x2 x3) := by
  delta State.take
  refine takeIf_keeps ?_ ?_
  · exact h
  · intro z1a z1b z1c h1
    refine h3 _ _ _ ?_
    exact h1

theorem controlJob_keeps {x0} {x1} {x2} (h : Keeps s0 s) : Keeps s0 (s.controlJob x0 x1 x2) := by
  delta State.controlJob
  extract_lets +onlyGivenNames y1
  clear_value y1
  refine Keeps.ite ?_ ?_
  · refine finish_keeps ?_
    exact h
  · split
    · rename_i e2a
      refine Keeps.ite ?_ ?_
      · refine finish_keeps ?_
        exact h
      · refine suspendJob_keeps ?_
        exact h
    · rename_i e3a
      refine Keeps.ite ?_ ?_
      · extract_lets +onlyGivenNames y4
        have h4 : Keeps s0 y4 := by
          unfold y4
          split
          · rename_i e5a e5b e5c
            refine finish_keeps ?_
            exact h
          · rename_i e6a e6b
            exact h
        clear_value y4
        refine setJob_keeps ?_
        exact h4
      · refine Keeps.ite ?_ ?_
        · refine finish_keeps ?_
          refine resumeJob_keeps ?_
          exact h
        · refine finish_keeps ?_
          exact h
    · rename_i e7a
      refine finish_keeps ?_
      refine cancelJob_keeps ?_
      exact h

theorem controlSluice_keeps {x0} {x1} {x2} (h : Keeps s0 s) : Keeps s0 (s.controlSluice x0 x1 x2) := by
  delta State.controlSluice
  extract_lets +onlyGivenNames y1
  clear_value y1
  refine Keeps.ite ?_ ?_
  · refine finish_keeps ?_
    exact h
  · refine Keeps.ite ?_ ?_
    · extract_lets +onlyGivenNames y2
      have h2 : Keeps s0 y2 := by
        unfold y2
        refine setSluice_keeps ?_
        exact h
      clear_value y2
      refine Keeps.ite ?_ ?_
      · refine endSluice_keeps ?_
        exact h2
      · exact h2
    · extract_lets +onlyGivenNames y3
      clear_value y3
      refine finishAll_keeps ?_
      refine setSluice_keeps ?_
      exact h

theorem controlTest_keeps {x0} {x1} {x2} (h : Keeps s0 s) : Keeps s0 (s.controlTest x0 x1 x2) := by
  delta State.controlTest
  extract_lets y1 y2
  refine Keeps.ite (finish_keeps h) (Keeps.ite ?_ ?_)
  · extract_lets
    exact Keeps.ite (setTest_keeps h) (closeTest_keeps (setTest_keeps h))
  · extract_lets
    exact finishAll_keeps (setTest_keeps h)

theorem control_keeps {x0} {x1} {x2} (h : Keeps s0 s) : Keeps s0 (s.control x0 x1 x2) := by
  delta State.control
  refine onTarget_keeps ?_ ?_
  · exact h
  · intro z1a h1
    extract_lets +onlyGivenNames y2
    clear_value y2
    split
    · rename_i e3a e3b
      refine controlJob_keeps ?_
      exact h1
    · rename_i e4a e4b
      refine controlEnc_keeps ?_
      exact h1
    · rename_i e5a e5b
      refine controlBq_keeps ?_
      exact h1
    · rename_i e6a e6b
      refine controlSluice_keeps ?_
      exact h1
    · rename_i e7a e7b
      refine controlTest_keeps ?_
      exact h1
    · rename_i e8a e8b e8c e8d e8e e8f
      split
      · rename_i e9a e9b e9c
        refine controlRefresh_keeps ?_
        exact h1
      · rename_i e10a e10b
        refine finish_keeps ?_
        exact h1

theorem orphanAll_keeps {x0} (h : Keeps s0 s) : Keeps s0 (s.orphanAll x0) := by
  delta State.orphanAll
  refine sweep_keeps ?_
  with_reducible refine Keeps.same ?_
  exact h

theorem settleRecons_keeps {x0} (h : Keeps s0 s) : Keeps s0 (s.settleRecons x0) := by
  delta State.settleRecons
  refine Keeps.foldl _ ?_ ?_
  · exact h
  · intro z1a z1b h1
    refine Keeps.ite ?_ ?_
    · refine takeRecons_keeps ?_
      exact h1
    · exact h1

theorem dropRef_keeps {x0} {x1} (h : Keeps s0 s) : Keeps s0 (s.dropRef x0 x1) := by
  delta State.dropRef
  extract_lets +onlyGivenNames y1
  clear_value y1
  extract_lets +onlyGivenNames y2
  clear_value y2
  refine Keeps.ite ?_ ?_
  · exact h
  · refine Keeps.ite ?_ ?_
    · refine setFrame_keeps ?_
      exact h
    · extract_lets +onlyGivenNames y3
      clear_value y3
      refine Keeps.ite ?_ ?_
      · refine freeFrame_keeps ?_
        exact h
      · extract_lets +onlyGivenNames y4
        have h4 : Keeps s0 y4 := by
          unfold y4
          refine setFrame_keeps ?_
          exact h
        clear_value y4
        refine setSet_keeps ?_
        exact h4

theorem slotOp_keeps {x0} {x1} {x2} {x3} {x4} (h : Keeps s0 s) : Keeps s0 (s.slotOp x0 x1 x2 x3 x4) := by
  delta State.slotOp
  refine run_keeps ?_ ?_
  · exact h
  · intro z1a h1
    refine setAt_keeps ?_
    exact h1

theorem glowFailed_keeps {x0} {x1} (h : Keeps s0 s) : Keeps s0 (s.glowFailed x0 x1) := by
  delta State.glowFailed
  refine Keeps.ite ?_ ?_
  · exact h
  · refine Keeps.ite ?_ ?_
    · refine hostRefused_keeps ?_
      exact h
    · refine faultJob_keeps ?_
      refine post_keeps ?_
      exact h

theorem settleGroup_keeps {x0} {x1} (h : Keeps s0 s) : Keeps s0 (s.settleGroup x0 x1) := by
  delta State.settleGroup
  refine Keeps.foldl _ ?_ ?_
  · exact h
  · intro z1a z1b h1
    refine settleBarrier_keeps ?_
    exact h1

theorem decommission_keeps  (h : Keeps s0 s) : Keeps s0 (s.decommission ) := by
  unfold State.decommission
  refine secEvent_keeps ⟨h.1, h.2, fun hm => ?_⟩
  have hw := h.3 hm
  simp only [Mem.wf, Bool.and_eq_true] at hw ⊢
  exact ⟨⟨⟨⟨⟨⟨⟨mapFilter_wf hw.1.1.1.1.1.1.1 _, rfl⟩, rfl⟩, rfl⟩, rfl⟩, rfl⟩, rfl⟩, rfl⟩

theorem dmaRows_keeps {a st b ad sd rl i n} (h : Keeps s0 s) : Keeps s0 (s.dmaRows a st b ad sd rl i n).1 := by
  induction n generalizing s i with
  | zero => exact h
  | succ n ih =>
    unfold State.dmaRows
    dsimp only
    split
    · exact h
    · refine ih ?_
      split
      · exact devWrite_keeps (emulateTier_keeps (devSpend_keeps h))
      · exact bufWrite_keeps (passFree_keeps (emulateTier_keeps (devSpend_keeps h)))

theorem dmaRows_pair {a st b ad sd rl i n} {y} (h : Keeps s0 s) (e : s.dmaRows a st b ad sd rl i n = (t, y)) :
    Keeps s0 t := by
  have := dmaRows_keeps (h := h) (a := a) (st := st) (b := b) (ad := ad) (sd := sd) (rl := rl) (i := i) (n := n)
  rw [e] at this; exact this

theorem countDma_keeps {x0} {x1} (h : Keeps s0 s) : Keeps s0 (s.countDma x0 x1) := by
  delta State.countDma
  extract_lets +onlyGivenNames y1
  clear_value y1
  refine setAt_keeps ?_
  exact h

theorem dma_keeps {x0} {x1} {x2} (h : Keeps s0 s) : Keeps s0 (s.dma x0 x1 x2) := by
  delta State.dma
  refine issue_keeps ?_ ?_
  · exact h
  · intro z1a h1
    split
    · rename_i e2a e2b e2c
      refine stopAt_keeps ?_
      exact h1
    · rename_i e3a e3b
      extract_lets +onlyGivenNames y4
      clear_value y4
      extract_lets +onlyGivenNames y5
      clear_value y5
      extract_lets +onlyGivenNames y6
      clear_value y6
      extract_lets +onlyGivenNames y7
      clear_value y7
      extract_lets +onlyGivenNames y8
      clear_value y8
      extract_lets +onlyGivenNames y9
      have h9 : Keeps s0 y9.1 := by
        unfold y9
        refine dmaRows_keeps ?_
        exact h1
      clear_value y9
      split
      · rename_i e10a e10b e10c
        refine stopAt_keeps ?_
        exact h9
      · rename_i e11a e11b
        refine advance_keeps ?_
        refine duePost_keeps ?_
        refine countDma_keeps ?_
        refine countClip_keeps ?_
        exact h9

theorem fillLineOf_keeps {x0} {x1} (h : Keeps s0 s) : Keeps s0 (s.fillLineOf x0 x1) := by
  delta State.fillLineOf
  extract_lets +onlyGivenNames y1
  clear_value y1
  refine Keeps.ite ?_ ?_
  · refine tick_keeps ?_
    refine setCore_keeps ?_
    exact h
  · refine setCore_keeps ?_
    exact h

theorem afterRead_keeps {x0} {x1} (h : Keeps s0 s) : Keeps s0 (s.afterRead x0 x1) := by
  delta State.afterRead
  extract_lets +onlyGivenNames y1
  clear_value y1
  refine Keeps.ite ?_ ?_
  · refine setHost_keeps ?_
    exact h
  · refine Keeps.ite ?_ ?_
    · refine setHost_keeps ?_
      exact h
    · refine Keeps.ite ?_ ?_
      · exact h
      · refine Keeps.ite ?_ ?_
        · refine setHost_keeps ?_
          exact h
        · refine Keeps.ite ?_ ?_
          · refine setHost_keeps ?_
            exact h
          · refine Keeps.ite ?_ ?_
            · refine setEv_keeps ?_
              exact h
            · refine Keeps.ite ?_ ?_
              · exact h
              · refine Keeps.ite ?_ ?_
                · extract_lets +onlyGivenNames y2
                  clear_value y2
                  extract_lets +onlyGivenNames y3
                  clear_value y3
                  refine Keeps.ite ?_ ?_
                  · refine setDike_keeps ?_
                    exact h
                  · exact h
                · refine Keeps.ite ?_ ?_
                  · extract_lets +onlyGivenNames y4
                    clear_value y4
                    extract_lets +onlyGivenNames y5
                    clear_value y5
                    refine setCore_keeps ?_
                    exact h
                  · refine Keeps.ite ?_ ?_
                    · with_reducible refine Keeps.same ?_
                      exact h
                    · refine Keeps.ite ?_ ?_
                      · with_reducible refine Keeps.same ?_
                        exact h
                      · refine Keeps.ite ?_ ?_
                        · extract_lets +onlyGivenNames y6
                          clear_value y6
                          refine setLink_keeps ?_
                          exact h
                        · refine Keeps.ite ?_ ?_
                          · refine setPower_keeps ?_
                            exact h
                          · exact h

theorem setAnswer_keeps {x0} (h : Keeps s0 s) : Keeps s0 (s.setAnswer x0) := by
  delta State.setAnswer
  with_reducible refine Keeps.same ?_
  exact h

theorem alu_keeps {x0} {x1} {x2} {x3} (h : Keeps s0 s) : Keeps s0 (s.alu x0 x1 x2 x3) := by
  delta State.alu
  refine run_keeps ?_ ?_
  · exact h
  · intro z1a h1
    extract_lets +onlyGivenNames y2
    clear_value y2
    refine setAt_keeps ?_
    exact h1

theorem unitTested_keeps {x0} {x1} {x2} (h : Keeps s0 s) : Keeps s0 (s.unitTested x0 x1 x2) := by
  delta State.unitTested
  extract_lets +onlyGivenNames y1
  clear_value y1
  refine Keeps.ite ?_ ?_
  · extract_lets +onlyGivenNames y2
    clear_value y2
    refine Keeps.ite ?_ ?_
    · refine unitDone_keeps ?_
      refine linkEvent_keeps ?_
      exact h
    · refine Keeps.ite ?_ ?_
      · refine unitDone_keeps ?_
        refine linkEvent_keeps ?_
        exact h
      · refine unitDone_keeps ?_
        refine tick_keeps ?_
        refine testFailed_keeps ?_
        refine setLink_keeps ?_
        exact h
  · refine Keeps.ite ?_ ?_
    · refine Keeps.ite ?_ ?_
      · refine unitDone_keeps ?_
        exact h
      · refine unitDone_keeps ?_
        refine tableRequest_keeps ?_
        exact h
    · refine Keeps.ite ?_ ?_
      · refine unitDone_keeps ?_
        exact h
      · extract_lets +onlyGivenNames y3
        clear_value y3
        extract_lets +onlyGivenNames y4
        clear_value y4
        extract_lets +onlyGivenNames y5
        have h5 : Keeps s0 y5 := by
          unfold y5
          with_reducible refine Keeps.same ?_
          exact h
        clear_value y5
        refine unitDone_keeps ?_
        refine tick_keeps ?_
        refine testFailed_keeps ?_
        exact h5

theorem coldReset_keeps (h : Keeps s0 s) : Keeps s0 (s.coldReset) := by
  delta State.coldReset
  extract_lets +onlyGivenNames y1
  clear_value y1
  extract_lets +onlyGivenNames y2
  have h2 : Keeps s0 y2 := by
    unfold y2
    refine coldRefreshes_keeps ?_
    refine afterCold_keeps ?_
    refine numberAll_keeps ?_
    exact h
  clear_value y2
  refine Keeps.ite ?_ ?_
  · extract_lets +onlyGivenNames y3
    clear_value y3
    extract_lets +onlyGivenNames y4
    have h4 : Keeps s0 y4 := by
      unfold y4
      refine post_keeps ?_
      exact h2
    clear_value y4
    with_reducible refine Keeps.same ?_
    exact h4
  · exact h2

theorem readWord_keeps {f o} (h : Keeps s0 s) : Keeps s0 (s.readWord f o).1 := by
  unfold State.readWord
  exact tick_keeps (afterRead_keeps h)

theorem readWord_pair {f o} {y} (h : Keeps s0 s) (e : s.readWord f o = (t, y)) : Keeps s0 t := by
  have := readWord_keeps (h := h) (f := f) (o := o)
  rw [e] at this; exact this

theorem readReg_keeps {x0} {x1} {x2} (h : Keeps s0 s) : Keeps s0 (s.readReg x0 x1 x2) := by
  delta State.readReg
  refine Keeps.ite ?_ ?_
  · exact h
  · refine Keeps.ite ?_ ?_
    · split
      · rename_i e1a e1b e1c e1d
        have h2 := readWord_pair (by assumption) e1d
        refine answerReg_keeps ?_
        exact h2
    · refine Keeps.ite ?_ ?_
      · split
        · rename_i e3a e3b e3c e3d
          have h4 := readWord_pair (by assumption) e3d
          split
          · rename_i e5a e5b e5c e5d
            have h6 := readWord_pair (by assumption) e5d
            refine answerReg_keeps ?_
            exact h6
      · refine Keeps.ite ?_ ?_
        · refine answerReg_keeps ?_
          exact h
        · refine answerReg_keeps ?_
          exact h

theorem permute_keeps {x0} {x1} {x2} {x3} {x4} (h : Keeps s0 s) : Keeps s0 (s.permute x0 x1 x2 x3 x4) := by
  delta State.permute
  refine vec_keeps ?_
  exact h

theorem startCore_keeps {x0} {x1} (h : Keeps s0 s) : Keeps s0 (s.startCore x0 x1) := by
  delta State.startCore
  extract_lets +onlyGivenNames y1
  have h1 : Keeps s0 y1 := by
    unfold y1
    refine Keeps.ite ?_ ?_
    · exact h
    · refine fenceCore_keeps ?_
      exact h
  clear_value y1
  extract_lets +onlyGivenNames y2
  clear_value y2
  extract_lets +onlyGivenNames y3
  clear_value y3
  extract_lets +onlyGivenNames y4
  clear_value y4
  refine setCore_keeps ?_
  exact h1

theorem notExported_keeps {x0} (h : Keeps s0 s) : Keeps s0 (s.notExported x0) := by
  delta State.notExported
  extract_lets +onlyGivenNames y1
  clear_value y1
  extract_lets +onlyGivenNames y2
  have h2 : Keeps s0 y2 := by
    unfold y2
    with_reducible refine Keeps.same ?_
    exact h
  clear_value y2
  refine tick_keeps ?_
  refine refuse_keeps ?_
  exact h2

theorem completePhase_keeps {x0} (h : Keeps s0 s) : Keeps s0 (s.complete_ x0) := by
  delta State.complete_
  extract_lets +onlyGivenNames y1
  clear_value y1
  with_reducible refine Keeps.same ?_
  exact h

theorem linkTrain_keeps {x0} {x1} (h : Keeps s0 s) : Keeps s0 (s.linkTrain x0 x1) := by
  delta State.linkTrain
  extract_lets +onlyGivenNames y1
  clear_value y1
  extract_lets +onlyGivenNames y2
  clear_value y2
  extract_lets +onlyGivenNames y3
  clear_value y3
  extract_lets +onlyGivenNames y4
  clear_value y4
  extract_lets +onlyGivenNames y5
  clear_value y5
  extract_lets +onlyGivenNames y6
  clear_value y6
  refine Keeps.ite ?_ ?_
  · refine linkEvent_keeps ?_
    refine setLink_keeps ?_
    exact h
  · refine Keeps.ite ?_ ?_
    · refine linkEvent_keeps ?_
      refine setLink_keeps ?_
      exact h
    · refine Keeps.ite ?_ ?_
      · refine setLink_keeps ?_
        exact h
      · extract_lets +onlyGivenNames y7
        clear_value y7
        extract_lets +onlyGivenNames y8
        have h8 : Keeps s0 y8 := by
          unfold y8
          refine setLink_keeps ?_
          exact h
        clear_value y8
        extract_lets +onlyGivenNames y9
        have h9 : Keeps s0 y9 := by
          unfold y9
          refine Keeps.ite ?_ ?_
          · refine linkEvent_keeps ?_
            exact h8
          · exact h8
        clear_value y9
        refine Keeps.ite ?_ ?_
        · refine linkEvent_keeps ?_
          refine setLink_keeps ?_
          exact h9
        · refine Keeps.ite ?_ ?_
          · refine linkEvent_keeps ?_
            exact h9
          · exact h9

theorem runMinor_keeps {x0} {x1} {x2} {x3} {x4} {x5} (h : Keeps s0 s) (h5 : ∀ t, Keeps s0 t → Keeps s0 (x5 t)) :
    Keeps s0 (s.runMinor x0 x1 x2 x3 x4 x5) := by
  delta State.runMinor
  refine issue_keeps ?_ ?_
  · exact h
  · intro z1a h1
    refine Keeps.ite ?_ ?_
    · refine Keeps.ite ?_ ?_
      · refine advance_keeps ?_
        exact h1
      · refine instrFault_keeps ?_
        exact h1
    · split
      · rename_i e2a e2b e2c
        refine stopAt_keeps ?_
        exact h1
      · rename_i e3a e3b
        refine advance_keeps ?_
        refine h5 _ ?_
        exact h1

theorem endShort_keeps {x0} {x1} {x2} (h : Keeps s0 s) : Keeps s0 (s.endShort x0 x1 x2) := by
  delta State.endShort
  extract_lets +onlyGivenNames y1
  clear_value y1
  refine finish_keeps ?_
  refine setQueue_keeps ?_
  exact h

theorem postEachMinute_keeps {x0} (h : Keeps s0 s) : Keeps s0 (s.postEachMinute x0) := by
  delta State.postEachMinute
  extract_lets +onlyGivenNames y1
  clear_value y1
  refine Keeps.ite ?_ ?_
  · exact h
  · extract_lets +onlyGivenNames y2
    have h2 : Keeps s0 y2 := by
      unfold y2
      refine post_keeps ?_
      exact h
    clear_value y2
    with_reducible refine Keeps.same ?_
    exact h2

theorem accept_keeps {x0} {x1} {x2} (h : Keeps s0 s) : Keeps s0 (s.accept x0 x1 x2) := by
  delta State.accept
  extract_lets +onlyGivenNames y1
  have h1 : Keeps s0 y1 := by
    unfold y1
    refine tick_keeps ?_
    exact h
  clear_value y1
  extract_lets +onlyGivenNames y2
  have h2 : Keeps s0 y2 := by
    unfold y2
    with_reducible refine Keeps.same ?_
    exact h1
  clear_value y2
  extract_lets +onlyGivenNames y3
  have h3 : Keeps s0 y3 := by
    unfold y3
    refine Keeps.foldl _ ?_ ?_
    · refine setJob_keeps ?_
      exact h2
    · intro z4a z4b h4
      refine setObj_keeps ?_
      exact h4
  clear_value y3
  refine complete_keeps ?_
  exact h3

theorem writeReg_keeps {x0} {x1} {x2} {x3} (h : Keeps s0 s) : Keeps s0 (s.writeReg x0 x1 x2 x3) := by
  delta State.writeReg
  refine Keeps.ite ?_ ?_
  · exact h
  · refine Keeps.ite ?_ ?_
    · refine putWord_keeps ?_
      exact h
    · refine Keeps.ite ?_ ?_
      · refine putWord_keeps ?_
        refine putWord_keeps ?_
        exact h
      · with_reducible refine Keeps.same ?_
        exact h

theorem quarantine_keeps {x0} (h : Keeps s0 s) : Keeps s0 (s.quarantine x0) := by
  delta State.quarantine
  extract_lets +onlyGivenNames y1
  clear_value y1
  extract_lets +onlyGivenNames y2
  have h2 : Keeps s0 y2 := by
    unfold y2
    refine skipReverted_keeps ?_
    refine Keeps.foldl _ ?_ ?_
    · exact h
    · intro z3a z3b h3
      refine revertExtent_keeps ?_
      exact h3
  clear_value y2
  refine Keeps.foldl _ ?_ ?_
  · exact h2
  · intro z4a z4b h4
    refine setHome_keeps ?_
    exact h4

theorem formSil_keeps {x0} {x1} (h : Keeps s0 s) : Keeps s0 (s.formSil x0 x1) := by
  delta State.formSil
  extract_lets +onlyGivenNames y1
  clear_value y1
  extract_lets +onlyGivenNames y2
  clear_value y2
  extract_lets +onlyGivenNames y3
  clear_value y3
  extract_lets +onlyGivenNames y4
  clear_value y4
  extract_lets +onlyGivenNames y5
  clear_value y5
  refine setEntry_keeps ?_
  refine write_keeps ?_
  exact h

theorem withFetchWord_eq (n w : Nat) : s.withFetchWord n w = s := rfl

theorem retrain_keeps {x0} (h : Keeps s0 s) : Keeps s0 (s.retrain x0) := by
  delta State.retrain
  extract_lets +onlyGivenNames y1
  clear_value y1
  refine Keeps.ite ?_ ?_
  · refine setLink_keeps ?_
    exact h
  · exact h

theorem dieOut_keeps {x0} (h : Keeps s0 s) : Keeps s0 (s.dieOut x0) := by
  delta State.dieOut
  extract_lets +onlyGivenNames y1
  clear_value y1
  extract_lets +onlyGivenNames y2
  have h2 : Keeps s0 y2 := by
    unfold y2
    refine setDie_keeps ?_
    exact h
  clear_value y2
  refine Keeps.ite ?_ ?_
  · refine loseDdr_keeps ?_
    exact h2
  · exact h2

theorem vectorLoad_keeps {x0} {x1} {x2} (h : Keeps s0 s) : Keeps s0 (s.vectorLoad x0 x1 x2) := by
  delta State.vectorLoad
  refine run_keeps ?_ ?_
  · exact h
  · intro z1a h1
    extract_lets +onlyGivenNames y2
    clear_value y2
    extract_lets +onlyGivenNames y3
    clear_value y3
    extract_lets +onlyGivenNames y4
    clear_value y4
    extract_lets +onlyGivenNames y5
    clear_value y5
    extract_lets +onlyGivenNames y6
    clear_value y6
    extract_lets +onlyGivenNames y7
    clear_value y7
    extract_lets +onlyGivenNames y8
    clear_value y8
    extract_lets +onlyGivenNames y9
    clear_value y9
    refine countClip_keeps ?_
    refine setAt_keeps ?_
    exact h1

theorem emulateFor_keeps {x0} {x1} (h : Keeps s0 s) : Keeps s0 (s.emulateFor x0 x1) := by
  delta State.emulateFor
  extract_lets +onlyGivenNames y1
  clear_value y1
  refine Keeps.ite ?_ ?_
  · exact h
  · refine setJob_keeps ?_
    refine post_keeps ?_
    exact h

theorem sfu_keeps {x0} {x1} {x2} {x3} (h : Keeps s0 s) : Keeps s0 (s.sfu x0 x1 x2 x3) := by
  delta State.sfu
  refine issue_keeps ?_ ?_
  · exact h
  · intro z1a h1
    split
    · rename_i e2a e2b e2c
      refine stopAt_keeps ?_
      exact h1
    · rename_i e3a e3b
      split
      · rename_i e4a e4b
        refine advance_keeps ?_
        refine sfuApply_keeps ?_
        exact h1
      · rename_i e5a e5b
        refine countTowardFence_keeps ?_
        refine advance_keeps ?_
        refine sfuApply_keeps ?_
        refine mismatch_keeps ?_
        exact h1
      · rename_i e6a e6b
        refine fenceCore_keeps ?_
        refine mismatch_keeps ?_
        refine mismatch_keeps ?_
        exact h1

theorem takeFreed_keeps {x n} (h : Keeps s0 s) : Keeps s0 (s.takeFreed x n) := by
  induction n generalizing s with
  | zero => exact h
  | succ n ih =>
    unfold State.takeFreed
    dsimp only
    split
    · exact h
    · split
      · exact ih (setBq_keeps (takePost_keeps h))
      · exact h

theorem buildSet_keeps {x0} {x1} {x2} {x3} (h : Keeps s0 s) : Keeps s0 (s.buildSet x0 x1 x2 x3) := by
  delta State.buildSet
  extract_lets +onlyGivenNames y1
  clear_value y1
  extract_lets +onlyGivenNames y2
  clear_value y2
  extract_lets +onlyGivenNames y3
  have h3 : Keeps s0 y3 := by
    unfold y3
    refine write_keeps ?_
    exact h
  clear_value y3
  extract_lets +onlyGivenNames y4
  have h4 : Keeps s0 y4 := by
    unfold y4
    refine write_keeps ?_
    exact h3
  clear_value y4
  extract_lets +onlyGivenNames y5
  have h5 : Keeps s0 y5 := by
    unfold y5
    refine write_keeps ?_
    exact h4
  clear_value y5
  refine setSet_keeps ?_
  exact h5

theorem served_keeps {x0} {x1} {x2} (h : Keeps s0 s) : Keeps s0 (s.served x0 x1 x2) := by
  delta State.served
  extract_lets +onlyGivenNames y1
  clear_value y1
  refine setCore_keeps ?_
  exact h

theorem attn_keeps {x0} {x1} {x2} {x3} (h : Keeps s0 s) : Keeps s0 (s.attn x0 x1 x2 x3) := by
  delta State.attn
  refine run_keeps ?_ ?_
  · exact h
  · intro z1a h1
    extract_lets +onlyGivenNames y2
    clear_value y2
    extract_lets +onlyGivenNames y3
    clear_value y3
    extract_lets +onlyGivenNames y4
    clear_value y4
    refine startAttn_keeps ?_
    refine passFree_keeps ?_
    refine devSpend_keeps ?_
    exact h1

theorem pageShare_keeps {a f w} (h : Keeps s0 s) : Keeps s0 (s.pageShare a f w).1 := by
  unfold State.pageShare
  dsimp only
  split
  · exact h
  · refine Keeps.foldl _ h fun t x ht => ?_
    split
    · exact addRef_keeps (write_keeps (setEntry_keeps ht))
    · exact write_keeps (setEntry_keeps ht)

theorem pageShare_pair {a f w} {y} (h : Keeps s0 s) (e : s.pageShare a f w = (t, y)) : Keeps s0 t := by
  have := pageShare_keeps (h := h) (a := a) (f := f) (w := w)
  rw [e] at this; exact this

theorem switchImage_keeps {u d l} (h : Keeps s0 s) : Keeps s0 (s.switchImage u d l).1 := by
  unfold State.switchImage
  exact setRunning_keeps h

theorem switchImage_pair {u d l} {y} (h : Keeps s0 s) (e : s.switchImage u d l = (t, y)) : Keeps s0 t := by
  have := switchImage_keeps (h := h) (u := u) (d := d) (l := l)
  rw [e] at this; exact this

theorem walkSlot_keeps {r k p} (h : Keeps s0 s) (e : s.walkSlot r k = .emit t p) : Keeps s0 t := by
  unfold State.walkSlot at e
  extract_lets +onlyGivenNames d i v c pos en fr token n last keyEnd at e
  clear_value n last keyEnd fr en
  split at e
  extract_lets at e
  split at e
  · cases e
  · split at e
    · cases e
    · split at e
      · injection e with e1 _; rw [← e1]; exact h
      · split at e
        · cases e
        · split at e
          · injection e with e1 _; rw [← e1]; exact h
          · split at e
            · injection e with e1 _; rw [← e1]; exact stat_keeps (setSet_keeps h)
            · split at e
              · cases e
              · injection e with e1 _; rw [← e1]; exact ringFetch_keeps h

theorem walk_keeps {r n} (h : Keeps s0 s) : Keeps s0 (s.walk r n).1 := by
  induction n generalizing s r with
  | zero => exact h
  | succ n ih =>
    unfold State.walk
    split
    · exact h
    · split
      · exact h
      · split
        · exact h
        · exact ih h
        · exact ih (walkSlot_keeps h ‹_›)

theorem walk_pair {r n} {y} (h : Keeps s0 s) (e : s.walk r n = (t, y)) : Keeps s0 t := by
  have := walk_keeps (h := h) (r := r) (n := n)
  rw [e] at this; exact this

theorem returnExtent_keeps {o x} (h : Keeps s0 s) (e : s.returnExtent o x = some t) : Keeps s0 t := by
  unfold State.returnExtent at e
  have hl : ∀ u : State, Keeps s0 u → Keeps s0 { u with mem := { u.mem with lost := mapSet false u.mem.lost x false } } :=
    fun u hu => hu.withMem fun hm => by
      simp only [Mem.wf, Bool.and_eq_true] at hm ⊢
      simp only [hm, mapSet_wf, and_self]
  split at e
  · split at e
    · cases e; exact hl _ (setHome_keeps h)
    · split at e
      · cases e
      · cases e
        refine hl _ ((tick_keeps (setHome_keeps h)).withMem fun hm => ?_)
        simp only [Mem.wf, Bool.and_eq_true] at hm ⊢
        simp only [hm, mapClear_wf, and_self]
  · cases e; exact setHome_keeps h

theorem returnAll_keeps {o xs} (h : Keeps s0 s) (e : s.returnAll o xs = some t) : Keeps s0 t := by
  induction xs generalizing s with
  | nil => cases e; exact h
  | cons x xs ih =>
    unfold State.returnAll at e
    split at e
    · cases e
    · rename_i u hu
      exact ih (returnExtent_keeps h hu) e

theorem firstPlaced_keeps {bs b} (h : Keeps s0 s) (e : s.firstPlaced bs = some (b, t)) : Keeps s0 t := by
  induction bs with
  | nil => cases e
  | cons x xs ih =>
    unfold State.firstPlaced at e
    split at e
    · cases e
      exact placeBatch_keeps h ‹_›
    · exact ih e

theorem hostReadPart_keeps {p f a n} (h : Keeps s0 s) : Keeps s0 (s.hostReadPart p f a n).1 := by
  unfold State.hostReadPart
  dsimp only
  repeat' (first | with_reducible assumption | with_reducible apply hostRefused_keeps | with_reducible apply hostCharge_keeps | with_reducible apply autoFlip_keeps | split)

theorem hostReadPart_pair {p f a n} {y} (h : Keeps s0 s) (e : s.hostReadPart p f a n = (t, y)) : Keeps s0 t := by
  have := hostReadPart_keeps (h := h) (p := p) (f := f) (a := a) (n := n)
  rw [e] at this; exact this

theorem takeHomes_keeps {i o x n} (h : Keeps s0 s) (e : s.takeHomes i o x n = some t) : Keeps s0 t := by
  induction n generalizing s x with
  | zero => cases e; exact h
  | succ n ih =>
    unfold State.takeHomes at e
    split at e
    · cases e
    · exact ih (tick_keeps (setHome_keeps h)) e

theorem pageWrite_keeps {a f w} (h : Keeps s0 s) : Keeps s0 (s.pageWrite a f w).1 := by
  unfold State.pageWrite
  dsimp only
  repeat' (first | with_reducible assumption | with_reducible apply stat_keeps | with_reducible apply formSil_keeps | with_reducible apply putToken_keeps | with_reducible apply ownFrame_keeps | with_reducible apply Keeps.foldl | split | (intro _))

theorem pageWrite_pair {a f w} {y} (h : Keeps s0 s) (e : s.pageWrite a f w = (t, y)) : Keeps s0 t := by
  have := pageWrite_keeps (h := h) (a := a) (f := f) (w := w)
  rw [e] at this; exact this

end Sys2Proof.Machine
end

