-- ==== Sys2Proof/Laws/KeepsExec.lean ====
section
/-!
SUPPORT. Every command answers with a state that keeps the variant, the queue of commands and the canonical form of
device memory: one lemma for each meaning.
-/
namespace Sys2Proof.Machine
open Host

variable {s0 s t : State}

theorem execInputOvervolt_keeps {x0} (h : Keeps s0 s) : ∃ t, execInputOvervolt x0 s = .next t ∧ Keeps s0 t := by
  refine ⟨_, rfl, ?_⟩
  refine Keeps.ite ?_ ?_
  · exact h
  · refine postEachMinute_keeps ?_
    refine setVolts_keeps ?_
    exact h

theorem execSubmit_keeps {x0} (h : Keeps s0 s) : ∃ t, execSubmit x0 s = .next t ∧ Keeps s0 t := by
  refine ⟨_, rfl, ?_⟩
  refine Keeps.ite ?_ ?_
  · exact h
  · refine take_keeps ?_ ?_
    · exact h
    · intro z1a z1b z1c h1
      split
      · rename_i e2a e2b
        refine endShort_keeps ?_
        exact h1
      · rename_i e3a e3b e3c
        split
        · rename_i e4a e4b
          refine endShort_keeps ?_
          exact h1
        · rename_i e5a e5b e5c
          split
          · rename_i e6a e6b e6c e6d
            refine endShort_keeps ?_
            refine Keeps.ite ?_ ?_
            · refine refuse_keeps ?_
              exact h1
            · exact h1
          · rename_i e7a e7b e7c
            refine accept_keeps ?_
            exact h1

theorem execEventPost_keeps (h : Keeps s0 s) : ∃ t, execEventPost  s = .next t ∧ Keeps s0 t := by
  refine ⟨_, rfl, ?_⟩
  split
  · rename_i e1a e1b
    exact h
  · rename_i e2a e2b e2c e2d
    refine Keeps.ite ?_ ?_
    · exact h
    · refine numberEvent_keeps ?_
      refine setEv_keeps ?_
      exact h

theorem execTaccVwr_keeps {x0} {x1} {x2} (h : Keeps s0 s) : ∃ t, execTaccVwr x0 x1 x2 s = .next t ∧ Keeps s0 t := by
  refine ⟨_, rfl, ?_⟩
  refine run_keeps ?_ ?_
  · exact h
  · intro z1a h1
    extract_lets +onlyGivenNames y2
    clear_value y2
    extract_lets +onlyGivenNames y3
    clear_value y3
    extract_lets +onlyGivenNames y4
    clear_value y4
    extract_lets +onlyGivenNames y5
    clear_value y5
    refine accWrite_keeps ?_
    exact h1

theorem execInputOvervoltTrip_keeps {x0} (h : Keeps s0 s) : ∃ t, execInputOvervoltTrip x0 s = .next t ∧ Keeps s0 t := by
  refine ⟨_, rfl, ?_⟩
  refine Keeps.ite ?_ ?_
  · exact h
  · refine mainDown_keeps ?_
    refine powerEvent_keeps ?_
    refine powerEvent_keeps ?_
    refine setVolts_keeps ?_
    exact h

theorem execAmocas_keeps {x0} {x1} (h : Keeps s0 s) : ∃ t, execAmocas x0 x1 s = .next t ∧ Keeps s0 t := by
  refine ⟨_, rfl, ?_⟩
  refine atomic_keeps ?_
  exact h

theorem execHubVfPolderWrite_keeps {x0} {x1} (h :
    Keeps s0 s) : ∃ t, execHubVfPolderWrite x0 x1 s = .next t ∧ Keeps s0 t := by
  refine ⟨_, rfl, ?_⟩
  refine Keeps.ite ?_ ?_
  · refine vfPolderPut_keeps ?_
    exact h
  · exact h

theorem execIor_keeps {x0} {x1} (h : Keeps s0 s) : ∃ t, execIor x0 x1 s = .next t ∧ Keeps s0 t := by
  refine ⟨_, rfl, ?_⟩
  refine vecInt_keeps ?_
  exact h

theorem execHostMemRead_keeps {p f a n} (h : Keeps s0 s) : ∃ t, execHostMemRead p f a n s = .next t ∧ Keeps s0 t := by
  refine ⟨_, rfl, ?_⟩
  split
  · exact h
  · refine Keeps.ite h ?_
    refine setHost_keeps ?_
    refine List.foldlRecOn (motive := fun x : State × List Byte × Bool => Keeps s0 x.1) _ _ h fun acc hacc p _ => ?_
    exact hostReadPart_keeps hacc

theorem execJtagAccess_keeps {x0} {x1} {x2} {x3} (h :
    Keeps s0 s) : ∃ t, execJtagAccess x0 x1 x2 x3 s = .next t ∧ Keeps s0 t := by
  refine ⟨_, rfl, ?_⟩
  extract_lets +onlyGivenNames y1
  clear_value y1
  refine Keeps.ite ?_ ?_
  · exact h
  · refine Keeps.ite ?_ ?_
    · refine reply_keeps ?_
      refine tick_keeps ?_
      refine refuse_keeps ?_
      exact h
    · split
      · rename_i e2a
        refine reply_keeps ?_
        exact h
      · rename_i e3a
        refine reply_keeps ?_
        refine setSec_keeps ?_
        exact h
      · rename_i e4a
        refine tick_keeps ?_
        refine reply_keeps ?_
        exact h
      · rename_i e5a
        refine jtagMem_keeps ?_
        exact h
      · rename_i e6a
        refine jtagMem_keeps ?_
        exact h

theorem execLinkIdentComplete_keeps {x0} {x1} {x2} {x3} (h :
    Keeps s0 s) : ∃ t, execLinkIdentComplete x0 x1 x2 x3 s = .next t ∧ Keeps s0 t := by
  refine ⟨_, rfl, ?_⟩
  extract_lets +onlyGivenNames y1
  clear_value y1
  refine Keeps.ite ?_ ?_
  · exact h
  · extract_lets +onlyGivenNames y2
    clear_value y2
    refine Keeps.ite ?_ ?_
    · refine Keeps.ite ?_ ?_
      · exact h
      · refine linkEvent_keeps ?_
        refine setLink_keeps ?_
        exact h
    · refine Keeps.ite ?_ ?_
      · refine linkEvent_keeps ?_
        refine setLink_keeps ?_
        exact h
      · refine Keeps.ite ?_ ?_
        · refine linkEvent_keeps ?_
          refine setLink_keeps ?_
          exact h
        · refine linkEvent_keeps ?_
          refine setLink_keeps ?_
          exact h

theorem execFcvtW_keeps {x0} {x1} (h : Keeps s0 s) : ∃ t, execFcvtW x0 x1 s = .next t ∧ Keeps s0 t := by
  refine ⟨_, rfl, ?_⟩
  refine vecFp_keeps ?_
  exact h

theorem execLinkEnableWrite_keeps {x0} {x1} (h :
    Keeps s0 s) : ∃ t, execLinkEnableWrite x0 x1 s = .next t ∧ Keeps s0 t := by
  refine ⟨_, rfl, ?_⟩
  refine Keeps.ite ?_ ?_
  · refine linkCtrl_keeps ?_
    exact h
  · exact h

theorem execFirmwareRevert_keeps {x0} (h : Keeps s0 s) : ∃ t, execFirmwareRevert x0 s = .next t ∧ Keeps s0 t := by
  refine ⟨_, rfl, ?_⟩
  split
  · rename_i e1a e1b
    exact h
  · rename_i e2a e2b e2c
    refine Keeps.ite ?_ ?_
    · exact h
    · refine updateBack_keeps ?_
      exact h

theorem execAvgpool_keeps {x0} {x1} {x2} (h : Keeps s0 s) : ∃ t, execAvgpool x0 x1 x2 s = .next t ∧ Keeps s0 t := by
  refine ⟨_, rfl, ?_⟩
  refine convCmdAt_keeps ?_
  exact h

theorem execSub_keeps {x0} {x1} {x2} (h : Keeps s0 s) : ∃ t, execSub x0 x1 x2 s = .next t ∧ Keeps s0 t := by
  refine ⟨_, rfl, ?_⟩
  refine alu_keeps ?_
  exact h

theorem execSltu_keeps {x0} {x1} {x2} (h : Keeps s0 s) : ∃ t, execSltu x0 x1 x2 s = .next t ∧ Keeps s0 t := by
  refine ⟨_, rfl, ?_⟩
  refine alu_keeps ?_
  exact h

theorem execDieResetTimeout_keeps {x0} (h : Keeps s0 s) : ∃ t, execDieResetTimeout x0 s = .next t ∧ Keeps s0 t := by
  refine ⟨_, rfl, ?_⟩
  refine Keeps.ite ?_ ?_
  · refine dieOut_keeps ?_
    refine failWaiters_keeps ?_
    exact h
  · exact h

theorem execIsar_keeps {x0} {x1} (h : Keeps s0 s) : ∃ t, execIsar x0 x1 s = .next t ∧ Keeps s0 t := by
  refine ⟨_, rfl, ?_⟩
  refine vecInt_keeps ?_
  exact h

theorem execInfo_keeps {x0} {x1} {x2} (h : Keeps s0 s) : ∃ t, execInfo x0 x1 x2 s = .next t ∧ Keeps s0 t := by
  refine ⟨_, rfl, ?_⟩
  refine runMinor_keeps ?_ ?_
  · exact h
  · intro z1a h1
    extract_lets +onlyGivenNames y2
    clear_value y2
    refine setAt_keeps ?_
    exact h1

theorem execCodecPowerOff_keeps {x0} {x1} (h : Keeps s0 s) : ∃ t, execCodecPowerOff x0 x1 s = .next t ∧ Keeps s0 t := by
  refine ⟨_, rfl, ?_⟩
  extract_lets +onlyGivenNames y1
  clear_value y1
  refine Keeps.ite ?_ ?_
  · exact h
  · refine setMedia_keeps ?_
    exact h

theorem execViota_keeps {x0} {x1} (h : Keeps s0 s) : ∃ t, execViota x0 x1 s = .next t ∧ Keeps s0 t := by
  refine ⟨_, rfl, ?_⟩
  refine vec_keeps ?_
  exact h

theorem execRemoteAccessIn_keeps {x0} {x1} {x2} (h :
    Keeps s0 s) : ∃ t, execRemoteAccessIn x0 x1 x2 s = .next t ∧ Keeps s0 t := by
  refine ⟨_, rfl, ?_⟩
  refine Keeps.ite ?_ ?_
  · exact h
  · split
    · rename_i e1a e1b e1c
      extract_lets +onlyGivenNames y2
      clear_value y2
      split
      · rename_i e3a e3b
        refine notExported_keeps ?_
        exact h
      · rename_i e4a e4b e4c
        refine windowAccess_keeps ?_ ?_
        · exact h
        · intro z5a h5
          refine setAnswer_keeps ?_
          exact h5
    · rename_i e6a e6b e6c
      extract_lets +onlyGivenNames y7
      clear_value y7
      split
      · rename_i e8a e8b
        refine notExported_keeps ?_
        exact h
      · rename_i e9a e9b e9c
        refine windowAccess_keeps ?_ ?_
        · exact h
        · intro z10a h10
          refine setAnswer_keeps ?_
          refine write_keeps ?_
          exact h10
    · rename_i e11a e11b e11c
      extract_lets +onlyGivenNames y12
      clear_value y12
      split
      · rename_i e13a e13b
        refine notExported_keeps ?_
        exact h
      · rename_i e14a e14b e14c
        refine Keeps.ite ?_ ?_
        · refine Keeps.ite ?_ ?_
          · refine notExported_keeps ?_
            exact h
          · refine windowAccess_keeps ?_ ?_
            · exact h
            · intro z15a h15
              extract_lets +onlyGivenNames y16
              clear_value y16
              refine setAnswer_keeps ?_
              refine write_keeps ?_
              exact h15
        · extract_lets +onlyGivenNames y17
          clear_value y17
          extract_lets +onlyGivenNames y18
          clear_value y18
          refine setAnswer_keeps ?_
          refine remotePost_keeps ?_
          exact h

theorem execImul_keeps {x0} {x1} (h : Keeps s0 s) : ∃ t, execImul x0 x1 s = .next t ∧ Keeps s0 t := by
  refine ⟨_, rfl, ?_⟩
  refine vecInt_keeps ?_
  exact h

theorem execTierWhere_keeps {x0} {x1} (h : Keeps s0 s) : ∃ t, execTierWhere x0 x1 s = .next t ∧ Keeps s0 t := by
  refine ⟨_, rfl, ?_⟩
  refine run_keeps ?_ ?_
  · exact h
  · intro z1a h1
    extract_lets +onlyGivenNames y2
    clear_value y2
    refine setAt_keeps ?_
    exact h1

theorem execCoreCtxAllotWrite_keeps {x0} {x1} {x2} (h :
    Keeps s0 s) : ∃ t, execCoreCtxAllotWrite x0 x1 x2 s = .next t ∧ Keeps s0 t := by
  refine ⟨_, rfl, ?_⟩
  refine Keeps.ite ?_ ?_
  · exact h
  · refine writeAllot_keeps ?_
    exact h

theorem execTaccVrd_keeps {x0} {x1} {x2} (h : Keeps s0 s) : ∃ t, execTaccVrd x0 x1 x2 s = .next t ∧ Keeps s0 t := by
  refine ⟨_, rfl, ?_⟩
  refine run_keeps ?_ ?_
  · exact h
  · intro z1a h1
    extract_lets +onlyGivenNames y2
    clear_value y2
    extract_lets +onlyGivenNames y3
    clear_value y3
    refine setAt_keeps ?_
    exact h1

theorem execIshl_keeps {x0} {x1} (h : Keeps s0 s) : ∃ t, execIshl x0 x1 s = .next t ∧ Keeps s0 t := by
  refine ⟨_, rfl, ?_⟩
  refine vecInt_keeps ?_
  exact h

theorem execLinkRetrainReq_keeps {x0} (h : Keeps s0 s) : ∃ t, execLinkRetrainReq x0 s = .next t ∧ Keeps s0 t := by
  refine ⟨_, rfl, ?_⟩
  refine Keeps.ite ?_ ?_
  · refine retrainRequest_keeps ?_
    exact h
  · exact h

theorem execBiasSet_keeps {x0} (h : Keeps s0 s) : ∃ t, execBiasSet x0 s = .next t ∧ Keeps s0 t := by
  refine ⟨_, rfl, ?_⟩
  refine take_keeps ?_ ?_
  · exact h
  · intro z1a z1b z1c h1
    refine pfOnly_keeps ?_ ?_
    · exact h1
    · intro z2a h2
      refine flipNow_keeps ?_
      exact h2

theorem execVfEnableSet_keeps (h : Keeps s0 s) : ∃ t, execVfEnableSet  s = .next t ∧ Keeps s0 t := by
  refine ⟨_, rfl, ?_⟩
  refine Keeps.ite ?_ ?_
  · exact h
  · refine setHost_keeps ?_
    exact h

theorem execBunpkL_keeps {x0} {x1} (h : Keeps s0 s) : ∃ t, execBunpkL x0 x1 s = .next t ∧ Keeps s0 t := by
  refine ⟨_, rfl, ?_⟩
  refine vecFp_keeps ?_
  exact h

theorem execLinkRecalDrained_keeps {x0} (h : Keeps s0 s) : ∃ t, execLinkRecalDrained x0 s = .next t ∧ Keeps s0 t := by
  refine ⟨_, rfl, ?_⟩
  extract_lets +onlyGivenNames y1
  clear_value y1
  refine Keeps.ite ?_ ?_
  · exact h
  · extract_lets +onlyGivenNames y2
    have h2 : Keeps s0 y2 := by
      unfold y2
      refine linkEvent_keeps ?_
      refine setLink_keeps ?_
      exact h
    clear_value y2
    refine Keeps.foldl _ ?_ ?_
    · exact h2
    · intro z3a z3b h3
      refine recalStart_keeps ?_
      exact h3

theorem execVfFlr_keeps {x0} (h : Keeps s0 s) : ∃ t, execVfFlr x0 s = .next t ∧ Keeps s0 t := by
  refine ⟨_, rfl, ?_⟩
  refine Keeps.ite ?_ ?_
  · exact h
  · refine Keeps.ite ?_ ?_
    · extract_lets +onlyGivenNames y1
      have h1 : Keeps s0 y1 := by
        unfold y1
        refine Keeps.foldl _ ?_ ?_
        · exact h
        · intro z2a z2b h2
          refine orphanAll_keeps ?_
          refine resetFn_keeps ?_
          exact h2
      clear_value y1
      refine setHost_keeps ?_
      exact h1
    · refine orphanAll_keeps ?_
      refine resetFn_keeps ?_
      exact h

theorem execCodecFrame_keeps {x0} {x1} (h : Keeps s0 s) : ∃ t, execCodecFrame x0 x1 s = .next t ∧ Keeps s0 t := by
  refine ⟨_, rfl, ?_⟩
  extract_lets +onlyGivenNames y1
  clear_value y1
  extract_lets +onlyGivenNames y2
  clear_value y2
  refine Keeps.ite ?_ ?_
  · exact h
  · extract_lets +onlyGivenNames y3
    have h3 : Keeps s0 y3 := by
      unfold y3
      refine settleRecons_keeps ?_
      exact h
    clear_value y3
    split
    · rename_i e4a e4b
      exact h3
    · rename_i e5a e5b e5c
      extract_lets +onlyGivenNames y6
      clear_value y6
      extract_lets +onlyGivenNames y7
      have h7 : Keeps s0 y7 := by
        unfold y7
        refine setMedia_keeps ?_
        exact h3
      clear_value y7
      split
      · rename_i e8a e8b
        exact h7
      · rename_i e9a e9b e9c e9d
        refine decodeFrame_keeps ?_
        exact h7
      · rename_i e10a e10b e10c
        split
        · rename_i e11a e11b e11c
          refine setEnc_keeps ?_
          exact h7
        · rename_i e12a e12b
          exact h7

theorem execDebugChallenge_keeps {x0} (h : Keeps s0 s) : ∃ t, execDebugChallenge x0 s = .next t ∧ Keeps s0 t := by
  refine ⟨_, rfl, ?_⟩
  refine secRequest_keeps ?_ ?_
  · exact h
  · intro z1a h1
    extract_lets +onlyGivenNames y2
    clear_value y2
    extract_lets +onlyGivenNames y3
    have h3 : Keeps s0 y3 := by
      unfold y3
      with_reducible refine Keeps.same ?_
      exact h1
    clear_value y3
    refine reply_keeps ?_
    refine setSec_keeps ?_
    exact h3

theorem execConv_keeps {x0} {x1} {x2} (h : Keeps s0 s) : ∃ t, execConv x0 x1 x2 s = .next t ∧ Keeps s0 t := by
  refine ⟨_, rfl, ?_⟩
  refine convCmdAt_keeps ?_
  exact h

theorem execMove_keeps {x0} (h : Keeps s0 s) : ∃ t, execMove x0 s = .next t ∧ Keeps s0 t := by
  refine ⟨_, rfl, ?_⟩
  refine take_keeps ?_ ?_
  · exact h
  · intro z1a z1b z1c h1
    extract_lets +onlyGivenNames y2
    have h2 : ∀ z2a z2b z2c, Keeps s0 z2a → Keeps s0 (y2 z2a z2b z2c) := by
      unfold y2
      intro z3a z3b z3c h3
      extract_lets +onlyGivenNames y4
      clear_value y4
      refine finish_keeps ?_
      refine setQueue_keeps ?_
      exact h3
    clear_value y2
    split
    · rename_i e5a e5b
      refine h2 _ _ _ ?_
      exact h1
    · rename_i e6a e6b e6c
      extract_lets +onlyGivenNames y7
      clear_value y7
      split
      · rename_i e8a e8b e8c
        refine h2 _ _ _ ?_
        exact h1
      · rename_i e9a e9b
        refine Keeps.ite (h2 _ _ _ h1) ?_
        refine Keeps.ite (h2 _ _ _ (refuse_keeps h1)) ?_
        split
        · exact h2 _ _ _ (Keeps.ite (refuse_keeps h1) h1)
        · exact addSluice_keeps (complete_keeps h1)

theorem execSluiceSourceFree_keeps {x0} (h : Keeps s0 s) : ∃ t, execSluiceSourceFree x0 s = .next t ∧ Keeps s0 t := by
  refine ⟨_, rfl, ?_⟩
  extract_lets +onlyGivenNames y1
  clear_value y1
  refine Keeps.ite ?_ ?_
  · exact h
  · refine nextExtent_keeps ?_
    exact h

theorem execRouteLoad_keeps {x0} (h : Keeps s0 s) : ∃ t, execRouteLoad x0 s = .next t ∧ Keeps s0 t := by
  refine ⟨_, rfl, ?_⟩
  refine take_keeps ?_ ?_
  · exact h
  · intro z1a z1b z1c h1
    refine pfOnly_keeps ?_ ?_
    · exact h1
    · intro z2a h2
      refine Keeps.ite ?_ ?_
      · refine finish_keeps ?_
        exact h2
      · split
        · rename_i e3a e3b
          refine finish_keeps ?_
          exact h2
        · rename_i e4a e4b e4c
          extract_lets +onlyGivenNames y5
          clear_value y5
          refine finish_keeps ?_
          with_reducible refine Keeps.same ?_
          exact h2

theorem execAttest_keeps {x0} {x1} (h : Keeps s0 s) : ∃ t, execAttest x0 x1 s = .next t ∧ Keeps s0 t := by
  refine ⟨_, rfl, ?_⟩
  refine secRequest_keeps ?_ ?_
  · exact h
  · intro z1a h1
    refine Keeps.ite ?_ ?_
    · refine reply_keeps ?_
      exact h1
    · refine reply_keeps ?_
      exact h1

theorem execSuspendComplete_keeps {x0} {x1} {x2} (h :
    Keeps s0 s) : ∃ t, execSuspendComplete x0 x1 x2 s = .next t ∧ Keeps s0 t := by
  refine ⟨_, rfl, ?_⟩
  split
  · rename_i e1a
    refine jobSuspended_keeps ?_
    exact h
  · rename_i e2a
    extract_lets +onlyGivenNames y3
    clear_value y3
    refine Keeps.ite ?_ ?_
    · exact h
    · refine finishAll_keeps ?_
      refine setEnc_keeps ?_
      exact h
  · rename_i e4a
    extract_lets +onlyGivenNames y5
    clear_value y5
    refine Keeps.ite ?_ ?_
    · exact h
    · refine finishAll_keeps ?_
      refine setBq_keeps ?_
      exact h
  · rename_i e6a
    extract_lets +onlyGivenNames y7
    clear_value y7
    refine Keeps.ite ?_ ?_
    · exact h
    · refine finishAll_keeps ?_
      refine setSluice_keeps ?_
      exact h
  · rename_i e8a
    extract_lets +onlyGivenNames y9
    clear_value y9
    refine Keeps.ite ?_ ?_
    · exact h
    · refine finishAll_keeps ?_
      refine setTest_keeps ?_
      exact h
  · rename_i e10a
    extract_lets +onlyGivenNames y11
    clear_value y11
    split
    · rename_i e12a e12b e12c
      refine Keeps.ite ?_ ?_
      · exact h
      · refine finishAll_keeps ?_
        refine showRefresh_keeps ?_
        refine setJob_keeps ?_
        exact h
    · rename_i e13a e13b
      exact h
  · rename_i e14a e14b e14c e14d e14e e14f e14g
    exact h

theorem execInputReversed_keeps {x0} (h : Keeps s0 s) : ∃ t, execInputReversed x0 s = .next t ∧ Keeps s0 t := by
  refine ⟨_, rfl, ?_⟩
  refine Keeps.ite ?_ ?_
  · exact h
  · refine powerEvent_keeps ?_
    refine setPower_keeps ?_
    exact h

theorem execTaskMove_keeps {x0} {x1} (h : Keeps s0 s) : ∃ t, execTaskMove x0 x1 s = .next t ∧ Keeps s0 t := by
  refine ⟨_, rfl, ?_⟩
  extract_lets +onlyGivenNames y1
  clear_value y1
  extract_lets +onlyGivenNames y2
  clear_value y2
  refine Keeps.ite ?_ ?_
  · exact h
  · refine tryPlace_keeps ?_
    refine moveOff_keeps ?_
    exact h

theorem execDgelu_keeps {x0} {x1} (h : Keeps s0 s) : ∃ t, execDgelu x0 x1 s = .next t ∧ Keeps s0 t := by
  refine ⟨_, rfl, ?_⟩
  refine sfu_keeps ?_
  exact h

theorem execDecodeStart_keeps {x0} {x1} (h : Keeps s0 s) : ∃ t, execDecodeStart x0 x1 s = .next t ∧ Keeps s0 t := by
  refine ⟨_, rfl, ?_⟩
  extract_lets +onlyGivenNames y1
  have h1 : Keeps s0 y1 := by
    unfold y1
    refine takeFreed_keeps ?_
    exact h
  clear_value y1
  extract_lets +onlyGivenNames y2
  clear_value y2
  extract_lets +onlyGivenNames y3
  clear_value y3
  split
  · rename_i e4a e4b
    exact h1
  · rename_i e5a e5b e5c
    extract_lets +onlyGivenNames y6
    clear_value y6
    refine Keeps.ite ?_ ?_
    · exact h1
    · split
      · rename_i e7a e7b
        exact h1
      · rename_i e8a e8b e8c
        extract_lets +onlyGivenNames y9
        clear_value y9
        extract_lets +onlyGivenNames y10
        clear_value y10
        extract_lets +onlyGivenNames y11
        clear_value y11
        extract_lets +onlyGivenNames y12
        clear_value y12
        refine Keeps.ite ?_ ?_
        · refine setBq_keeps ?_
          exact h1
        · refine Keeps.ite ?_ ?_
          · exact h1
          · refine Keeps.ite ?_ ?_
            · refine setBq_keeps ?_
              exact h1
            · split
              · rename_i e13a e13b
                exact h1
              · rename_i e14a e14b e14c
                extract_lets +onlyGivenNames y15
                clear_value y15
                extract_lets +onlyGivenNames y16
                clear_value y16
                extract_lets +onlyGivenNames y17
                clear_value y17
                refine agentDo_keeps ?_ ?_
                · exact h1
                · intro z18a h18
                  extract_lets +onlyGivenNames y19
                  have h19 : Keeps s0 y19 := by
                    unfold y19
                    refine setBq_keeps ?_
                    refine setStream_keeps ?_
                    refine tick_keeps ?_
                    exact h18
                  clear_value y19
                  refine Keeps.ite ?_ ?_
                  · exact h19
                  · refine mediaEvent_keeps ?_
                    exact h19

theorem execBne_keeps {x0} {x1} (h : Keeps s0 s) : ∃ t, execBne x0 x1 s = .next t ∧ Keeps s0 t := by
  refine ⟨_, rfl, ?_⟩
  refine branch_keeps ?_
  exact h

theorem execPairOutputMismatch_keeps (h : Keeps s0 s) : ∃ t, execPairOutputMismatch  s = .next t ∧ Keeps s0 t := by
  refine ⟨_, rfl, ?_⟩
  refine Keeps.ite ?_ ?_
  · refine pairMismatch_keeps ?_
    exact h
  · exact h

theorem execTensorTileRun_keeps {x0} {x1} (h : Keeps s0 s) : ∃ t, execTensorTileRun x0 x1 s = .next t ∧ Keeps s0 t := by
  refine ⟨_, rfl, ?_⟩
  split
  · rename_i e1a e1b
    exact h
  · rename_i e2a e2b e2c
    extract_lets +onlyGivenNames y3
    clear_value y3
    extract_lets +onlyGivenNames y4
    have h4 : Keeps s0 y4 := by
      unfold y4
      refine served_keeps ?_
      exact h
    clear_value y4
    split
    · rename_i e5a e5b e5c
      split
      · rename_i e6a e6b e6c
        refine runTile_keeps ?_
        exact h4
      · rename_i e7a e7b
        exact h4
    · rename_i e8a e8b
      exact h4

theorem execArgmax_keeps {x0} {x1} (h : Keeps s0 s) : ∃ t, execArgmax x0 x1 s = .next t ∧ Keeps s0 t := by
  refine ⟨_, rfl, ?_⟩
  refine argReduce_keeps ?_
  exact h

theorem execFma_keeps {x0} {x1} (h : Keeps s0 s) : ∃ t, execFma x0 x1 s = .next t ∧ Keeps s0 t := by
  refine ⟨_, rfl, ?_⟩
  refine vec3_keeps ?_
  exact h

theorem execCorePowerOff_keeps {x0} (h : Keeps s0 s) : ∃ t, execCorePowerOff x0 s = .next t ∧ Keeps s0 t := by
  refine ⟨_, rfl, ?_⟩
  extract_lets +onlyGivenNames y1
  clear_value y1
  refine Keeps.ite ?_ ?_
  · exact h
  · refine setCore_keeps ?_
    exact h

theorem execPmPowerStateWrite_keeps {x0} {x1} (h :
    Keeps s0 s) : ∃ t, execPmPowerStateWrite x0 x1 s = .next t ∧ Keeps s0 t := by
  refine ⟨_, rfl, ?_⟩
  refine Keeps.ite ?_ ?_
  · exact h
  · extract_lets +onlyGivenNames y1
    clear_value y1
    extract_lets +onlyGivenNames y2
    have h2 : Keeps s0 y2 := by
      unfold y2
      refine setHost_keeps ?_
      exact h
    clear_value y2
    refine Keeps.ite ?_ ?_
    · exact h2
    · refine sendPending_keeps ?_
      exact h2

theorem execScalarStore_keeps {x0} {x1} {x2} (h :
    Keeps s0 s) : ∃ t, execScalarStore x0 x1 x2 s = .next t ∧ Keeps s0 t := by
  refine ⟨_, rfl, ?_⟩
  refine runMinor_keeps ?_ ?_
  · exact h
  · intro z1a h1
    extract_lets +onlyGivenNames y2
    clear_value y2
    extract_lets +onlyGivenNames y3
    clear_value y3
    extract_lets +onlyGivenNames y4
    clear_value y4
    extract_lets +onlyGivenNames y5
    clear_value y5
    refine Keeps.ite ?_ ?_
    · refine countClip_keeps ?_
      refine bufWrite_keeps ?_
      exact h1
    · refine devWrite_keeps ?_
      refine devSpend_keeps ?_
      exact h1

theorem execLanternRestartDone_keeps {x0} (h :
    Keeps s0 s) : ∃ t, execLanternRestartDone x0 s = .next t ∧ Keeps s0 t := by
  refine ⟨_, rfl, ?_⟩
  refine Keeps.ite ?_ ?_
  · exact h
  · extract_lets +onlyGivenNames y1
    clear_value y1
    extract_lets +onlyGivenNames y2
    have h2 : Keeps s0 y2 := by
      unfold y2
      refine setDep_keeps ?_
      exact h
    clear_value y2
    refine Keeps.ite ?_ ?_
    · refine rewalkRegion_keeps ?_
      exact h2
    · refine Keeps.ite ?_ ?_
      · refine stopSluices_keeps ?_
        exact h2
      · exact h2

theorem execPageWaitLimit_keeps {x0} (h : Keeps s0 s) : ∃ t, execPageWaitLimit x0 s = .next t ∧ Keeps s0 t := by
  refine ⟨_, rfl, ?_⟩
  split
  · rename_i e1a e1b
    exact h
  · rename_i e2a e2b e2c e2d e2e
    refine Keeps.ite ?_ ?_
    · refine fetchTimeout_keeps ?_
      exact h
    · exact h

theorem execMgmtBusRecovered_keeps {x0} (h : Keeps s0 s) : ∃ t, execMgmtBusRecovered x0 s = .next t ∧ Keeps s0 t := by
  refine ⟨_, rfl, ?_⟩
  refine Keeps.ite ?_ ?_
  · refine powerEvent_keeps ?_
    exact h
  · exact h

theorem execPfirst_keeps {x0} {x1} (h : Keeps s0 s) : ∃ t, execPfirst x0 x1 s = .next t ∧ Keeps s0 t := by
  refine ⟨_, rfl, ?_⟩
  refine vecSlotOp_keeps ?_
  exact h

theorem execLinkTrainAttemptTimeout_keeps {x0} (h :
    Keeps s0 s) : ∃ t, execLinkTrainAttemptTimeout x0 s = .next t ∧ Keeps s0 t := by
  refine ⟨_, rfl, ?_⟩
  refine Keeps.ite ?_ ?_
  · refine setLink_keeps ?_
    exact h
  · exact h

theorem execHostAccessTimeout_keeps {x0} (h : Keeps s0 s) : ∃ t, execHostAccessTimeout x0 s = .next t ∧ Keeps s0 t := by
  refine ⟨_, rfl, ?_⟩
  split
  · rename_i e1a e1b e1c
    extract_lets +onlyGivenNames y2
    clear_value y2
    refine Keeps.ite ?_ ?_
    · refine faultJob_keeps ?_
      refine stopSlot_keeps ?_
      refine coreEvent_keeps ?_
      exact h
    · exact h
  · rename_i e3a e3b
    exact h

theorem execFence_keeps {x0} {x1} (h : Keeps s0 s) : ∃ t, execFence x0 x1 s = .next t ∧ Keeps s0 t := by
  refine ⟨_, rfl, ?_⟩
  refine run_keeps ?_ ?_
  · exact h
  · intro z1a h1
    exact h1

theorem execVtrans32_keeps {x0} {x1} (h : Keeps s0 s) : ∃ t, execVtrans32 x0 x1 s = .next t ∧ Keeps s0 t := by
  refine ⟨_, rfl, ?_⟩
  refine permute_keeps ?_
  exact h

theorem execPageFetchDeadline_keeps {x0} (h : Keeps s0 s) : ∃ t, execPageFetchDeadline x0 s = .next t ∧ Keeps s0 t := by
  refine ⟨_, rfl, ?_⟩
  split
  · rename_i e1a e1b
    exact h
  · rename_i e2a e2b e2c e2d e2e
    extract_lets +onlyGivenNames y3
    clear_value y3
    extract_lets +onlyGivenNames y4
    clear_value y4
    refine Keeps.ite ?_ ?_
    · exact h
    · refine Keeps.ite ?_ ?_
      · extract_lets +onlyGivenNames y5
        have h5 : Keeps s0 y5 := by
          unfold y5
          refine postEachSecond_keeps ?_
          refine stat_keeps ?_
          exact h
        clear_value y5
        refine putAttn_keeps ?_
        exact h5
      · extract_lets +onlyGivenNames y6
        have h6 : Keeps s0 y6 := by
          unfold y6
          refine stat_keeps ?_
          exact h
        clear_value y6
        refine Keeps.ite ?_ ?_
        · refine fetchTimeout_keeps ?_
          exact h6
        · refine putAttn_keeps ?_
          exact h6

theorem execPnot_keeps {x0} {x1} (h : Keeps s0 s) : ∃ t, execPnot x0 x1 s = .next t ∧ Keeps s0 t := by
  refine ⟨_, rfl, ?_⟩
  refine vecSlotOp_keeps ?_
  exact h

theorem execVldW_keeps {x0} {x1} (h : Keeps s0 s) : ∃ t, execVldW x0 x1 s = .next t ∧ Keeps s0 t := by
  refine ⟨_, rfl, ?_⟩
  refine vectorLoad_keeps ?_
  exact h

theorem execDikeRegisterWrite_keeps {x0} {x1} {x2} {x3} (h :
    Keeps s0 s) : ∃ t, execDikeRegisterWrite x0 x1 x2 x3 s = .next t ∧ Keeps s0 t := by
  refine ⟨_, rfl, ?_⟩
  refine Keeps.ite ?_ ?_
  · refine dikePut_keeps ?_
    exact h
  · exact h

theorem execOvercurrentTrip_keeps {x0} (h : Keeps s0 s) : ∃ t, execOvercurrentTrip x0 s = .next t ∧ Keeps s0 t := by
  refine ⟨_, rfl, ?_⟩
  refine Keeps.ite ?_ ?_
  · exact h
  · refine throttleStep_keeps ?_
    exact h

theorem execPageShare_keeps {x0} {x1} {x2} (h : Keeps s0 s) : ∃ t, execPageShare x0 x1 x2 s = .next t ∧ Keeps s0 t := by
  refine ⟨_, rfl, ?_⟩
  refine pageOp_keeps ?_ ?_
  · exact h
  · intro z1a h1
    refine pageShare_keeps ?_
    exact h1

theorem execSll_keeps {x0} {x1} {x2} (h : Keeps s0 s) : ∃ t, execSll x0 x1 x2 s = .next t ∧ Keeps s0 t := by
  refine ⟨_, rfl, ?_⟩
  refine alu_keeps ?_
  exact h

theorem execEncClose_keeps {x0} (h : Keeps s0 s) : ∃ t, execEncClose x0 s = .next t ∧ Keeps s0 t := by
  refine ⟨_, rfl, ?_⟩
  refine take_keeps ?_ ?_
  · exact h
  · intro z1a z1b z1c h1
    extract_lets +onlyGivenNames y2
    clear_value y2
    extract_lets +onlyGivenNames y3
    clear_value y3
    refine Keeps.ite ?_ ?_
    · refine finish_keeps ?_
      exact h1
    · refine Keeps.ite ?_ ?_
      · refine finish_keeps ?_
        refine refuse_keeps ?_
        exact h1
      · refine Keeps.ite ?_ ?_
        · refine finish_keeps ?_
          exact h1
        · refine setEnc_keeps ?_
          exact h1

theorem execMaxpool_keeps {x0} {x1} {x2} (h : Keeps s0 s) : ∃ t, execMaxpool x0 x1 x2 s = .next t ∧ Keeps s0 t := by
  refine ⟨_, rfl, ?_⟩
  refine convCmdAt_keeps ?_
  exact h

theorem execResume_keeps {x0} (h : Keeps s0 s) : ∃ t, execResume x0 s = .next t ∧ Keeps s0 t := by
  refine ⟨_, rfl, ?_⟩
  refine take_keeps ?_ ?_
  · exact h
  · intro z1a z1b z1c h1
    refine control_keeps ?_
    exact h1

theorem execQueueDisable_keeps {x0} {x1} (h : Keeps s0 s) : ∃ t, execQueueDisable x0 x1 s = .next t ∧ Keeps s0 t := by
  refine ⟨_, rfl, ?_⟩
  split
  · rename_i e1a e1b e1c
    refine ownWrite_keeps ?_
    exact h
  · rename_i e2a e2b
    exact h

theorem execExp_keeps {x0} {x1} (h : Keeps s0 s) : ∃ t, execExp x0 x1 s = .next t ∧ Keeps s0 t := by
  refine ⟨_, rfl, ?_⟩
  refine sfu_keeps ?_
  exact h

theorem execTierDown_keeps {x0} {x1} (h : Keeps s0 s) : ∃ t, execTierDown x0 x1 s = .next t ∧ Keeps s0 t := by
  refine ⟨_, rfl, ?_⟩
  refine tierHint_keeps ?_
  exact h

theorem execDsoftplus_keeps {x0} {x1} (h : Keeps s0 s) : ∃ t, execDsoftplus x0 x1 s = .next t ∧ Keeps s0 t := by
  refine ⟨_, rfl, ?_⟩
  refine sfu_keeps ?_
  exact h

theorem execSfuTableFlip_keeps {x0} (h : Keeps s0 s) : ∃ t, execSfuTableFlip x0 s = .next t ∧ Keeps s0 t := by
  refine ⟨_, rfl, ?_⟩
  extract_lets +onlyGivenNames y1
  clear_value y1
  extract_lets +onlyGivenNames y2
  clear_value y2
  refine Keeps.ite ?_ ?_
  · exact h
  · extract_lets +onlyGivenNames y3
    clear_value y3
    extract_lets +onlyGivenNames y4
    have h4 : Keeps s0 y4 := by
      unfold y4
      refine setCore_keeps ?_
      exact h
    clear_value y4
    refine Keeps.ite ?_ ?_
    · exact h4
    · extract_lets +onlyGivenNames y5
      clear_value y5
      extract_lets +onlyGivenNames y6
      have h6 : Keeps s0 y6 := by
        unfold y6
        refine Keeps.foldl _ ?_ ?_
        · exact h4
        · intro z7a z7b h7
          extract_lets +onlyGivenNames y8
          clear_value y8
          refine setCore_keeps ?_
          exact h7
      clear_value y6
      refine tableStart_keeps ?_
      refine tableEvent_keeps ?_
      refine setRegion_keeps ?_
      exact h6

theorem execJobManagerOpen_keeps (h : Keeps s0 s) : ∃ t, execJobManagerOpen  s = .next t ∧ Keeps s0 t := by
  refine ⟨_, rfl, ?_⟩
  refine Keeps.ite ?_ ?_
  · exact h
  · extract_lets +onlyGivenNames y1
    clear_value y1
    extract_lets +onlyGivenNames y2
    have h2 : Keeps s0 y2 := by
      unfold y2
      with_reducible refine Keeps.same ?_
      exact h
    clear_value y2
    refine post_keeps ?_
    refine completePhase_keeps ?_
    exact h2

theorem execStartupLinkTrain_keeps (h : Keeps s0 s) : ∃ t, execStartupLinkTrain  s = .next t ∧ Keeps s0 t := by
  refine ⟨_, rfl, ?_⟩
  refine Keeps.ite ?_ ?_
  · exact h
  · extract_lets +onlyGivenNames y1
    have h1 : Keeps s0 y1 := by
      unfold y1
      refine Keeps.foldl _ ?_ ?_
      · exact h
      · intro z2a z2b h2
        refine Keeps.ite ?_ ?_
        · refine setLink_keeps ?_
          exact h2
        · exact h2
    clear_value y1
    refine completePhase_keeps ?_
    exact h1

theorem execRcRegisterRead_keeps {x0} {x1} {x2} (h :
    Keeps s0 s) : ∃ t, execRcRegisterRead x0 x1 x2 s = .next t ∧ Keeps s0 t := by
  refine ⟨_, rfl, ?_⟩
  refine readReg_keeps ?_
  exact h

theorem execHubHeartbeatTimeout_keeps (h : Keeps s0 s) : ∃ t, execHubHeartbeatTimeout  s = .next t ∧ Keeps s0 t := by
  refine ⟨_, rfl, ?_⟩
  refine Keeps.ite ?_ ?_
  · exact h
  · refine warmReset_keeps ?_
    refine tick_keeps ?_
    refine post_keeps ?_
    exact h

theorem execPerstAssert_keeps (h : Keeps s0 s) : ∃ t, execPerstAssert  s = .next t ∧ Keeps s0 t := by
  refine ⟨_, rfl, ?_⟩
  extract_lets +onlyGivenNames y1
  have h1 : Keeps s0 y1 := by
    unfold y1
    refine warmReset_keeps ?_
    exact h
  clear_value y1
  refine setHost_keeps ?_
  exact h1

theorem execFmax_keeps {x0} {x1} (h : Keeps s0 s) : ∃ t, execFmax x0 x1 s = .next t ∧ Keeps s0 t := by
  refine ⟨_, rfl, ?_⟩
  refine vecFp_keeps ?_
  exact h

theorem execVzip_keeps {x0} {x1} (h : Keeps s0 s) : ∃ t, execVzip x0 x1 s = .next t ∧ Keeps s0 t := by
  refine ⟨_, rfl, ?_⟩
  refine permute_keeps ?_
  exact h

theorem execMcopy_keeps {x0} {x1} (h : Keeps s0 s) : ∃ t, execMcopy x0 x1 s = .next t ∧ Keeps s0 t := by
  refine ⟨_, rfl, ?_⟩
  refine run_keeps ?_ ?_
  · exact h
  · intro z1a h1
    extract_lets +onlyGivenNames y2
    clear_value y2
    extract_lets +onlyGivenNames y3
    clear_value y3
    extract_lets +onlyGivenNames y4
    clear_value y4
    extract_lets +onlyGivenNames y5
    clear_value y5
    extract_lets +onlyGivenNames y6
    clear_value y6
    extract_lets +onlyGivenNames y7
    have h7 : Keeps s0 y7 := by
      unfold y7
      refine passFree_keeps ?_
      refine devSpend_keeps ?_
      refine devSpend_keeps ?_
      exact h1
    clear_value y7
    refine duePost_keeps ?_
    refine countDma_keeps ?_
    refine emulateTier_keeps ?_
    refine emulateTier_keeps ?_
    refine devWrite_keeps ?_
    exact h7

theorem markExtent_keeps {x0} {x1} {x2} (h : Keeps s0 s) : Keeps s0 (s.markExtent x0 x1 x2) := by
  delta State.markExtent
  extract_lets y m t
  refine setSluice_keeps (setHome_keeps ⟨h.1, h.2, fun hm => ?_⟩)
  have hw := h.3 hm
  simp only [Mem.wf, Bool.and_eq_true] at hw ⊢
  exact ⟨⟨⟨⟨⟨⟨⟨hw.1.1.1.1.1.1.1, hw.1.1.1.1.1.1.2⟩, hw.1.1.1.1.1.2⟩, mapSet_wf hw.1.1.1.1.2 _ _⟩, hw.1.1.1.2⟩, hw.1.1.2⟩, hw.1.2⟩, hw.2⟩

theorem heldOr_keeps {p o} (h : Keeps s0 s) (ht : Keeps s0 t) : Keeps s0 (s.heldOr p o t) := by
  delta State.heldOr
  split
  · exact setDike_keeps h
  · exact ht

theorem beginExtent_keeps {x0} {x1} {x2} (h : Keeps s0 s) : Keeps s0 (s.beginExtent x0 x1 x2) := by
  delta State.beginExtent
  extract_lets t u
  exact heldOr_keeps h (charge_keeps (markExtent_keeps h))

theorem execSluiceMark_keeps {x} (h : Keeps s0 s) : ∃ t, execSluiceMark x s = .next t ∧ Keeps s0 t := by
  refine ⟨_, rfl, ?_⟩
  extract_lets +onlyGivenNames v
  clear_value v
  refine Keeps.ite h ?_
  extract_lets +onlyGivenNames y m o ok dest
  clear_value dest
  split
  · exact nextExtent_keeps h
  · exact beginExtent_keeps h

theorem execRefreshStageFlip_keeps {x0} {x1} (h :
    Keeps s0 s) : ∃ t, execRefreshStageFlip x0 x1 s = .next t ∧ Keeps s0 t := by
  refine ⟨_, rfl, ?_⟩
  extract_lets +onlyGivenNames y1
  clear_value y1
  split
  · rename_i e2a e2b e2c e2d e2e e2f
    refine Keeps.ite ?_ ?_
    · exact h
    · extract_lets +onlyGivenNames y3
      clear_value y3
      extract_lets +onlyGivenNames y4
      clear_value y4
      extract_lets +onlyGivenNames y5
      clear_value y5
      extract_lets +onlyGivenNames y6
      clear_value y6
      extract_lets +onlyGivenNames y7
      have h7 : Keeps s0 y7 := by
        unfold y7
        refine setJob_keeps ?_
        exact h
      clear_value y7
      extract_lets +onlyGivenNames y8
      have h8 : Keeps s0 y8 := by
        unfold y8
        refine semValue_keeps ?_
        exact h7
      clear_value y8
      extract_lets +onlyGivenNames y9
      have h9 : Keeps s0 y9 := by
        unfold y9
        refine putRcb_keeps ?_
        refine putEpoch_keeps ?_
        exact h8
      clear_value y9
      refine Keeps.ite ?_ ?_
      · exact h9
      · refine releaseFlip_keeps ?_
        exact h9
  · rename_i e10a e10b e10c
    exact h

theorem execSensorSample_keeps {x0} {x1} (h : Keeps s0 s) : ∃ t, execSensorSample x0 x1 s = .next t ∧ Keeps s0 t := by
  refine ⟨_, rfl, ?_⟩
  refine Keeps.ite ?_ ?_
  · exact h
  · extract_lets +onlyGivenNames y1
    clear_value y1
    extract_lets +onlyGivenNames y2
    clear_value y2
    extract_lets +onlyGivenNames y3
    clear_value y3
    extract_lets +onlyGivenNames y4
    clear_value y4
    extract_lets +onlyGivenNames y5
    have h5 : Keeps s0 y5 := by
      unfold y5
      refine setPower_keeps ?_
      exact h
    clear_value y5
    extract_lets +onlyGivenNames y6
    have h6 : Keeps s0 y6 := by
      unfold y6
      refine sensorFault_keeps ?_
      refine sensorFault_keeps ?_
      exact h5
    clear_value y6
    extract_lets +onlyGivenNames y7
    have h7 : Keeps s0 y7 := by
      unfold y7
      refine Keeps.ite ?_ ?_
      · refine postEachMinute_keeps ?_
        exact h6
      · exact h6
    clear_value y7
    refine Keeps.ite ?_ ?_
    · refine postEachMinute_keeps ?_
      exact h7
    · exact h7

theorem execCodeUnload_keeps {x0} (h : Keeps s0 s) : ∃ t, execCodeUnload x0 s = .next t ∧ Keeps s0 t := by
  refine ⟨_, rfl, ?_⟩
  refine take_keeps ?_ ?_
  · exact h
  · intro z1a z1b z1c h1
    extract_lets +onlyGivenNames y2
    clear_value y2
    extract_lets +onlyGivenNames y3
    clear_value y3
    refine Keeps.ite ?_ ?_
    · refine finish_keeps ?_
      exact h1
    · refine Keeps.ite ?_ ?_
      · refine finish_keeps ?_
        refine refuse_keeps ?_
        exact h1
      · refine Keeps.ite ?_ ?_
        · refine finish_keeps ?_
          exact h1
        · refine finish_keeps ?_
          refine unload_keeps ?_
          exact h1

theorem execSampleRequestTake_keeps {x0} (h : Keeps s0 s) : ∃ t, execSampleRequestTake x0 s = .next t ∧ Keeps s0 t := by
  refine ⟨_, rfl, ?_⟩
  extract_lets +onlyGivenNames y1
  clear_value y1
  extract_lets +onlyGivenNames y2
  clear_value y2
  refine Keeps.ite ?_ ?_
  · exact h
  · extract_lets +onlyGivenNames y3
    clear_value y3
    refine agentDo_keeps ?_ ?_
    · exact h
    · intro z4a h4
      extract_lets +onlyGivenNames y5
      clear_value y5
      extract_lets +onlyGivenNames y6
      clear_value y6
      extract_lets +onlyGivenNames y7
      have h7 : Keeps s0 y7 := by
        unfold y7
        refine tick_keeps ?_
        refine takePost_keeps ?_
        exact h4
      clear_value y7
      extract_lets +onlyGivenNames y8
      clear_value y8
      extract_lets +onlyGivenNames y9
      clear_value y9
      extract_lets +onlyGivenNames y10
      have h10 : Keeps s0 y10 := by
        unfold y10
        refine setBq_keeps ?_
        exact h7
      clear_value y10
      refine Keeps.ite ?_ ?_
      · exact h10
      · refine mediaEvent_keeps ?_
        exact h10

theorem execRelease_keeps {x0} (h : Keeps s0 s) : ∃ t, execRelease x0 s = .next t ∧ Keeps s0 t := by
  refine ⟨_, rfl, ?_⟩
  refine take_keeps ?_ ?_
  · exact h
  · intro z1a z1b z1c h1
    extract_lets +onlyGivenNames y2
    clear_value y2
    extract_lets +onlyGivenNames y3
    clear_value y3
    refine Keeps.ite ?_ ?_
    · refine finish_keeps ?_
      exact h1
    · refine Keeps.ite ?_ ?_
      · refine finish_keeps ?_
        refine refuse_keeps ?_
        exact h1
      · refine Keeps.ite (finish_keeps h1) ?_
        refine Keeps.ite ?_ ?_
        · refine finish_keeps ?_
          refine settleJobId_keeps ?_
          refine destroyObj_keeps ?_
          exact h1
        · split
          · rename_i e4a e4b
            refine finish_keeps ?_
            exact h1
          · rename_i e6a e6b e6c
            have h7 := returnAll_keeps (by assumption) e6c
            refine finish_keeps ?_
            refine settleJobId_keeps ?_
            refine setObj_keeps ?_
            exact h7

theorem execStripedStagePlace_keeps {x0} {x1} (h :
    Keeps s0 s) : ∃ t, execStripedStagePlace x0 x1 s = .next t ∧ Keeps s0 t := by
  refine ⟨_, rfl, ?_⟩
  refine Keeps.ite ?_ ?_
  · exact h
  · split
    · rename_i e1a e1b e1c e1d
      have h2 := firstPlaced_keeps (by assumption) e1d
      refine Keeps.ite ?_ ?_
      · extract_lets +onlyGivenNames y3
        clear_value y3
        refine setJob_keeps ?_
        exact h2
      · exact h
    · rename_i e4a e4b
      exact h

theorem execTaccZero_keeps {x0} {x1} {x2} (h : Keeps s0 s) : ∃ t, execTaccZero x0 x1 x2 s = .next t ∧ Keeps s0 t := by
  refine ⟨_, rfl, ?_⟩
  refine run_keeps ?_ ?_
  · exact h
  · intro z1a h1
    extract_lets +onlyGivenNames y2
    clear_value y2
    refine accWrite_keeps ?_
    exact h1

theorem execCmpNe_keeps {x0} {x1} (h : Keeps s0 s) : ∃ t, execCmpNe x0 x1 s = .next t ∧ Keeps s0 t := by
  refine ⟨_, rfl, ?_⟩
  refine vecCmp_keeps ?_
  exact h

theorem execImax_keeps {x0} {x1} (h : Keeps s0 s) : ∃ t, execImax x0 x1 s = .next t ∧ Keeps s0 t := by
  refine ⟨_, rfl, ?_⟩
  refine vecInt_keeps ?_
  exact h

theorem execGetCerts_keeps {x0} (h : Keeps s0 s) : ∃ t, execGetCerts x0 s = .next t ∧ Keeps s0 t := by
  refine ⟨_, rfl, ?_⟩
  refine secRequest_keeps ?_ ?_
  · exact h
  · intro z1a h1
    extract_lets +onlyGivenNames y2
    clear_value y2
    refine reply_keeps ?_
    exact h1

theorem execSampleComplete_keeps {x0} {x1} (h :
    Keeps s0 s) : ∃ t, execSampleComplete x0 x1 s = .next t ∧ Keeps s0 t := by
  refine ⟨_, rfl, ?_⟩
  split
  · rename_i e1a e1b
    exact h
  · rename_i e2a e2b e2c
    refine Keeps.ite ?_ ?_
    · exact h
    · refine writeSamples_keeps ?_
      exact h

theorem execCmpLtu_keeps {x0} {x1} (h : Keeps s0 s) : ∃ t, execCmpLtu x0 x1 s = .next t ∧ Keeps s0 t := by
  refine ⟨_, rfl, ?_⟩
  refine vecCmp_keeps ?_
  exact h

theorem execPand_keeps {x0} {x1} (h : Keeps s0 s) : ∃ t, execPand x0 x1 s = .next t ∧ Keeps s0 t := by
  refine ⟨_, rfl, ?_⟩
  refine vecSlotOp_keeps ?_
  exact h

theorem execDieFirmwareSwitch_keeps {x0} (h : Keeps s0 s) : ∃ t, execDieFirmwareSwitch x0 s = .next t ∧ Keeps s0 t := by
  refine ⟨_, rfl, ?_⟩
  split
  · rename_i e1a e1b
    exact h
  · rename_i e2a e2b e2c
    refine Keeps.ite ?_ ?_
    · exact h
    · split
      · rename_i e3a e3b e3c e3d
        have h4 := switchImage_pair (by assumption) e3d
        extract_lets +onlyGivenNames y5
        clear_value y5
        extract_lets +onlyGivenNames y6
        clear_value y6
        refine lanternEvent_keeps ?_
        refine setDep_keeps ?_
        exact h4

theorem execFecRateWindow_keeps {x0} {x1} {x2} (h :
    Keeps s0 s) : ∃ t, execFecRateWindow x0 x1 x2 s = .next t ∧ Keeps s0 t := by
  refine ⟨_, rfl, ?_⟩
  extract_lets +onlyGivenNames y1
  clear_value y1
  refine Keeps.ite ?_ ?_
  · extract_lets +onlyGivenNames y2
    have h2 : Keeps s0 y2 := by
      unfold y2
      refine setLink_keeps ?_
      exact h
    clear_value y2
    refine Keeps.ite ?_ ?_
    · refine retrain_keeps ?_
      exact h2
    · exact h2
  · exact h

theorem execCoreTest_keeps {x0} {x1} (h : Keeps s0 s) : ∃ t, execCoreTest x0 x1 s = .next t ∧ Keeps s0 t := by
  refine ⟨_, rfl, ?_⟩
  extract_lets +onlyGivenNames y1
  clear_value y1
  extract_lets +onlyGivenNames y2
  clear_value y2
  refine Keeps.ite ?_ ?_
  · exact h
  · refine Keeps.ite ?_ ?_
    · split
      · rename_i e3a e3b
        refine unitDone_keeps ?_
        exact h
      · rename_i e4a
        exact h
    · refine Keeps.ite ?_ ?_
      · exact h
      · extract_lets +onlyGivenNames y5
        clear_value y5
        extract_lets +onlyGivenNames y6
        clear_value y6
        extract_lets +onlyGivenNames y7
        have h7 : Keeps s0 y7 := by
          unfold y7
          refine setCore_keeps ?_
          exact h
        clear_value y7
        extract_lets +onlyGivenNames y8
        have h8 : Keeps s0 y8 := by
          unfold y8
          refine coreTested_keeps ?_
          refine emptyCore_keeps ?_
          exact h7
        clear_value y8
        split
        · rename_i e9a e9b
          refine unitDone_keeps ?_
          exact h8
        · rename_i e10a
          exact h8

theorem execEventData7Read_keeps {x0} (h : Keeps s0 s) : ∃ t, execEventData7Read x0 s = .next t ∧ Keeps s0 t := by
  refine ⟨_, rfl, ?_⟩
  extract_lets +onlyGivenNames y1
  clear_value y1
  refine Keeps.ite ?_ ?_
  · exact h
  · refine Keeps.ite ?_ ?_
    · refine setEv_keeps ?_
      refine answerReg_keeps ?_
      exact h
    · refine Keeps.ite ?_ ?_
      · refine setEv_keeps ?_
        refine answerReg_keeps ?_
        exact h
      · refine answerReg_keeps ?_
        exact h

theorem execRefreshTimerExpiry_keeps {x0} (h :
    Keeps s0 s) : ∃ t, execRefreshTimerExpiry x0 s = .next t ∧ Keeps s0 t := by
  refine ⟨_, rfl, ?_⟩
  extract_lets +onlyGivenNames y1
  clear_value y1
  split
  · rename_i e2a e2b e2c e2d e2e e2f
    refine Keeps.ite ?_ ?_
    · exact h
    · refine faultJob_keeps ?_
      refine refreshEvent_keeps ?_
      refine abandonRefresh_keeps ?_
      exact h
  · rename_i e3a e3b e3c
    exact h

theorem execDieBackInService_keeps {x0} (h : Keeps s0 s) : ∃ t, execDieBackInService x0 s = .next t ∧ Keeps s0 t := by
  refine ⟨_, rfl, ?_⟩
  extract_lets +onlyGivenNames y1
  clear_value y1
  refine Keeps.ite ?_ ?_
  · exact h
  · extract_lets +onlyGivenNames y2
    have h2 : Keeps s0 y2 := by
      unfold y2
      refine setDie_keeps ?_
      exact h
    clear_value y2
    refine Keeps.ite ?_ ?_
    · extract_lets +onlyGivenNames y3
      clear_value y3
      extract_lets +onlyGivenNames y4
      have h4 : Keeps s0 y4 := by
        unfold y4
        refine setRegion_keeps ?_
        exact h2
      clear_value y4
      refine setRegion_keeps ?_
      exact h4
    · exact h2

theorem execMemEccError_keeps {p c} (h : Keeps s0 s) : ∃ t, execMemEccError p c s = .next t ∧ Keeps s0 t := by
  refine ⟨_, rfl, ?_⟩
  split
  · refine Keeps.ite h (Keeps.ite (memCorrected_keeps h) (h.withMem fun hm => ?_))
    simp only [Mem.wf, Bool.and_eq_true] at hm ⊢
    simp only [hm, mapSet_wf, and_self]
  · exact Keeps.ite h (Keeps.ite (memCorrected_keeps h) (loseEntry_keeps h))

theorem execJal_keeps {x0} {x1} (h : Keeps s0 s) : ∃ t, execJal x0 x1 s = .next t ∧ Keeps s0 t := by
  refine ⟨_, rfl, ?_⟩
  refine transfer_keeps ?_
  exact h

theorem execCollAlltoall_keeps {x0} {x1} (h : Keeps s0 s) : ∃ t, execCollAlltoall x0 x1 s = .next t ∧ Keeps s0 t := by
  refine ⟨_, rfl, ?_⟩
  refine collIssue_keeps ?_
  exact h

theorem execEventSelectWrite_keeps {x0} (h : Keeps s0 s) : ∃ t, execEventSelectWrite x0 s = .next t ∧ Keeps s0 t := by
  refine ⟨_, rfl, ?_⟩
  refine Keeps.ite ?_ ?_
  · refine eventSelect_keeps ?_
    exact h
  · exact h

theorem execCachesetDestroy_keeps {x0} (h : Keeps s0 s) : ∃ t, execCachesetDestroy x0 s = .next t ∧ Keeps s0 t := by
  refine ⟨_, rfl, ?_⟩
  refine take_keeps ?_ ?_
  · exact h
  · intro z1a z1b z1c h1
    extract_lets +onlyGivenNames y2
    clear_value y2
    refine Keeps.ite ?_ ?_
    · refine finish_keeps ?_
      exact h1
    · refine Keeps.ite ?_ ?_
      · refine finish_keeps ?_
        refine refuse_keeps ?_
        exact h1
      · refine Keeps.ite ?_ ?_
        · refine finish_keeps ?_
          exact h1
        · refine finish_keeps ?_
          refine dropSet_keeps ?_
          exact h1

theorem execDmaBb_keeps {x0} {x1} (h : Keeps s0 s) : ∃ t, execDmaBb x0 x1 s = .next t ∧ Keeps s0 t := by
  refine ⟨_, rfl, ?_⟩
  refine run_keeps ?_ ?_
  · exact h
  · intro z1a h1
    extract_lets +onlyGivenNames y2
    clear_value y2
    extract_lets +onlyGivenNames y3
    clear_value y3
    extract_lets +onlyGivenNames y4
    clear_value y4
    extract_lets +onlyGivenNames y5
    clear_value y5
    extract_lets +onlyGivenNames y6
    clear_value y6
    extract_lets +onlyGivenNames y7
    clear_value y7
    extract_lets +onlyGivenNames y8
    clear_value y8
    extract_lets +onlyGivenNames y9
    clear_value y9
    refine duePost_keeps ?_
    refine countDma_keeps ?_
    refine countClip_keeps ?_
    refine bufWrite_keeps ?_
    exact h1

theorem execPageDrop_keeps {x0} {x1} {x2} (h : Keeps s0 s) : ∃ t, execPageDrop x0 x1 x2 s = .next t ∧ Keeps s0 t := by
  refine ⟨_, rfl, ?_⟩
  refine pageOp_keeps ?_ ?_
  · exact h
  · intro z1a h1
    dsimp only
    refine Keeps.foldl _ ?_ ?_
    · exact h1
    · intro z2a z2b h2
      refine Keeps.ite ?_ ?_
      · refine dropRef_keeps ?_
        refine setEntry_keeps ?_
        exact h2
      · refine setEntry_keeps ?_
        exact h2

theorem execDbSqTail_keeps {x0} {x1} {x2} (h : Keeps s0 s) : ∃ t, execDbSqTail x0 x1 x2 s = .next t ∧ Keeps s0 t := by
  refine ⟨_, rfl, ?_⟩
  split
  · rename_i e1a e1b e1c
    refine Keeps.ite ?_ ?_
    · refine sqTail_keeps ?_
      exact h
    · exact h
  · rename_i e2a e2b
    exact h

theorem execSluiceCopyDone_keeps {x0} (h : Keeps s0 s) : ∃ t, execSluiceCopyDone x0 s = .next t ∧ Keeps s0 t :=
  ⟨_, rfl, Keeps.ite h (flipExtent_keeps h)⟩

theorem execGroupDestroy_keeps {x0} (h : Keeps s0 s) : ∃ t, execGroupDestroy x0 s = .next t ∧ Keeps s0 t := by
  refine ⟨_, rfl, ?_⟩
  refine take_keeps ?_ ?_
  · exact h
  · intro z1a z1b z1c h1
    extract_lets +onlyGivenNames y2
    clear_value y2
    refine Keeps.ite ?_ ?_
    · refine finish_keeps ?_
      exact h1
    · refine Keeps.ite ?_ ?_
      · refine finish_keeps ?_
        refine refuse_keeps ?_
        exact h1
      · refine Keeps.ite ?_ ?_
        · refine finish_keeps ?_
          exact h1
        · refine finish_keeps ?_
          refine setGroup_keeps ?_
          exact h1

theorem execPset_keeps {x0} {x1} (h : Keeps s0 s) : ∃ t, execPset x0 x1 s = .next t ∧ Keeps s0 t := by
  refine ⟨_, rfl, ?_⟩
  refine vecSlotOp_keeps ?_
  exact h

theorem execXor_keeps {x0} {x1} {x2} (h : Keeps s0 s) : ∃ t, execXor x0 x1 x2 s = .next t ∧ Keeps s0 t := by
  refine ⟨_, rfl, ?_⟩
  refine alu_keeps ?_
  exact h

theorem execEncodeCloseComplete_keeps {x0} (h :
    Keeps s0 s) : ∃ t, execEncodeCloseComplete x0 s = .next t ∧ Keeps s0 t := by
  refine ⟨_, rfl, ?_⟩
  extract_lets +onlyGivenNames y1
  clear_value y1
  extract_lets +onlyGivenNames y2
  clear_value y2
  extract_lets +onlyGivenNames y3
  clear_value y3
  refine Keeps.ite ?_ ?_
  · exact h
  · refine agentPut_keeps ?_ ?_
    · exact h
    · intro z4a h4
      refine endEnc_keeps ?_
      exact h4

theorem execOr_keeps {x0} {x1} {x2} (h : Keeps s0 s) : ∃ t, execOr x0 x1 x2 s = .next t ∧ Keeps s0 t := by
  refine ⟨_, rfl, ?_⟩
  refine alu_keeps ?_
  exact h

theorem execMovVs_keeps {x0} {x1} (h : Keeps s0 s) : ∃ t, execMovVs x0 x1 s = .next t ∧ Keeps s0 t := by
  refine ⟨_, rfl, ?_⟩
  refine vecSlotOp_keeps ?_
  exact h

theorem execNormFwd_keeps {x0} {x1} (h : Keeps s0 s) : ∃ t, execNormFwd x0 x1 s = .next t ∧ Keeps s0 t := by
  refine ⟨_, rfl, ?_⟩
  refine blockCmd_keeps ?_
  exact h

theorem execEngineDispatch_keeps {x0} {x1} (h :
    Keeps s0 s) : ∃ t, execEngineDispatch x0 x1 s = .next t ∧ Keeps s0 t := by
  refine ⟨_, rfl, ?_⟩
  extract_lets +onlyGivenNames y1
  clear_value y1
  split
  · rename_i e2a e2b e2c
    extract_lets +onlyGivenNames y3
    clear_value y3
    refine setCore_keeps ?_
    exact h
  · rename_i e4a e4b
    exact h

theorem execMgmtPowerLimit_keeps {x0} (h : Keeps s0 s) : ∃ t, execMgmtPowerLimit x0 s = .next t ∧ Keeps s0 t := by
  refine ⟨_, rfl, ?_⟩
  refine Keeps.ite ?_ ?_
  · exact h
  · refine Keeps.ite ?_ ?_
    · refine tick_keeps ?_
      refine refuse_keeps ?_
      exact h
    · refine setPower_keeps ?_
      exact h

theorem execNop_keeps {x0} {x1} (h : Keeps s0 s) : ∃ t, execNop x0 x1 s = .next t ∧ Keeps s0 t := by
  refine ⟨_, rfl, ?_⟩
  refine run_keeps ?_ ?_
  · exact h
  · intro z1a h1
    exact h1

theorem execCollRedscat_keeps {x0} {x1} (h : Keeps s0 s) : ∃ t, execCollRedscat x0 x1 s = .next t ∧ Keeps s0 t := by
  refine ⟨_, rfl, ?_⟩
  refine collIssue_keeps ?_
  exact h

theorem execRsumsq_keeps {x0} {x1} (h : Keeps s0 s) : ∃ t, execRsumsq x0 x1 s = .next t ∧ Keeps s0 t := by
  refine ⟨_, rfl, ?_⟩
  refine reduce_keeps ?_
  exact h

theorem execImin_keeps {x0} {x1} (h : Keeps s0 s) : ∃ t, execImin x0 x1 s = .next t ∧ Keeps s0 t := by
  refine ⟨_, rfl, ?_⟩
  refine vecInt_keeps ?_
  exact h

theorem execRem_keeps {x0} {x1} {x2} (h : Keeps s0 s) : ∃ t, execRem x0 x1 x2 s = .next t ∧ Keeps s0 t := by
  refine ⟨_, rfl, ?_⟩
  refine alu_keeps ?_
  exact h

theorem execArgmin_keeps {x0} {x1} (h : Keeps s0 s) : ∃ t, execArgmin x0 x1 s = .next t ∧ Keeps s0 t := by
  refine ⟨_, rfl, ?_⟩
  refine argReduce_keeps ?_
  exact h

theorem execSin_keeps {x0} {x1} (h : Keeps s0 s) : ∃ t, execSin x0 x1 s = .next t ∧ Keeps s0 t := by
  refine ⟨_, rfl, ?_⟩
  refine sfu_keeps ?_
  exact h

theorem execVld_keeps {x0} {x1} (h : Keeps s0 s) : ∃ t, execVld x0 x1 s = .next t ∧ Keeps s0 t := by
  refine ⟨_, rfl, ?_⟩
  refine vectorLoad_keeps ?_
  exact h

theorem execVsel_keeps {x0} {x1} (h : Keeps s0 s) : ∃ t, execVsel x0 x1 s = .next t ∧ Keeps s0 t := by
  refine ⟨_, rfl, ?_⟩
  refine vec_keeps ?_
  exact h

theorem execMulhu_keeps {x0} {x1} {x2} (h : Keeps s0 s) : ∃ t, execMulhu x0 x1 x2 s = .next t ∧ Keeps s0 t := by
  refine ⟨_, rfl, ?_⟩
  refine alu_keeps ?_
  exact h

theorem execBgeu_keeps {x0} {x1} (h : Keeps s0 s) : ∃ t, execBgeu x0 x1 s = .next t ∧ Keeps s0 t := by
  refine ⟨_, rfl, ?_⟩
  refine branch_keeps ?_
  exact h

theorem execWaitEng_keeps {x0} {x1} (h : Keeps s0 s) : ∃ t, execWaitEng x0 x1 s = .next t ∧ Keeps s0 t := by
  refine ⟨_, rfl, ?_⟩
  refine run_keeps ?_ ?_
  · exact h
  · intro z1a h1
    exact h1

theorem execMovi_keeps {x0} {x1} (h : Keeps s0 s) : ∃ t, execMovi x0 x1 s = .next t ∧ Keeps s0 t := by
  refine ⟨_, rfl, ?_⟩
  refine slotOp_keeps ?_
  exact h

theorem execLinkRecalReq_keeps {x0} (h : Keeps s0 s) : ∃ t, execLinkRecalReq x0 s = .next t ∧ Keeps s0 t := by
  refine ⟨_, rfl, ?_⟩
  refine Keeps.ite ?_ ?_
  · refine recalRequest_keeps ?_
    exact h
  · exact h

theorem execHubTimeLoRead_keeps {x0} {x1} (h : Keeps s0 s) : ∃ t, execHubTimeLoRead x0 x1 s = .next t ∧ Keeps s0 t := by
  refine ⟨_, rfl, ?_⟩
  extract_lets +onlyGivenNames y1
  have h1 : Keeps s0 y1 := by
    unfold y1
    refine readReg_keeps ?_
    exact h
  clear_value y1
  refine Keeps.ite ?_ ?_
  · refine afterRead_keeps ?_
    exact h1
  · exact h1

theorem execRemoteRequestTimeout_keeps {x0} (h :
    Keeps s0 s) : ∃ t, execRemoteRequestTimeout x0 s = .next t ∧ Keeps s0 t := by
  refine ⟨_, rfl, ?_⟩
  extract_lets +onlyGivenNames y1
  clear_value y1
  refine Keeps.ite ?_ ?_
  · exact h
  · extract_lets +onlyGivenNames y2
    clear_value y2
    extract_lets +onlyGivenNames y3
    have h3 : Keeps s0 y3 := by
      unfold y3
      with_reducible refine Keeps.same ?_
      exact h
    clear_value y3
    refine faultJob_keeps ?_
    refine post_keeps ?_
    exact h3

theorem execRefreshBeginDurable_keeps {x0} (h :
    Keeps s0 s) : ∃ t, execRefreshBeginDurable x0 s = .next t ∧ Keeps s0 t := by
  refine ⟨_, rfl, ?_⟩
  extract_lets +onlyGivenNames y1
  clear_value y1
  split
  · rename_i e2a e2b e2c e2d e2e e2f
    refine Keeps.ite ?_ ?_
    · exact h
    · refine recordOf_keeps ?_
      refine setJob_keeps ?_
      exact h
  · rename_i e3a e3b e3c
    exact h

theorem execSvnCommit_keeps {x0} (h : Keeps s0 s) : ∃ t, execSvnCommit x0 s = .next t ∧ Keeps s0 t := by
  refine ⟨_, rfl, ?_⟩
  refine secRequest_keeps ?_ ?_
  · exact h
  · intro z1a h1
    refine Keeps.ite ?_ ?_
    · refine reply_keeps ?_
      exact h1
    · extract_lets +onlyGivenNames y2
      clear_value y2
      extract_lets +onlyGivenNames y3
      clear_value y3
      extract_lets +onlyGivenNames y4
      clear_value y4
      extract_lets +onlyGivenNames y5
      have h5 : Keeps s0 y5 := by
        unfold y5
        refine setSec_keeps ?_
        exact h1
      clear_value y5
      extract_lets +onlyGivenNames y6
      have h6 : Keeps s0 y6 := by
        unfold y6
        refine secEvent_keeps ?_
        exact h5
      clear_value y6
      extract_lets +onlyGivenNames y7
      have h7 : Keeps s0 y7 := by
        unfold y7
        refine Keeps.ite ?_ ?_
        · refine secEvent_keeps ?_
          exact h6
        · exact h6
      clear_value y7
      refine reply_keeps ?_
      exact h7

theorem execBatchqCreate_keeps {x0} (h : Keeps s0 s) : ∃ t, execBatchqCreate x0 s = .next t ∧ Keeps s0 t := by
  refine ⟨_, rfl, ?_⟩
  refine take_keeps ?_ ?_
  · exact h
  · intro z1a z1b z1c h1
    refine Keeps.ite (finish_keeps h1) ?_
    split
    · rename_i e2a e2b e2c
      refine finish_keeps ?_
      refine Keeps.ite ?_ ?_
      · refine refuse_keeps ?_
        exact h1
      · exact h1
    · rename_i e3a e3b
      refine Keeps.ite ?_ ?_
      · refine finish_keeps ?_
        exact h1
      · split
        · rename_i e4a e4b
          refine finish_keeps ?_
          exact h1
        · rename_i e5a e5b e5c
          split
          · rename_i e6a e6b e6c
            refine finish_keeps ?_
            exact h1
          · rename_i e7a e7b
            refine Keeps.ite ?_ ?_
            · refine finish_keeps ?_
              exact h1
            · refine Keeps.ite ?_ ?_
              · refine finish_keeps ?_
                refine refuse_keeps ?_
                exact h1
              · extract_lets +onlyGivenNames y8
                clear_value y8
                extract_lets +onlyGivenNames y9
                have h9 : Keeps s0 y9 := by
                  unfold y9
                  refine Keeps.ite ?_ ?_
                  · refine emulateFor_keeps ?_
                    exact h1
                  · exact h1
                clear_value y9
                refine finish_keeps ?_
                refine setBq_keeps ?_
                with_reducible refine Keeps.same ?_
                exact h9

theorem execPatrolScrub_keeps (h : Keeps s0 s) : ∃ t, execPatrolScrub  s = .next t ∧ Keeps s0 t := by
  refine ⟨_, rfl, ?_⟩
  exact h

theorem execPortStats_keeps {x0} (h : Keeps s0 s) : ∃ t, execPortStats x0 s = .next t ∧ Keeps s0 t := by
  refine ⟨_, rfl, ?_⟩
  refine secRequest_keeps ?_ ?_
  · exact h
  · intro z1a h1
    extract_lets +onlyGivenNames y2
    have h2 : Keeps s0 y2 := by
      unfold y2
      refine reply_keeps ?_
      exact h1
    clear_value y2
    with_reducible refine Keeps.same ?_
    exact h2

theorem execJobComplete_keeps {x0} (h : Keeps s0 s) : ∃ t, execJobComplete x0 s = .next t ∧ Keeps s0 t := by
  refine ⟨_, rfl, ?_⟩
  extract_lets +onlyGivenNames y1
  clear_value y1
  refine Keeps.ite ?_ ?_
  · exact h
  · refine finish_keeps ?_
    refine freeJob_keeps ?_
    refine dropGroups_keeps ?_
    refine writeStats_keeps ?_
    refine abandonRefresh_keeps ?_
    exact h

theorem execQueueOwnerWrite_keeps {x0} {x1} (h :
    Keeps s0 s) : ∃ t, execQueueOwnerWrite x0 x1 s = .next t ∧ Keeps s0 t := by
  refine ⟨_, rfl, ?_⟩
  refine Keeps.ite ?_ ?_
  · refine ownerWrite_keeps ?_
    exact h
  · exact h

theorem execIand_keeps {x0} {x1} (h : Keeps s0 s) : ∃ t, execIand x0 x1 s = .next t ∧ Keeps s0 t := by
  refine ⟨_, rfl, ?_⟩
  refine vecInt_keeps ?_
  exact h

theorem execDmaSt_keeps {x0} {x1} (h : Keeps s0 s) : ∃ t, execDmaSt x0 x1 s = .next t ∧ Keeps s0 t := by
  refine ⟨_, rfl, ?_⟩
  refine dma_keeps ?_
  exact h

theorem execEncFrameTake_keeps {x0} (h : Keeps s0 s) : ∃ t, execEncFrameTake x0 s = .next t ∧ Keeps s0 t := by
  refine ⟨_, rfl, ?_⟩
  extract_lets +onlyGivenNames y1
  clear_value y1
  extract_lets +onlyGivenNames y2
  clear_value y2
  refine Keeps.ite ?_ ?_
  · exact h
  · extract_lets +onlyGivenNames y3
    clear_value y3
    refine agentDo_keeps ?_ ?_
    · exact h
    · intro z4a h4
      extract_lets +onlyGivenNames y5
      clear_value y5
      extract_lets +onlyGivenNames y6
      clear_value y6
      refine setEnc_keeps ?_
      refine takePost_keeps ?_
      exact h4

theorem execFenceWindowExpiry_keeps {x0} (h : Keeps s0 s) : ∃ t, execFenceWindowExpiry x0 s = .next t ∧ Keeps s0 t := by
  refine ⟨_, rfl, ?_⟩
  extract_lets +onlyGivenNames y1
  clear_value y1
  refine Keeps.ite ?_ ?_
  · exact h
  · refine setCore_keeps ?_
    exact h

theorem execCompletionPost_keeps {x0} (h : Keeps s0 s) : ∃ t, execCompletionPost x0 s = .next t ∧ Keeps s0 t := by
  refine ⟨_, rfl, ?_⟩
  extract_lets +onlyGivenNames y1
  clear_value y1
  split
  · rename_i e2a e2b
    exact h
  · rename_i e3a e3b e3c e3d
    refine Keeps.ite ?_ ?_
    · exact h
    · refine semPost1_keeps ?_
      refine setAt_keeps ?_
      exact h

theorem execEventCtrlWrite_keeps {x0} (h : Keeps s0 s) : ∃ t, execEventCtrlWrite x0 s = .next t ∧ Keeps s0 t := by
  refine ⟨_, rfl, ?_⟩
  refine Keeps.ite ?_ ?_
  · refine eventCtrl_keeps ?_
    exact h
  · exact h

theorem execTaccLd_keeps {x0} {x1} {x2} (h : Keeps s0 s) : ∃ t, execTaccLd x0 x1 x2 s = .next t ∧ Keeps s0 t := by
  refine ⟨_, rfl, ?_⟩
  refine issue_keeps ?_ ?_
  · exact h
  · intro z1a h1
    extract_lets +onlyGivenNames y2
    clear_value y2
    extract_lets +onlyGivenNames y3
    clear_value y3
    extract_lets +onlyGivenNames y4
    clear_value y4
    split
    · rename_i e5a e5b e5c
      refine stopAt_keeps ?_
      exact h1
    · rename_i e6a e6b
      extract_lets +onlyGivenNames y7
      clear_value y7
      extract_lets +onlyGivenNames y8
      clear_value y8
      extract_lets +onlyGivenNames y9
      clear_value y9
      extract_lets +onlyGivenNames y10
      clear_value y10
      split
      · rename_i e11a e11b e11c
        refine stopAt_keeps ?_
        exact h1
      · rename_i e12a e12b
        extract_lets +onlyGivenNames y13
        clear_value y13
        extract_lets +onlyGivenNames y14
        clear_value y14
        extract_lets +onlyGivenNames y15
        clear_value y15
        extract_lets +onlyGivenNames y16
        have h16 : Keeps s0 y16 := by
          unfold y16
          refine tick_keeps ?_
          refine spendRows_keeps ?_
          exact h1
        clear_value y16
        refine advance_keeps ?_
        refine duePost_keeps ?_
        refine countClip_keeps ?_
        refine accWrite_keeps ?_
        exact h16

theorem execRegionReset_keeps {x0} (h : Keeps s0 s) : ∃ t, execRegionReset x0 s = .next t ∧ Keeps s0 t := by
  refine ⟨_, rfl, ?_⟩
  refine regionReset_keeps ?_
  exact h

theorem execMfill_keeps {x0} {x1} (h : Keeps s0 s) : ∃ t, execMfill x0 x1 s = .next t ∧ Keeps s0 t := by
  refine ⟨_, rfl, ?_⟩
  refine run_keeps ?_ ?_
  · exact h
  · intro z1a h1
    extract_lets +onlyGivenNames y2
    clear_value y2
    extract_lets +onlyGivenNames y3
    clear_value y3
    extract_lets +onlyGivenNames y4
    clear_value y4
    extract_lets +onlyGivenNames y5
    clear_value y5
    refine duePost_keeps ?_
    refine countDma_keeps ?_
    refine emulateTier_keeps ?_
    refine devWrite_keeps ?_
    refine devSpend_keeps ?_
    exact h1

theorem execMax_keeps {x0} {x1} {x2} (h : Keeps s0 s) : ∃ t, execMax x0 x1 x2 s = .next t ∧ Keeps s0 t := by
  refine ⟨_, rfl, ?_⟩
  refine alu_keeps ?_
  exact h

theorem execLinkLossTimeout_keeps {x0} (h : Keeps s0 s) : ∃ t, execLinkLossTimeout x0 s = .next t ∧ Keeps s0 t := by
  refine ⟨_, rfl, ?_⟩
  extract_lets +onlyGivenNames y1
  clear_value y1
  refine Keeps.ite ?_ ?_
  · refine linkEvent_keeps ?_
    refine setLink_keeps ?_
    exact h
  · exact h

theorem execTrap_keeps {x0} {x1} (h : Keeps s0 s) : ∃ t, execTrap x0 x1 s = .next t ∧ Keeps s0 t := by
  refine ⟨_, rfl, ?_⟩
  refine issue_keeps ?_ ?_
  · exact h
  · intro z1a h1
    split
    · rename_i e2a e2b e2c
      refine stopAt_keeps ?_
      exact h1
    · rename_i e3a e3b
      refine instrFault_keeps ?_
      exact h1

theorem execClaimGrant_keeps {x0} (h : Keeps s0 s) : ∃ t, execClaimGrant x0 s = .next t ∧ Keeps s0 t := by
  refine ⟨_, rfl, ?_⟩
  extract_lets +onlyGivenNames y1
  clear_value y1
  split
  · rename_i e2a e2b
    exact h
  · rename_i e3a e3b e3c
    extract_lets +onlyGivenNames y4
    have h4 : Keeps s0 y4 := by
      unfold y4
      refine setCore_keeps ?_
      exact h
    clear_value y4
    extract_lets +onlyGivenNames y5
    clear_value y5
    split
    · rename_i e6a e6b
      exact h4
    · rename_i e7a e7b e7c e7d
      refine setSlot_keeps ?_
      exact h4

theorem execSampleDeadlineExpiry_keeps {x0} {x1} (h :
    Keeps s0 s) : ∃ t, execSampleDeadlineExpiry x0 x1 s = .next t ∧ Keeps s0 t := by
  refine ⟨_, rfl, ?_⟩
  extract_lets +onlyGivenNames y1
  clear_value y1
  split
  · rename_i e2a e2b
    exact h
  · rename_i e3a e3b e3c
    refine Keeps.ite ?_ ?_
    · exact h
    · extract_lets +onlyGivenNames y4
      clear_value y4
      extract_lets +onlyGivenNames y5
      clear_value y5
      extract_lets +onlyGivenNames y6
      have h6 : Keeps s0 y6 := by
        unfold y6
        refine setBq_keeps ?_
        exact h
      clear_value y6
      refine postEachSecond_keeps ?_
      exact h6

theorem execRailSequence_keeps (h : Keeps s0 s) : ∃ t, execRailSequence  s = .next t ∧ Keeps s0 t := by
  refine ⟨_, rfl, ?_⟩
  refine Keeps.ite ?_ ?_
  · exact h
  · refine completePhase_keeps ?_
    exact h

theorem execMsixCoalesceTimer_keeps {x0} (h : Keeps s0 s) : ∃ t, execMsixCoalesceTimer x0 s = .next t ∧ Keeps s0 t := by
  refine ⟨_, rfl, ?_⟩
  extract_lets +onlyGivenNames y1
  clear_value y1
  refine Keeps.ite ?_ ?_
  · exact h
  · refine raise_keeps ?_
    refine setQueue_keeps ?_
    exact h

theorem execSfuTableBankWrite_keeps {x0} (h : Keeps s0 s) : ∃ t, execSfuTableBankWrite x0 s = .next t ∧ Keeps s0 t := by
  refine ⟨_, rfl, ?_⟩
  extract_lets +onlyGivenNames y1
  clear_value y1
  refine Keeps.ite ?_ ?_
  · extract_lets +onlyGivenNames y2
    have h2 : Keeps s0 y2 := by
      unfold y2
      refine setRegion_keeps ?_
      exact h
    clear_value y2
    refine Keeps.foldl _ ?_ ?_
    · exact h2
    · intro z3a z3b h3
      extract_lets +onlyGivenNames y4
      clear_value y4
      extract_lets +onlyGivenNames y5
      clear_value y5
      refine setCore_keeps ?_
      exact h3
  · exact h

theorem execErf_keeps {x0} {x1} (h : Keeps s0 s) : ∃ t, execErf x0 x1 s = .next t ∧ Keeps s0 t := by
  refine ⟨_, rfl, ?_⟩
  refine sfu_keeps ?_
  exact h

theorem execDieReset_keeps {x0} (h : Keeps s0 s) : ∃ t, execDieReset x0 s = .next t ∧ Keeps s0 t := by
  refine ⟨_, rfl, ?_⟩
  refine dieReset_keeps ?_
  exact h

theorem execFlitCrcFail_keeps {x0} (h : Keeps s0 s) : ∃ t, execFlitCrcFail x0 s = .next t ∧ Keeps s0 t := by
  refine ⟨_, rfl, ?_⟩
  extract_lets +onlyGivenNames y1
  clear_value y1
  refine Keeps.ite ?_ ?_
  · refine setLink_keeps ?_
    exact h
  · exact h

theorem execMovSp_keeps {x0} {x1} (h : Keeps s0 s) : ∃ t, execMovSp x0 x1 s = .next t ∧ Keeps s0 t := by
  refine ⟨_, rfl, ?_⟩
  refine vecSlotOp_keeps ?_
  exact h

theorem execMovAs_keeps {x0} {x1} (h : Keeps s0 s) : ∃ t, execMovAs x0 x1 s = .next t ∧ Keeps s0 t := by
  refine ⟨_, rfl, ?_⟩
  refine slotOp_keeps ?_
  exact h

theorem execMovhi_keeps {x0} {x1} (h : Keeps s0 s) : ∃ t, execMovhi x0 x1 s = .next t ∧ Keeps s0 t := by
  refine ⟨_, rfl, ?_⟩
  refine slotOp_keeps ?_
  exact h

theorem execDbCqHead_keeps {x0} {x1} {x2} (h : Keeps s0 s) : ∃ t, execDbCqHead x0 x1 x2 s = .next t ∧ Keeps s0 t := by
  refine ⟨_, rfl, ?_⟩
  split
  · rename_i e1a e1b e1c
    refine Keeps.ite ?_ ?_
    · refine cqHead_keeps ?_
      exact h
    · exact h
  · rename_i e2a e2b
    exact h

theorem execBatchAssemble_keeps {x0} (h : Keeps s0 s) : ∃ t, execBatchAssemble x0 s = .next t ∧ Keeps s0 t := by
  refine ⟨_, rfl, ?_⟩
  extract_lets +onlyGivenNames y1
  have h1 : Keeps s0 y1 := by
    unfold y1
    refine takeFreed_keeps ?_
    exact h
  clear_value y1
  extract_lets +onlyGivenNames y2
  clear_value y2
  extract_lets +onlyGivenNames y3
  clear_value y3
  extract_lets +onlyGivenNames y4
  clear_value y4
  extract_lets +onlyGivenNames y5
  extract_lets +onlyGivenNames y6
  clear_value y6
  refine Keeps.ite ?_ ?_
  · exact h1
  · split
    · rename_i e7a e7b
      exact h1
    · rename_i e8a e8b e8c
      extract_lets +onlyGivenNames y9
      clear_value y9
      extract_lets +onlyGivenNames y10
      clear_value y10
      refine agentPut_keeps ?_ ?_
      · exact h1
      · intro z11a h11
        refine semPost1_keeps ?_
        refine setBq_keeps ?_
        exact h11

theorem execWarmReset_keeps (h : Keeps s0 s) : ∃ t, execWarmReset  s = .next t ∧ Keeps s0 t := by
  refine ⟨_, rfl, ?_⟩
  refine warmReset_keeps ?_
  exact h

theorem execVbcast_keeps {x0} {x1} (h : Keeps s0 s) : ∃ t, execVbcast x0 x1 s = .next t ∧ Keeps s0 t := by
  refine ⟨_, rfl, ?_⟩
  refine vec_keeps ?_
  exact h

theorem execTableReload_keeps {x0} (h : Keeps s0 s) : ∃ t, execTableReload x0 s = .next t ∧ Keeps s0 t := by
  refine ⟨_, rfl, ?_⟩
  refine take_keeps ?_ ?_
  · exact h
  · intro z1a z1b z1c h1
    refine pfOnly_keeps ?_ ?_
    · exact h1
    · intro z2a h2
      refine finish_keeps ?_
      refine Keeps.foldl _ ?_ ?_
      · exact h2
      · intro z3a z3b h3
        refine tableRequest_keeps ?_
        exact h3

theorem execEndTask_keeps {x0} {x1} (h : Keeps s0 s) : ∃ t, execEndTask x0 x1 s = .next t ∧ Keeps s0 t := by
  refine ⟨_, rfl, ?_⟩
  refine issue_keeps ?_ ?_
  · exact h
  · intro z1a h1
    split
    · rename_i e2a e2b e2c
      refine stopAt_keeps ?_
      exact h1
    · rename_i e3a e3b
      extract_lets +onlyGivenNames y4
      clear_value y4
      extract_lets +onlyGivenNames y5
      clear_value y5
      extract_lets +onlyGivenNames y6
      clear_value y6
      extract_lets +onlyGivenNames y7
      have h7 : Keeps s0 y7 := by
        unfold y7
        refine setJob_keeps ?_
        exact h1
      clear_value y7
      refine settleGroup_keeps ?_
      refine freeSlot_keeps ?_
      exact h7

theorem execSelftest_keeps {x0} (h : Keeps s0 s) : ∃ t, execSelftest x0 s = .next t ∧ Keeps s0 t := by
  refine ⟨_, rfl, ?_⟩
  refine Keeps.ite ?_ ?_
  · exact h
  · refine take_keeps ?_ ?_
    · exact h
    · intro z1a z1b z1c h1
      refine pfOnly_keeps ?_ ?_
      · exact h1
      · intro z2a h2
        split
        · rename_i e3a e3b
          refine finish_keeps ?_
          exact h2
        · rename_i e4a e4b e4c
          extract_lets +onlyGivenNames y5
          clear_value y5
          extract_lets +onlyGivenNames y6
          clear_value y6
          split
          · rename_i e7a e7b
            refine finish_keeps ?_
            exact h2
          · rename_i e8a
            extract_lets +onlyGivenNames y9
            clear_value y9
            refine Keeps.ite ?_ ?_
            · refine finish_keeps ?_
              exact h2
            · extract_lets +onlyGivenNames y10
              clear_value y10
              extract_lets +onlyGivenNames y11
              have h11 : Keeps s0 y11 := by
                unfold y11
                refine Keeps.ite ?_ ?_
                · refine Keeps.foldl _ ?_ ?_
                  · exact h2
                  · intro z12a z12b h12
                    refine suspendJob_keeps ?_
                    exact h12
                · exact h2
              clear_value y11
              extract_lets +onlyGivenNames y13
              have h13 : Keeps s0 y13 := by
                unfold y13
                refine setTest_keeps ?_
                with_reducible refine Keeps.same ?_
                exact h11
              clear_value y13
              extract_lets +onlyGivenNames y14
              have h14 : Keeps s0 y14 := by
                unfold y14
                refine finish_keeps ?_
                exact h13
              clear_value y14
              refine Keeps.ite ?_ ?_
              · refine endPass_keeps ?_
                exact h14
              · exact h14

theorem execExportLoad_keeps {x0} (h : Keeps s0 s) : ∃ t, execExportLoad x0 s = .next t ∧ Keeps s0 t := by
  refine ⟨_, rfl, ?_⟩
  refine take_keeps ?_ ?_
  · exact h
  · intro z1a z1b z1c h1
    refine pfOnly_keeps ?_ ?_
    · exact h1
    · intro z2a h2
      refine Keeps.ite ?_ ?_
      · refine finish_keeps ?_
        exact h2
      · split
        · rename_i e3a e3b
          refine finish_keeps ?_
          exact h2
        · rename_i e4a e4b e4c
          split
          · rename_i e5a e5b e5c
            refine finish_keeps ?_
            exact h2
          · rename_i e6a e6b
            extract_lets +onlyGivenNames y7
            clear_value y7
            refine finish_keeps ?_
            with_reducible refine Keeps.same ?_
            exact h2

theorem execEntryBad_keeps {x0} (h : Keeps s0 s) : ∃ t, execEntryBad x0 s = .next t ∧ Keeps s0 t := by
  refine ⟨_, rfl, ?_⟩
  refine takeIf_keeps ?_ ?_
  · exact h
  · intro z1a z1b z1c h1
    refine finish_keeps ?_
    exact h1

theorem execDimmSupplyFault_keeps {x0} {x1} (h :
    Keeps s0 s) : ∃ t, execDimmSupplyFault x0 x1 s = .next t ∧ Keeps s0 t := by
  refine ⟨_, rfl, ?_⟩
  refine Keeps.ite ?_ ?_
  · exact h
  · refine post_keeps ?_
    refine loseDdr_keeps ?_
    refine setPower_keeps ?_
    exact h

theorem execRcp_keeps {x0} {x1} (h : Keeps s0 s) : ∃ t, execRcp x0 x1 s = .next t ∧ Keeps s0 t := by
  refine ⟨_, rfl, ?_⟩
  refine sfu_keeps ?_
  exact h

theorem execCollComplete_keeps {x0} {x1} {x2} (h :
    Keeps s0 s) : ∃ t, execCollComplete x0 x1 x2 s = .next t ∧ Keeps s0 t := by
  refine ⟨_, rfl, ?_⟩
  split
  · rename_i e1a e1b
    exact h
  · rename_i e2a e2b e2c
    extract_lets +onlyGivenNames y3
    clear_value y3
    extract_lets +onlyGivenNames y4
    clear_value y4
    extract_lets +onlyGivenNames y5
    clear_value y5
    refine Keeps.ite ?_ ?_
    · exact h
    · refine Keeps.ite ?_ ?_
      · refine collFail_keeps ?_
        exact h
      · extract_lets +onlyGivenNames y6
        clear_value y6
        extract_lets +onlyGivenNames y7
        clear_value y7
        split
        · rename_i e8a e8b e8c
          split
          · rename_i e9a e9b e9c e9d
            refine faultJob_keeps ?_
            refine post_keeps ?_
            refine dropColl_keeps ?_
            exact h
        · rename_i e10a e10b
          refine Keeps.ite ?_ ?_
          · exact h
          · extract_lets +onlyGivenNames y11
            clear_value y11
            extract_lets +onlyGivenNames y12
            clear_value y12
            refine collFinish_keeps ?_
            exact h

theorem execPageSeal_keeps {x0} {x1} {x2} (h : Keeps s0 s) : ∃ t, execPageSeal x0 x1 x2 s = .next t ∧ Keeps s0 t := by
  refine ⟨_, rfl, ?_⟩
  refine pageOp_keeps ?_ ?_
  · exact h
  · intro z1a h1
    dsimp only
    refine Keeps.foldl _ ?_ ?_
    · exact h1
    · intro z2a z2b h2
      refine Keeps.ite ?_ ?_
      · refine formSil_keeps ?_
        exact h2
      · exact h2

theorem execDwconv_keeps {x0} {x1} {x2} (h : Keeps s0 s) : ∃ t, execDwconv x0 x1 x2 s = .next t ∧ Keeps s0 t := by
  refine ⟨_, rfl, ?_⟩
  refine convCmdAt_keeps ?_
  exact h

theorem execVunzip_keeps {x0} {x1} (h : Keeps s0 s) : ∃ t, execVunzip x0 x1 s = .next t ∧ Keeps s0 t := by
  refine ⟨_, rfl, ?_⟩
  refine permute_keeps ?_
  exact h

theorem execQueueEnable_keeps {x0} {x1} {x2} (h :
    Keeps s0 s) : ∃ t, execQueueEnable x0 x1 x2 s = .next t ∧ Keeps s0 t := by
  refine ⟨_, rfl, ?_⟩
  refine ownWrite_keeps ?_
  exact h

theorem execSuspend_keeps {x0} (h : Keeps s0 s) : ∃ t, execSuspend x0 s = .next t ∧ Keeps s0 t := by
  refine ⟨_, rfl, ?_⟩
  refine take_keeps ?_ ?_
  · exact h
  · intro z1a z1b z1c h1
    refine control_keeps ?_
    exact h1

theorem execMovDs_keeps {x0} {x1} (h : Keeps s0 s) : ∃ t, execMovDs x0 x1 s = .next t ∧ Keeps s0 t := by
  refine ⟨_, rfl, ?_⟩
  refine slotOp_keeps ?_
  exact h

theorem execHubStackSplitWrite_keeps {x0} (h :
    Keeps s0 s) : ∃ t, execHubStackSplitWrite x0 s = .next t ∧ Keeps s0 t := by
  refine ⟨_, rfl, ?_⟩
  refine Keeps.ite ?_ ?_
  · refine stackSplitWrite_keeps ?_
    exact h
  · exact h

theorem execBltu_keeps {x0} {x1} (h : Keeps s0 s) : ∃ t, execBltu x0 x1 s = .next t ∧ Keeps s0 t := by
  refine ⟨_, rfl, ?_⟩
  refine branch_keeps ?_
  exact h

theorem execCollBcast_keeps {x0} {x1} (h : Keeps s0 s) : ∃ t, execCollBcast x0 x1 s = .next t ∧ Keeps s0 t := by
  refine ⟨_, rfl, ?_⟩
  refine collIssue_keeps ?_
  exact h

theorem execPany_keeps {x0} {x1} (h : Keeps s0 s) : ∃ t, execPany x0 x1 s = .next t ∧ Keeps s0 t := by
  refine ⟨_, rfl, ?_⟩
  refine vecSlotOp_keeps ?_
  exact h

theorem execMulh_keeps {x0} {x1} {x2} (h : Keeps s0 s) : ∃ t, execMulh x0 x1 x2 s = .next t ∧ Keeps s0 t := by
  refine ⟨_, rfl, ?_⟩
  refine alu_keeps ?_
  exact h

theorem execCmpLe_keeps {x0} {x1} (h : Keeps s0 s) : ∃ t, execCmpLe x0 x1 s = .next t ∧ Keeps s0 t := by
  refine ⟨_, rfl, ?_⟩
  refine vecCmp_keeps ?_
  exact h

theorem execFadd_keeps {x0} {x1} (h : Keeps s0 s) : ∃ t, execFadd x0 x1 s = .next t ∧ Keeps s0 t := by
  refine ⟨_, rfl, ?_⟩
  refine vec3_keeps ?_
  exact h

theorem execSqrt_keeps {x0} {x1} (h : Keeps s0 s) : ∃ t, execSqrt x0 x1 s = .next t ∧ Keeps s0 t := by
  refine ⟨_, rfl, ?_⟩
  refine sfu_keeps ?_
  exact h

theorem execGelu_keeps {x0} {x1} (h : Keeps s0 s) : ∃ t, execGelu x0 x1 s = .next t ∧ Keeps s0 t := by
  refine ⟨_, rfl, ?_⟩
  refine sfu_keeps ?_
  exact h

theorem execPolderSaltWrite_keeps {x0} {x1} {x2} (h :
    Keeps s0 s) : ∃ t, execPolderSaltWrite x0 x1 x2 s = .next t ∧ Keeps s0 t := by
  refine ⟨_, rfl, ?_⟩
  refine Keeps.ite ?_ ?_
  · refine polderSalt_keeps ?_
    exact h
  · exact h

theorem execMemoryTrain_keeps {x0} (h : Keeps s0 s) : ∃ t, execMemoryTrain x0 s = .next t ∧ Keeps s0 t := by
  refine ⟨_, rfl, ?_⟩
  refine Keeps.ite ?_ ?_
  · exact h
  · refine Keeps.ite ?_ ?_
    · extract_lets +onlyGivenNames y1
      have h1 : Keeps s0 y1 := by
        unfold y1
        refine Keeps.foldl _ ?_ ?_
        · exact h
        · intro z2a z2b h2
          refine post_keeps ?_
          exact h2
      clear_value y1
      with_reducible refine Keeps.same ?_
      exact h1
    · extract_lets +onlyGivenNames y3
      have h3 : Keeps s0 y3 := by
        unfold y3
        refine restoreHomes_keeps ?_
        exact h
      clear_value y3
      extract_lets +onlyGivenNames y4
      have h4 : Keeps s0 y4 := by
        unfold y4
        refine Keeps.ite ?_ ?_
        · refine Keeps.foldl _ ?_ ?_
          · exact h3
          · intro z5a z5b h5
            refine restoreRefresh_keeps ?_
            exact h5
        · exact h
      clear_value y4
      extract_lets +onlyGivenNames y6
      clear_value y6
      extract_lets +onlyGivenNames y7
      clear_value y7
      extract_lets +onlyGivenNames y8
      have h8 : Keeps s0 y8 := by
        unfold y8
        refine setPower_keeps ?_
        exact h4
      clear_value y8
      extract_lets +onlyGivenNames y9
      have h9 : Keeps s0 y9 := by
        unfold y9
        refine Keeps.foldl _ ?_ ?_
        · exact h8
        · intro z10a z10b h10
          refine post_keeps ?_
          exact h10
      clear_value y9
      extract_lets +onlyGivenNames y11
      clear_value y11
      extract_lets +onlyGivenNames y12
      have h12 : Keeps s0 y12 := by
        unfold y12
        refine setHost_keeps ?_
        exact h9
      clear_value y12
      extract_lets +onlyGivenNames y13
      clear_value y13
      extract_lets +onlyGivenNames y14
      have h14 : Keeps s0 y14 := by
        unfold y14
        refine Keeps.ite ?_ ?_
        · refine setHost_keeps ?_
          exact h12
        · with_reducible refine Keeps.same ?_
          exact h12
      clear_value y14
      refine completePhase_keeps ?_
      exact h14

theorem execFlitNakReceived_keeps {x0} {x1} (h :
    Keeps s0 s) : ∃ t, execFlitNakReceived x0 x1 s = .next t ∧ Keeps s0 t := by
  refine ⟨_, rfl, ?_⟩
  extract_lets +onlyGivenNames y1
  clear_value y1
  refine Keeps.ite ?_ ?_
  · extract_lets +onlyGivenNames y2
    clear_value y2
    extract_lets +onlyGivenNames y3
    clear_value y3
    extract_lets +onlyGivenNames y4
    clear_value y4
    refine Keeps.ite ?_ ?_
    · refine tick_keeps ?_
      refine retrain_keeps ?_
      refine setLink_keeps ?_
      exact h
    · refine tick_keeps ?_
      refine setLink_keeps ?_
      exact h
  · exact h

theorem execTaccSt_keeps {x0} {x1} {x2} (h : Keeps s0 s) : ∃ t, execTaccSt x0 x1 x2 s = .next t ∧ Keeps s0 t := by
  refine ⟨_, rfl, ?_⟩
  refine issue_keeps ?_ ?_
  · exact h
  · intro z1a h1
    extract_lets +onlyGivenNames y2
    clear_value y2
    extract_lets +onlyGivenNames y3
    clear_value y3
    extract_lets +onlyGivenNames y4
    clear_value y4
    split
    · rename_i e5a e5b e5c
      refine stopAt_keeps ?_
      exact h1
    · rename_i e6a e6b
      extract_lets +onlyGivenNames y7
      clear_value y7
      extract_lets +onlyGivenNames y8
      clear_value y8
      extract_lets +onlyGivenNames y9
      clear_value y9
      extract_lets +onlyGivenNames y10
      clear_value y10
      extract_lets +onlyGivenNames y11
      clear_value y11
      extract_lets +onlyGivenNames y12
      clear_value y12
      extract_lets +onlyGivenNames y13
      clear_value y13
      extract_lets +onlyGivenNames y14
      clear_value y14
      extract_lets +onlyGivenNames y15
      clear_value y15
      extract_lets +onlyGivenNames y16
      clear_value y16
      split
      · rename_i e17a e17b e17c
        refine stopAt_keeps ?_
        exact h1
      · rename_i e18a e18b
        refine advance_keeps ?_
        refine duePost_keeps ?_
        refine countClip_keeps ?_
        refine count_keeps ?_
        refine putPieces_keeps ?_
        exact h1

theorem execVst_keeps {x0} {x1} (h : Keeps s0 s) : ∃ t, execVst x0 x1 s = .next t ∧ Keeps s0 t := by
  refine ⟨_, rfl, ?_⟩
  refine vectorStore_keeps ?_
  exact h

theorem execHubUpdateRestart_keeps (h : Keeps s0 s) : ∃ t, execHubUpdateRestart  s = .next t ∧ Keeps s0 t := by
  refine ⟨_, rfl, ?_⟩
  split
  · rename_i e1a e1b
    exact h
  · rename_i e2a e2b e2c
    refine Keeps.ite ?_ ?_
    · exact h
    · extract_lets +onlyGivenNames y3
      clear_value y3
      extract_lets +onlyGivenNames y4
      have h4 : Keeps s0 y4 := by
        unfold y4
        refine Keeps.foldl _ ?_ ?_
        · exact h
        · intro z5a z5b h5
          refine suspendJob_keeps ?_
          exact h5
      clear_value y4
      extract_lets +onlyGivenNames y6
      clear_value y6
      extract_lets +onlyGivenNames y7
      have h7 : Keeps s0 y7 := by
        unfold y7
        refine Keeps.foldl _ ?_ ?_
        · exact h4
        · intro z8a z8b h8
          refine jobSuspended_keeps ?_
          exact h8
      clear_value y7
      refine Keeps.ite ?_ ?_
      · refine setDep_keeps ?_
        exact h7
      · extract_lets +onlyGivenNames y9
        have h9 : Keeps s0 y9 := by
          unfold y9
          refine setRunning_keeps ?_
          exact h7
        clear_value y9
        extract_lets +onlyGivenNames y10
        clear_value y10
        extract_lets +onlyGivenNames y11
        clear_value y11
        extract_lets +onlyGivenNames y12
        have h12 : Keeps s0 y12 := by
          unfold y12
          with_reducible refine Keeps.same ?_
          exact h9
        clear_value y12
        extract_lets +onlyGivenNames y13
        have h13 : Keeps s0 y13 := by
          unfold y13
          refine Keeps.foldl _ ?_ ?_
          · exact h12
          · intro z14a z14b h14
            refine Keeps.ite ?_ ?_
            · refine resumeJob_keeps ?_
              exact h14
            · exact h14
        clear_value y13
        refine activated_keeps ?_
        exact h13

theorem execAttnStep_keeps {x0} (h : Keeps s0 s) : ∃ t, execAttnStep x0 s = .next t ∧ Keeps s0 t := by
  refine ⟨_, rfl, ?_⟩
  split
  · rename_i e1a e1b
    exact h
  · rename_i e2a e2b e2c
    split
    · rename_i e3a e3b
      exact h
    · rename_i e4a e4b e4c e4d
      refine guarded_keeps ?_ ?_
      · exact h
      · intro z5a h5
        refine attnStep_keeps ?_
        exact h5

theorem execLaneLockLost_keeps {x0} {x1} (h : Keeps s0 s) : ∃ t, execLaneLockLost x0 x1 s = .next t ∧ Keeps s0 t := by
  refine ⟨_, rfl, ?_⟩
  extract_lets +onlyGivenNames y1
  clear_value y1
  refine Keeps.ite ?_ ?_
  · extract_lets +onlyGivenNames y2
    clear_value y2
    refine retrain_keeps ?_
    refine setLink_keeps ?_
    exact h
  · exact h

theorem execDebugUnlockExpiry_keeps (h : Keeps s0 s) : ∃ t, execDebugUnlockExpiry  s = .next t ∧ Keeps s0 t := by
  refine ⟨_, rfl, ?_⟩
  split
  · rename_i e1a e1b
    exact h
  · rename_i e2a e2b e2c
    refine secEvent_keeps ?_
    refine setSec_keeps ?_
    exact h

theorem execSmaxFwd_keeps {x0} {x1} (h : Keeps s0 s) : ∃ t, execSmaxFwd x0 x1 s = .next t ∧ Keeps s0 t := by
  refine ⟨_, rfl, ?_⟩
  refine blockCmd_keeps ?_
  exact h

theorem execCvt_keeps {x0} {x1} (h : Keeps s0 s) : ∃ t, execCvt x0 x1 s = .next t ∧ Keeps s0 t := by
  refine ⟨_, rfl, ?_⟩
  refine run_keeps ?_ ?_
  · exact h
  · intro z1a h1
    extract_lets +onlyGivenNames y2
    clear_value y2
    extract_lets +onlyGivenNames y3
    clear_value y3
    extract_lets +onlyGivenNames y4
    clear_value y4
    extract_lets +onlyGivenNames y5
    clear_value y5
    extract_lets +onlyGivenNames y6
    clear_value y6
    split
    · rename_i e7a e7b
      exact h1
    · rename_i e8a e8b e8c e8d
      extract_lets +onlyGivenNames y9
      clear_value y9
      refine countClip_keeps ?_
      refine count_keeps ?_
      refine bufWrite_keeps ?_
      exact h1

theorem execPxor_keeps {x0} {x1} (h : Keeps s0 s) : ∃ t, execPxor x0 x1 s = .next t ∧ Keeps s0 t := by
  refine ⟨_, rfl, ?_⟩
  refine vecSlotOp_keeps ?_
  exact h

theorem execHdmDecoderCommit_keeps {x0} {x1} {x2} {x3} (h :
    Keeps s0 s) : ∃ t, execHdmDecoderCommit x0 x1 x2 x3 s = .next t ∧ Keeps s0 t := by
  refine ⟨_, rfl, ?_⟩
  extract_lets +onlyGivenNames y1
  clear_value y1
  extract_lets +onlyGivenNames y2
  clear_value y2
  refine Keeps.ite ?_ ?_
  · exact h
  · extract_lets +onlyGivenNames y3
    clear_value y3
    extract_lets +onlyGivenNames y4
    clear_value y4
    extract_lets +onlyGivenNames y5
    clear_value y5
    extract_lets +onlyGivenNames y6
    clear_value y6
    refine setHost_keeps ?_
    exact h

theorem execCxlReady_keeps {x0} {x1} {x2} (h : Keeps s0 s) : ∃ t, execCxlReady x0 x1 x2 s = .next t ∧ Keeps s0 t := by
  refine ⟨_, rfl, ?_⟩
  refine Keeps.ite ?_ ?_
  · exact h
  · extract_lets +onlyGivenNames y1
    clear_value y1
    extract_lets +onlyGivenNames y2
    have h2 : Keeps s0 y2 := by
      unfold y2
      refine setHost_keeps ?_
      exact h
    clear_value y2
    refine Keeps.ite ?_ ?_
    · exact h2
    · refine completePhase_keeps ?_
      exact h2

theorem execSoftplus_keeps {x0} {x1} (h : Keeps s0 s) : ∃ t, execSoftplus x0 x1 s = .next t ∧ Keeps s0 t := by
  refine ⟨_, rfl, ?_⟩
  refine sfu_keeps ?_
  exact h

theorem execLog2_keeps {x0} {x1} (h : Keeps s0 s) : ∃ t, execLog2 x0 x1 s = .next t ∧ Keeps s0 t := by
  refine ⟨_, rfl, ?_⟩
  refine sfu_keeps ?_
  exact h

theorem execAmoswap_keeps {x0} {x1} (h : Keeps s0 s) : ∃ t, execAmoswap x0 x1 s = .next t ∧ Keeps s0 t := by
  refine ⟨_, rfl, ?_⟩
  refine atomic_keeps ?_
  exact h

theorem execCablePresenceChange_keeps {x0} {x1} (h :
    Keeps s0 s) : ∃ t, execCablePresenceChange x0 x1 s = .next t ∧ Keeps s0 t := by
  refine ⟨_, rfl, ?_⟩
  extract_lets +onlyGivenNames y1
  clear_value y1
  refine Keeps.ite ?_ ?_
  · exact h
  · extract_lets +onlyGivenNames y2
    have h2 : Keeps s0 y2 := by
      unfold y2
      refine setLink_keeps ?_
      exact h
    clear_value y2
    refine Keeps.ite ?_ ?_
    · exact h2
    · refine fullTrain_keeps ?_
      exact h2

theorem execCoreCtxIdWrite_keeps {x0} {x1} {x2} {x3} (h :
    Keeps s0 s) : ∃ t, execCoreCtxIdWrite x0 x1 x2 x3 s = .next t ∧ Keeps s0 t := by
  refine ⟨_, rfl, ?_⟩
  refine Keeps.ite ?_ ?_
  · exact h
  · refine writeCtxId_keeps ?_
    exact h

theorem execAfterglowImageSwitch_keeps {x} (h :
    Keeps s0 s) : ∃ t, execAfterglowImageSwitch x s = .next t ∧ Keeps s0 t := by
  refine ⟨_, rfl, ?_⟩
  extract_lets +onlyGivenNames w m o
  clear_value w m o
  refine Keeps.ite h ?_
  extract_lets +onlyGivenNames k s1
  have h1 : Keeps s0 s1 := tick_keeps h
  clear_value s1 k
  split
  · exact glowFailed_keeps (undoGlow_keeps h1)
  · extract_lets +onlyGivenNames lo s2
    have h2 : Keeps s0 s2 := tick_keeps h1
    clear_value s2
    split
    rename_i u bs hp
    have hu : Keeps s0 u ∧ (u.mem.wf = true → mapWf 0 bs = true) := by
      have hb : s2.mem.wf = true → mapWf 0 s2.mem.bytes = true := fun hm => by
        simp only [Mem.wf, Bool.and_eq_true] at hm
        exact hm.1.1.1.1.1.1.1
      split at hp
      · cases hp; exact ⟨h2.same, fun hm => mapPut_wf (hb hm) _ _⟩
      · cases hp; exact ⟨h2, hb⟩
    refine setHome_keeps (hu.1.withMem fun hm => ?_)
    have hb := hu.2 hm
    simp only [Mem.wf, Bool.and_eq_true] at hm ⊢
    simp only [hm, hb, mapSet_wf, mapClear_wf, and_self]

theorem execMul_keeps {x0} {x1} {x2} (h : Keeps s0 s) : ∃ t, execMul x0 x1 x2 s = .next t ∧ Keeps s0 t := by
  refine ⟨_, rfl, ?_⟩
  refine alu_keeps ?_
  exact h

theorem execCausewayCrcFail_keeps {x0} {x1} (h :
    Keeps s0 s) : ∃ t, execCausewayCrcFail x0 x1 s = .next t ∧ Keeps s0 t := by
  refine ⟨_, rfl, ?_⟩
  refine Keeps.ite ?_ ?_
  · refine setDep_keeps ?_
    exact h
  · refine portFail_keeps ?_
    exact h

theorem execInputUndervolt_keeps {x0} (h : Keeps s0 s) : ∃ t, execInputUndervolt x0 s = .next t ∧ Keeps s0 t := by
  refine ⟨_, rfl, ?_⟩
  refine Keeps.ite ?_ ?_
  · exact h
  · refine Keeps.ite ?_ ?_
    · refine setVolts_keeps ?_
      exact h
    · refine powerEvent_keeps ?_
      refine setPower_keeps ?_
      exact h

theorem execRsum_keeps {x0} {x1} (h : Keeps s0 s) : ∃ t, execRsum x0 x1 s = .next t ∧ Keeps s0 t := by
  refine ⟨_, rfl, ?_⟩
  refine reduce_keeps ?_
  exact h

theorem execAnd_keeps {x0} {x1} {x2} (h : Keeps s0 s) : ∃ t, execAnd x0 x1 x2 s = .next t ∧ Keeps s0 t := by
  refine ⟨_, rfl, ?_⟩
  refine alu_keeps ?_
  exact h

theorem execCntRead_keeps {x0} {x1} (h : Keeps s0 s) : ∃ t, execCntRead x0 x1 s = .next t ∧ Keeps s0 t := by
  refine ⟨_, rfl, ?_⟩
  refine run_keeps ?_ ?_
  · exact h
  · intro z1a h1
    extract_lets +onlyGivenNames y2
    clear_value y2
    split
    · rename_i e3a e3b e3c
      refine tick_keeps ?_
      refine setAt_keeps ?_
      exact h1
    · rename_i e4a e4b
      exact h1

theorem execCxlLinkRetrain_keeps {x0} {x1} (h :
    Keeps s0 s) : ∃ t, execCxlLinkRetrain x0 x1 s = .next t ∧ Keeps s0 t := by
  refine ⟨_, rfl, ?_⟩
  extract_lets +onlyGivenNames y1
  clear_value y1
  refine Keeps.ite ?_ ?_
  · exact h
  · extract_lets +onlyGivenNames y2
    clear_value y2
    extract_lets +onlyGivenNames y3
    clear_value y3
    extract_lets +onlyGivenNames y4
    clear_value y4
    extract_lets +onlyGivenNames y5
    clear_value y5
    extract_lets +onlyGivenNames y6
    have h6 : Keeps s0 y6 := by
      unfold y6
      refine setHost_keeps ?_
      exact h
    clear_value y6
    refine Keeps.ite ?_ ?_
    · refine post_keeps ?_
      exact h6
    · exact h6

theorem execPcount_keeps {x0} {x1} (h : Keeps s0 s) : ∃ t, execPcount x0 x1 s = .next t ∧ Keeps s0 t := by
  refine ⟨_, rfl, ?_⟩
  refine vecSlotOp_keeps ?_
  exact h

theorem execSilu_keeps {x0} {x1} (h : Keeps s0 s) : ∃ t, execSilu x0 x1 s = .next t ∧ Keeps s0 t := by
  refine ⟨_, rfl, ?_⟩
  refine sfu_keeps ?_
  exact h

theorem execPacketForward_keeps {x0} {x1} {x2} {x3} (h :
    Keeps s0 s) : ∃ t, execPacketForward x0 x1 x2 x3 s = .next t ∧ Keeps s0 t := by
  refine ⟨_, rfl, ?_⟩
  extract_lets +onlyGivenNames y1
  clear_value y1
  extract_lets +onlyGivenNames y2
  clear_value y2
  refine Keeps.ite ?_ ?_
  · exact h
  · refine Keeps.ite ?_ ?_
    · extract_lets +onlyGivenNames y3
      clear_value y3
      with_reducible refine Keeps.same ?_
      exact h
    · with_reducible refine Keeps.same ?_
      exact h

theorem execCoreReset_keeps {x0} (h : Keeps s0 s) : ∃ t, execCoreReset x0 s = .next t ∧ Keeps s0 t := by
  refine ⟨_, rfl, ?_⟩
  refine Keeps.ite ?_ ?_
  · exact h
  · extract_lets +onlyGivenNames y1
    clear_value y1
    extract_lets +onlyGivenNames y2
    clear_value y2
    extract_lets +onlyGivenNames y3
    have h3 : Keeps s0 y3 := by
      unfold y3
      refine setCore_keeps ?_
      exact h
    clear_value y3
    refine freshCore_keeps ?_
    refine emptyCore_keeps ?_
    exact h3

theorem execFsub_keeps {x0} {x1} (h : Keeps s0 s) : ∃ t, execFsub x0 x1 s = .next t ∧ Keeps s0 t := by
  refine ⟨_, rfl, ?_⟩
  refine vec3_keeps ?_
  exact h

theorem execRmax_keeps {x0} {x1} (h : Keeps s0 s) : ∃ t, execRmax x0 x1 s = .next t ∧ Keeps s0 t := by
  refine ⟨_, rfl, ?_⟩
  refine reduce_keeps ?_
  exact h

theorem execJalr_keeps {x0} {x1} (h : Keeps s0 s) : ∃ t, execJalr x0 x1 s = .next t ∧ Keeps s0 t := by
  refine ⟨_, rfl, ?_⟩
  refine transfer_keeps ?_
  exact h

theorem execPfFlr_keeps (h : Keeps s0 s) : ∃ t, execPfFlr  s = .next t ∧ Keeps s0 t := by
  refine ⟨_, rfl, ?_⟩
  refine Keeps.ite ?_ ?_
  · exact h
  · refine resetFn_keeps ?_
    exact h

theorem execEncodeFrame_keeps {x0} {x1} (h : Keeps s0 s) : ∃ t, execEncodeFrame x0 x1 s = .next t ∧ Keeps s0 t := by
  refine ⟨_, rfl, ?_⟩
  extract_lets +onlyGivenNames y1
  clear_value y1
  split
  · rename_i e2a e2b
    exact h
  · rename_i e3a e3b e3c e3d
    refine Keeps.ite ?_ ?_
    · exact h
    · refine encodeFrame_keeps ?_
      exact h

theorem execCmpLt_keeps {x0} {x1} (h : Keeps s0 s) : ∃ t, execCmpLt x0 x1 s = .next t ∧ Keeps s0 t := by
  refine ⟨_, rfl, ?_⟩
  refine vecCmp_keeps ?_
  exact h

theorem execHotChannelWindow_keeps {g c b p} (h :
    Keeps s0 s) : ∃ t, execHotChannelWindow g c b p s = .next t ∧ Keeps s0 t := by
  refine ⟨_, rfl, ?_⟩
  extract_lets +onlyGivenNames sum top hot n m s1
  have h1 : Keeps s0 s1 := h.withMem fun hm => by
    simp only [Mem.wf, Bool.and_eq_true] at hm ⊢
    simp only [m, hm, mapSet_wf, and_self]
  clear_value s1
  exact Keeps.ite h1 (postEachSecond_keeps h1)

theorem execRegionBackInService_keeps {x0} (h :
    Keeps s0 s) : ∃ t, execRegionBackInService x0 s = .next t ∧ Keeps s0 t := by
  refine ⟨_, rfl, ?_⟩
  refine Keeps.ite ?_ ?_
  · refine setRegion_keeps ?_
    exact h
  · exact h

theorem execFcvtS_keeps {x0} {x1} (h : Keeps s0 s) : ∃ t, execFcvtS x0 x1 s = .next t ∧ Keeps s0 t := by
  refine ⟨_, rfl, ?_⟩
  refine vecFp_keeps ?_
  exact h

theorem execPandn_keeps {x0} {x1} (h : Keeps s0 s) : ∃ t, execPandn x0 x1 s = .next t ∧ Keeps s0 t := by
  refine ⟨_, rfl, ?_⟩
  refine vecSlotOp_keeps ?_
  exact h

theorem execVmov_keeps {x0} {x1} (h : Keeps s0 s) : ∃ t, execVmov x0 x1 s = .next t ∧ Keeps s0 t := by
  refine ⟨_, rfl, ?_⟩
  refine vec_keeps ?_
  exact h

theorem execRmin_keeps {x0} {x1} (h : Keeps s0 s) : ∃ t, execRmin x0 x1 s = .next t ∧ Keeps s0 t := by
  refine ⟨_, rfl, ?_⟩
  refine reduce_keeps ?_
  exact h

theorem execCoreUnfenceCmd_keeps {x0} (h : Keeps s0 s) : ∃ t, execCoreUnfenceCmd x0 s = .next t ∧ Keeps s0 t := by
  refine ⟨_, rfl, ?_⟩
  refine Keeps.ite ?_ ?_
  · refine fenceCmd_keeps ?_
    exact h
  · exact h

theorem execMovSa_keeps {x0} {x1} (h : Keeps s0 s) : ∃ t, execMovSa x0 x1 s = .next t ∧ Keeps s0 t := by
  refine ⟨_, rfl, ?_⟩
  refine slotOp_keeps ?_
  exact h

theorem execObjCreate_keeps {q} (h : Keeps s0 s) : ∃ t, execObjCreate q s = .next t ∧ Keeps s0 t := by
  refine ⟨_, rfl, take_keeps h fun t r e ht => ?_⟩
  split
  · exact finish_keeps ht
  · refine Keeps.ite (finish_keeps ht) ?_
    split
    · exact finish_keeps ht
    · refine Keeps.ite (finish_keeps (refuse_keeps ht)) ?_
      split
      · exact finish_keeps ht
      · rename_i id _
        extract_lets +onlyGivenNames o s1 first done
        have h1 : Keeps s0 s1 := tick_keeps ht
        have hd : ∀ u, done = some u → Keeps s0 u := by
          intro u hu
          simp only [done] at hu
          split at hu
          · exact takeHomes_keeps h1 hu
          · cases hu; exact emptyHomes_keeps h1
        clear_value done
        split
        · exact finish_keeps h1
        · rename_i u
          exact finish_keeps (setObj_keeps (hd u rfl))

theorem execWardenPairRestartDone_keeps (h :
    Keeps s0 s) : ∃ t, execWardenPairRestartDone  s = .next t ∧ Keeps s0 t := by
  refine ⟨_, rfl, ?_⟩
  refine Keeps.ite ?_ ?_
  · exact h
  · extract_lets +onlyGivenNames y1
    clear_value y1
    extract_lets +onlyGivenNames y2
    clear_value y2
    extract_lets +onlyGivenNames y3
    have h3 : Keeps s0 y3 := by
      unfold y3
      refine setEv_keeps ?_
      exact h
    clear_value y3
    with_reducible refine Keeps.same ?_
    exact h3

theorem execDiv_keeps {x0} {x1} {x2} (h : Keeps s0 s) : ∃ t, execDiv x0 x1 x2 s = .next t ∧ Keeps s0 t := by
  refine ⟨_, rfl, ?_⟩
  refine alu_keeps ?_
  exact h

theorem execBge_keeps {x0} {x1} (h : Keeps s0 s) : ∃ t, execBge x0 x1 s = .next t ∧ Keeps s0 t := by
  refine ⟨_, rfl, ?_⟩
  refine branch_keeps ?_
  exact h

theorem execSemPost_keeps {x0} {x1} (h : Keeps s0 s) : ∃ t, execSemPost x0 x1 s = .next t ∧ Keeps s0 t := by
  refine ⟨_, rfl, ?_⟩
  refine run_keeps ?_ ?_
  · exact h
  · intro z1a h1
    extract_lets +onlyGivenNames y2
    clear_value y2
    extract_lets +onlyGivenNames y3
    clear_value y3
    extract_lets +onlyGivenNames y4
    clear_value y4
    refine Keeps.ite ?_ ?_
    · exact h1
    · refine semValue_keeps ?_
      exact h1

theorem execTanh_keeps {x0} {x1} (h : Keeps s0 s) : ∃ t, execTanh x0 x1 s = .next t ∧ Keeps s0 t := by
  refine ⟨_, rfl, ?_⟩
  refine sfu_keeps ?_
  exact h

theorem execObjDestroy_keeps {x0} (h : Keeps s0 s) : ∃ t, execObjDestroy x0 s = .next t ∧ Keeps s0 t := by
  refine ⟨_, rfl, ?_⟩
  refine take_keeps ?_ ?_
  · exact h
  · intro z1a z1b z1c h1
    extract_lets +onlyGivenNames y2
    clear_value y2
    extract_lets +onlyGivenNames y3
    clear_value y3
    refine Keeps.ite ?_ ?_
    · refine finish_keeps ?_
      exact h1
    · refine Keeps.ite ?_ ?_
      · refine finish_keeps ?_
        refine refuse_keeps ?_
        exact h1
      · refine Keeps.ite ?_ ?_
        · refine finish_keeps ?_
          exact h1
        · refine finish_keeps ?_
          refine settleJobId_keeps ?_
          refine destroyObj_keeps ?_
          exact h1

theorem execWardenStart_keeps (h : Keeps s0 s) : ∃ t, execWardenStart  s = .next t ∧ Keeps s0 t := by
  refine ⟨_, rfl, ?_⟩
  extract_lets +onlyGivenNames y1
  have h1 : Keeps s0 y1 := by
    unfold y1
    refine Keeps.ite ?_ ?_
    · refine coldReset_keeps ?_
      exact h
    · exact h
  clear_value y1
  refine Keeps.ite ?_ ?_
  · exact h1
  · extract_lets +onlyGivenNames y2
    clear_value y2
    extract_lets +onlyGivenNames y3
    clear_value y3
    extract_lets +onlyGivenNames y4
    clear_value y4
    extract_lets +onlyGivenNames y5
    have h5 : Keeps s0 y5 := by
      unfold y5
      refine Keeps.ite ?_ ?_
      · exact h1
      · refine setSec_keeps ?_
        exact h1
    clear_value y5
    extract_lets +onlyGivenNames y6
    clear_value y6
    refine Keeps.ite ?_ ?_
    · refine completePhase_keeps ?_
      refine setRunning_keeps ?_
      exact h5
    · exact h5

theorem execMovPs_keeps {x0} {x1} (h : Keeps s0 s) : ∃ t, execMovPs x0 x1 s = .next t ∧ Keeps s0 t := by
  refine ⟨_, rfl, ?_⟩
  refine vecSlotOp_keeps ?_
  exact h

theorem execAmomin_keeps {x0} {x1} (h : Keeps s0 s) : ∃ t, execAmomin x0 x1 s = .next t ∧ Keeps s0 t := by
  refine ⟨_, rfl, ?_⟩
  refine atomic_keeps ?_
  exact h

theorem execDmaLd_keeps {x0} {x1} (h : Keeps s0 s) : ∃ t, execDmaLd x0 x1 s = .next t ∧ Keeps s0 t := by
  refine ⟨_, rfl, ?_⟩
  refine dma_keeps ?_
  exact h

theorem execLanternWatchdogExpiry_keeps {x0} (h :
    Keeps s0 s) : ∃ t, execLanternWatchdogExpiry x0 s = .next t ∧ Keeps s0 t := by
  refine ⟨_, rfl, ?_⟩
  refine Keeps.ite ?_ ?_
  · refine Keeps.ite ?_ ?_
    · refine pairMismatch_keeps ?_
      exact h
    · exact h
  · refine Keeps.ite ?_ ?_
    · exact h
    · extract_lets +onlyGivenNames y1
      clear_value y1
      extract_lets +onlyGivenNames y2
      clear_value y2
      extract_lets +onlyGivenNames y3
      clear_value y3
      extract_lets +onlyGivenNames y4
      have h4 : Keeps s0 y4 := by
        unfold y4
        refine lanternRestart_keeps ?_
        exact h
      clear_value y4
      refine Keeps.ite ?_ ?_
      · refine setDep_keeps ?_
        exact h4
      · extract_lets +onlyGivenNames y5
        clear_value y5
        extract_lets +onlyGivenNames y6
        have h6 : Keeps s0 y6 := by
          unfold y6
          refine setDep_keeps ?_
          exact h4
        clear_value y6
        refine Keeps.ite ?_ ?_
        · refine updateBack_keeps ?_
          exact h6
        · refine contain_keeps ?_
          exact h6

theorem execSemSet_keeps {x0} {x1} (h : Keeps s0 s) : ∃ t, execSemSet x0 x1 s = .next t ∧ Keeps s0 t := by
  refine ⟨_, rfl, ?_⟩
  refine run_keeps ?_ ?_
  · exact h
  · intro z1a h1
    extract_lets +onlyGivenNames y2
    clear_value y2
    extract_lets +onlyGivenNames y3
    clear_value y3
    refine Keeps.ite ?_ ?_
    · exact h1
    · refine semValue_keeps ?_
      exact h1

theorem execTierUp_keeps {x0} {x1} (h : Keeps s0 s) : ∃ t, execTierUp x0 x1 s = .next t ∧ Keeps s0 t := by
  refine ⟨_, rfl, ?_⟩
  refine tierHint_keeps ?_
  exact h

theorem execSrl_keeps {x0} {x1} {x2} (h : Keeps s0 s) : ∃ t, execSrl x0 x1 x2 s = .next t ∧ Keeps s0 t := by
  refine ⟨_, rfl, ?_⟩
  refine alu_keeps ?_
  exact h

theorem execInputRecovered_keeps {x0} (h : Keeps s0 s) : ∃ t, execInputRecovered x0 s = .next t ∧ Keeps s0 t := by
  refine ⟨_, rfl, ?_⟩
  refine Keeps.ite ?_ ?_
  · exact h
  · extract_lets +onlyGivenNames y1
    clear_value y1
    extract_lets +onlyGivenNames y2
    have h2 : Keeps s0 y2 := by
      unfold y2
      refine setPower_keeps ?_
      exact h
    clear_value y2
    refine Keeps.ite ?_ ?_
    · extract_lets +onlyGivenNames y3
      have h3 : Keeps s0 y3 := by
        unfold y3
        refine coldReset_keeps ?_
        exact h2
      clear_value y3
      with_reducible refine Keeps.same ?_
      exact h3
    · exact h2

theorem execExp2_keeps {x0} {x1} (h : Keeps s0 s) : ∃ t, execExp2 x0 x1 s = .next t ∧ Keeps s0 t := by
  refine ⟨_, rfl, ?_⟩
  refine sfu_keeps ?_
  exact h

theorem execSpdmRequest_keeps {x0} {x1} (h : Keeps s0 s) : ∃ t, execSpdmRequest x0 x1 s = .next t ∧ Keeps s0 t := by
  refine ⟨_, rfl, ?_⟩
  extract_lets +onlyGivenNames y1
  have h1 : ∀ z1a z1b z1c, Keeps s0 z1a → Keeps s0 (y1 z1a z1b z1c) := by
    unfold y1
    intro z2a z2b z2c h2
    refine setSec_keeps ?_
    exact h2
  clear_value y1
  extract_lets +onlyGivenNames y3
  clear_value y3
  refine Keeps.ite ?_ ?_
  · exact h
  · refine Keeps.ite ?_ ?_
    · split
      · rename_i e4a
        exact h
      · rename_i e5a
        exact h
      · rename_i e6a e6b e6c
        refine tick_keeps ?_
        refine refuse_keeps ?_
        exact h
    · split
      · rename_i e7a
        refine h1 _ _ _ ?_
        exact h
      · rename_i e8a e8b e8c
        refine Keeps.ite ?_ ?_
        · refine h1 _ _ _ ?_
          exact h
        · refine Keeps.ite ?_ ?_
          · refine h1 _ _ _ ?_
            exact h
          · refine h1 _ _ _ ?_
            exact h

theorem execDecommission_keeps {x0} {x1} (h : Keeps s0 s) : ∃ t, execDecommission x0 x1 s = .next t ∧ Keeps s0 t := by
  refine ⟨_, rfl, ?_⟩
  refine secRequest_keeps ?_ ?_
  · exact h
  · intro z1a h1
    refine Keeps.ite ?_ ?_
    · refine reply_keeps ?_
      exact h1
    · extract_lets +onlyGivenNames y2
      have h2 : Keeps s0 y2 := by
        unfold y2
        refine Keeps.foldl _ ?_ ?_
        · exact h1
        · intro z3a z3b h3
          refine Keeps.ite ?_ ?_
          · refine cancelJob_keeps ?_
            exact h3
          · exact h3
      clear_value y2
      refine reply_keeps ?_
      refine decommission_keeps ?_
      exact h2

theorem execRefreshBegin_keeps {x0} (h : Keeps s0 s) : ∃ t, execRefreshBegin x0 s = .next t ∧ Keeps s0 t := by
  refine ⟨_, rfl, ?_⟩
  extract_lets +onlyGivenNames y1
  clear_value y1
  split
  · rename_i e2a e2b
    exact h
  · rename_i e3a e3b e3c
    extract_lets +onlyGivenNames y4
    clear_value y4
    refine Keeps.ite ?_ ?_
    · exact h
    · extract_lets +onlyGivenNames y5
      have h5 : Keeps s0 y5 := by
        unfold y5
        refine setJob_keeps ?_
        exact h
      clear_value y5
      refine putRcb_keeps ?_
      refine semValue_keeps ?_
      exact h5

theorem execCollAllreduce_keeps {x0} {x1} (h : Keeps s0 s) : ∃ t, execCollAllreduce x0 x1 s = .next t ∧ Keeps s0 t := by
  refine ⟨_, rfl, ?_⟩
  refine collIssue_keeps ?_
  exact h

theorem execStandbyLost_keeps (h : Keeps s0 s) : ∃ t, execStandbyLost  s = .next t ∧ Keeps s0 t := by
  refine ⟨_, rfl, ?_⟩
  refine Keeps.ite ?_ ?_
  · exact h
  · extract_lets +onlyGivenNames y1
    have h1 : Keeps s0 y1 := by
      unfold y1
      refine mainDown_keeps ?_
      exact h
    clear_value y1
    with_reducible refine Keeps.same ?_
    exact h1

theorem execFmul_keeps {x0} {x1} (h : Keeps s0 s) : ∃ t, execFmul x0 x1 s = .next t ∧ Keeps s0 t := by
  refine ⟨_, rfl, ?_⟩
  refine vec3_keeps ?_
  exact h

theorem execRowCommandRow_keeps {x0} (h : Keeps s0 s) : ∃ t, execRowCommandRow x0 s = .next t ∧ Keeps s0 t := by
  refine ⟨_, rfl, ?_⟩
  split
  · rename_i e1a e1b
    exact h
  · rename_i e2a e2b e2c e2d
    split
    · rename_i e3a e3b
      refine runRow_keeps ?_
      exact h
    · rename_i e4a e4b
      refine rowUpset_keeps ?_
      exact h
    · rename_i e5a e5b
      refine rowUpset_keeps ?_
      exact h

theorem execVperm_keeps {x0} {x1} (h : Keeps s0 s) : ∃ t, execVperm x0 x1 s = .next t ∧ Keeps s0 t := by
  refine ⟨_, rfl, ?_⟩
  refine permute_keeps ?_
  exact h

theorem execCollAllgather_keeps {x0} {x1} (h : Keeps s0 s) : ∃ t, execCollAllgather x0 x1 s = .next t ∧ Keeps s0 t := by
  refine ⟨_, rfl, ?_⟩
  refine collIssue_keeps ?_
  exact h

theorem execPclr_keeps {x0} {x1} (h : Keeps s0 s) : ∃ t, execPclr x0 x1 s = .next t ∧ Keeps s0 t := by
  refine ⟨_, rfl, ?_⟩
  refine vecSlotOp_keeps ?_
  exact h

theorem execGroupCreate_keeps {x0} (h : Keeps s0 s) : ∃ t, execGroupCreate x0 s = .next t ∧ Keeps s0 t := by
  refine ⟨_, rfl, ?_⟩
  refine take_keeps ?_ ?_
  · exact h
  · intro z1a z1b z1c h1
    split
    · rename_i e2a e2b
      refine finish_keeps ?_
      exact h1
    · rename_i e3a e3b e3c
      extract_lets +onlyGivenNames y4
      clear_value y4
      extract_lets +onlyGivenNames y5
      clear_value y5
      extract_lets +onlyGivenNames y6
      clear_value y6
      extract_lets +onlyGivenNames y7
      clear_value y7
      extract_lets +onlyGivenNames y8
      clear_value y8
      split
      · rename_i e9a e9b e9c
        refine finish_keeps ?_
        refine Keeps.ite ?_ ?_
        · refine refuse_keeps ?_
          exact h1
        · exact h1
      · rename_i e10a e10b
        split
        · rename_i e11a e11b e11c
          refine finish_keeps ?_
          exact h1
        · rename_i e12a e12b
          split
          · rename_i e13a e13b
            refine finish_keeps ?_
            exact h1
          · rename_i e14a e14b e14c
            extract_lets +onlyGivenNames y15
            clear_value y15
            split
            · rename_i e16a e16b e16c
              refine finish_keeps ?_
              exact h1
            · rename_i e17a e17b
              refine finish_keeps ?_
              refine setGroup_keeps ?_
              exact h1

theorem execPageWrite_keeps {x0} {x1} {x2} (h : Keeps s0 s) : ∃ t, execPageWrite x0 x1 x2 s = .next t ∧ Keeps s0 t := by
  refine ⟨_, rfl, ?_⟩
  refine pageOp_keeps ?_ ?_
  · exact h
  · intro z1a h1
    refine pageWrite_keeps ?_
    exact h1

theorem execCmpUnord_keeps {x0} {x1} (h : Keeps s0 s) : ∃ t, execCmpUnord x0 x1 s = .next t ∧ Keeps s0 t := by
  refine ⟨_, rfl, ?_⟩
  refine vecCmp_keeps ?_
  exact h

theorem execGate_keeps {x0} {x1} (h : Keeps s0 s) : ∃ t, execGate x0 x1 s = .next t ∧ Keeps s0 t := by
  refine ⟨_, rfl, ?_⟩
  refine run_keeps ?_ ?_
  · exact h
  · intro z1a h1
    refine startRows_keeps ?_
    exact h1

theorem execUnitTest_keeps {x0} {x1} (h : Keeps s0 s) : ∃ t, execUnitTest x0 x1 s = .next t ∧ Keeps s0 t := by
  refine ⟨_, rfl, ?_⟩
  split
  · rename_i e1a e1b e1c e1d
    refine Keeps.ite ?_ ?_
    · refine unitTested_keeps ?_
      exact h
    · exact h
  · rename_i e2a e2b
    exact h

theorem execTime_keeps {x0} {x1} (h : Keeps s0 s) : ∃ t, execTime x0 x1 s = .next t ∧ Keeps s0 t := by
  refine ⟨_, rfl, ?_⟩
  refine slotOp_keeps ?_
  exact h

theorem execPenumbraTimeout_keeps {x0} (h : Keeps s0 s) : ∃ t, execPenumbraTimeout x0 s = .next t ∧ Keeps s0 t := by
  refine ⟨_, rfl, ?_⟩
  extract_lets +onlyGivenNames y1
  clear_value y1
  split
  · rename_i e2a e2b
    exact h
  · rename_i e3a e3b e3c e3d
    refine Keeps.ite ?_ ?_
    · exact h
    · extract_lets +onlyGivenNames y4
      clear_value y4
      refine moveStripe_keeps ?_
      refine postEachSecond_keeps ?_
      exact h

theorem execJobTeardown_keeps {x0} (h : Keeps s0 s) : ∃ t, execJobTeardown x0 s = .next t ∧ Keeps s0 t := by
  refine ⟨_, rfl, ?_⟩
  extract_lets +onlyGivenNames y1
  clear_value y1
  refine Keeps.ite ?_ ?_
  · exact h
  · extract_lets +onlyGivenNames y2
    clear_value y2
    extract_lets +onlyGivenNames y3
    have h3 : Keeps s0 y3 := by
      unfold y3
      refine endWaiting_keeps ?_
      refine setJob_keeps ?_
      exact h
    clear_value y3
    extract_lets +onlyGivenNames y4
    have h4 : Keeps s0 y4 := by
      unfold y4
      refine tearUnits_keeps ?_
      refine tearSems_keeps ?_
      refine tearSlots_keeps ?_
      exact h3
    clear_value y4
    extract_lets +onlyGivenNames y5
    have h5 : Keeps s0 y5 := by
      unfold y5
      refine hubPut_keeps ?_
      refine quarantine_keeps ?_
      exact h4
    clear_value y5
    extract_lets +onlyGivenNames y6
    clear_value y6
    extract_lets +onlyGivenNames y7
    have h7 : Keeps s0 y7 := by
      unfold y7
      refine post_keeps ?_
      exact h5
    clear_value y7
    extract_lets +onlyGivenNames y8
    have h8 : Keeps s0 y8 := by
      unfold y8
      refine finish_keeps ?_
      exact h7
    clear_value y8
    extract_lets +onlyGivenNames y9
    clear_value y9
    extract_lets +onlyGivenNames y10
    have h10 : Keeps s0 y10 := by
      unfold y10
      refine setJob_keeps ?_
      exact h8
    clear_value y10
    refine sweep_keeps ?_
    refine settleJobId_keeps ?_
    exact h10

theorem execSluiceDrained_keeps {x0} (h : Keeps s0 s) : ∃ t, execSluiceDrained x0 s = .next t ∧ Keeps s0 t :=
  ⟨_, rfl, Keeps.ite h (setSluice_keeps h)⟩

theorem execStripedStageReserve_keeps {x0} {x1} (h :
    Keeps s0 s) : ∃ t, execStripedStageReserve x0 x1 s = .next t ∧ Keeps s0 t := by
  refine ⟨_, rfl, ?_⟩
  extract_lets +onlyGivenNames y1
  clear_value y1
  extract_lets +onlyGivenNames y2
  clear_value y2
  split
  · rename_i e3a e3b e3c
    refine Keeps.ite ?_ ?_
    · refine setJob_keeps ?_
      exact h
    · exact h
  · rename_i e4a e4b
    exact h

theorem execLinkTrain_keeps {x0} {x1} (h : Keeps s0 s) : ∃ t, execLinkTrain x0 x1 s = .next t ∧ Keeps s0 t := by
  refine ⟨_, rfl, ?_⟩
  extract_lets +onlyGivenNames y1
  clear_value y1
  refine Keeps.ite ?_ ?_
  · refine linkTrain_keeps ?_
    exact h
  · exact h

theorem execDikeWindow_keeps {x0} {x1} (h : Keeps s0 s) : ∃ t, execDikeWindow x0 x1 s = .next t ∧ Keeps s0 t := by
  refine ⟨_, rfl, ?_⟩
  extract_lets +onlyGivenNames y1
  clear_value y1
  extract_lets +onlyGivenNames y2
  clear_value y2
  extract_lets +onlyGivenNames y3
  clear_value y3
  extract_lets +onlyGivenNames y4
  have h4 : Keeps s0 y4 := by
    unfold y4
    refine setDike_keeps ?_
    exact h
  clear_value y4
  refine Keeps.ite ?_ ?_
  · exact h4
  · refine postEachSecond_keeps ?_
    exact h4

theorem execSemWaitge_keeps {x0} {x1} (h : Keeps s0 s) : ∃ t, execSemWaitge x0 x1 s = .next t ∧ Keeps s0 t := by
  refine ⟨_, rfl, ?_⟩
  refine semWait_keeps ?_
  exact h

theorem execDsilu_keeps {x0} {x1} (h : Keeps s0 s) : ∃ t, execDsilu x0 x1 s = .next t ∧ Keeps s0 t := by
  refine ⟨_, rfl, ?_⟩
  refine sfu_keeps ?_
  exact h

theorem execSlotWrite_keeps {x0} {x1} {x2} {x3} (h :
    Keeps s0 s) : ∃ t, execSlotWrite x0 x1 x2 x3 s = .next t ∧ Keeps s0 t := by
  refine ⟨_, rfl, ?_⟩
  refine secRequest_keeps ?_ ?_
  · exact h
  · intro z1a h1
    refine Keeps.ite ?_ ?_
    · refine reply_keeps ?_
      exact h1
    · refine Keeps.ite ?_ ?_
      · refine reply_keeps ?_
        exact h1
      · extract_lets +onlyGivenNames y2
        clear_value y2
        refine reply_keeps ?_
        refine setSlotB_keeps ?_
        exact h1

theorem execProgress_keeps {x0} (h : Keeps s0 s) : ∃ t, execProgress x0 s = .next t ∧ Keeps s0 t := by
  refine ⟨_, rfl, ?_⟩
  refine take_keeps ?_ ?_
  · exact h
  · intro z1a z1b z1c h1
    refine onTarget_keeps ?_ ?_
    · exact h1
    · intro z2a h2
      extract_lets +onlyGivenNames y3
      clear_value y3
      refine complete_keeps ?_
      refine tick_keeps ?_
      exact h2

theorem execIrsum_keeps {x0} {x1} (h : Keeps s0 s) : ∃ t, execIrsum x0 x1 s = .next t ∧ Keeps s0 t := by
  refine ⟨_, rfl, ?_⟩
  refine reduce_keeps ?_
  exact h

theorem execIllegalOpcode_keeps {x0} {x1} (h : Keeps s0 s) : ∃ t, execIllegalOpcode x0 x1 s = .next t ∧ Keeps s0 t := by
  refine ⟨_, rfl, ?_⟩
  refine Keeps.ite ?_ ?_
  · exact h
  · refine issue_keeps ?_ ?_
    · exact h
    · intro z1a h1
      refine Keeps.ite ?_ ?_
      · refine advance_keeps ?_
        exact h1
      · refine instrFault_keeps ?_
        exact h1

theorem execCollAbortIn_keeps {x0} {x1} (h : Keeps s0 s) : ∃ t, execCollAbortIn x0 x1 s = .next t ∧ Keeps s0 t := by
  refine ⟨_, rfl, ?_⟩
  split
  · rename_i e1a e1b e1c
    refine collFail_keeps ?_
    exact h
  · rename_i e2a e2b
    exact h

theorem execMovSd_keeps {x0} {x1} (h : Keeps s0 s) : ∃ t, execMovSd x0 x1 s = .next t ∧ Keeps s0 t := by
  refine ⟨_, rfl, ?_⟩
  refine slotOp_keeps ?_
  exact h

theorem execIminu_keeps {x0} {x1} (h : Keeps s0 s) : ∃ t, execIminu x0 x1 s = .next t ∧ Keeps s0 t := by
  refine ⟨_, rfl, ?_⟩
  refine vecInt_keeps ?_
  exact h

theorem execSramEccError_keeps {x0} {x1} (h : Keeps s0 s) : ∃ t, execSramEccError x0 x1 s = .next t ∧ Keeps s0 t := by
  refine ⟨_, rfl, ?_⟩
  refine Keeps.ite ?_ ?_
  · exact h
  · refine Keeps.ite ?_ ?_
    · refine sramCorrected_keeps ?_
      exact h
    · refine sramLost_keeps ?_
      exact h

theorem execPolderCtrlWrite_keeps {x0} {x1} (h :
    Keeps s0 s) : ∃ t, execPolderCtrlWrite x0 x1 s = .next t ∧ Keeps s0 t := by
  refine ⟨_, rfl, ?_⟩
  refine Keeps.ite ?_ ?_
  · refine polderCtrl_keeps ?_
    exact h
  · exact h

theorem execAmomax_keeps {x0} {x1} (h : Keeps s0 s) : ∃ t, execAmomax x0 x1 s = .next t ∧ Keeps s0 t := by
  refine ⟨_, rfl, ?_⟩
  refine atomic_keeps ?_
  exact h

theorem execTmm_keeps {x0} {x1} {x2} (h : Keeps s0 s) : ∃ t, execTmm x0 x1 x2 s = .next t ∧ Keeps s0 t := by
  refine ⟨_, rfl, ?_⟩
  refine run_keeps ?_ ?_
  · exact h
  · intro z1a h1
    extract_lets +onlyGivenNames y2
    clear_value y2
    extract_lets +onlyGivenNames y3
    clear_value y3
    extract_lets +onlyGivenNames y4
    clear_value y4
    extract_lets +onlyGivenNames y5
    clear_value y5
    extract_lets +onlyGivenNames y6
    clear_value y6
    refine enqueue_keeps ?_
    refine passFree_keeps ?_
    refine devSpend_keeps ?_
    exact h1

theorem execMainPowerLost_keeps {x0} (h : Keeps s0 s) : ∃ t, execMainPowerLost x0 s = .next t ∧ Keeps s0 t := by
  refine ⟨_, rfl, ?_⟩
  refine Keeps.ite ?_ ?_
  · exact h
  · refine mainDown_keeps ?_
    refine powerEvent_keeps ?_
    refine setVolts_keeps ?_
    exact h

theorem execThermalTermUpdate_keeps {x0} {x1} {x2} (h :
    Keeps s0 s) : ∃ t, execThermalTermUpdate x0 x1 x2 s = .next t ∧ Keeps s0 t := by
  refine ⟨_, rfl, ?_⟩
  refine Keeps.ite ?_ ?_
  · exact h
  · extract_lets +onlyGivenNames y1
    clear_value y1
    extract_lets +onlyGivenNames y2
    clear_value y2
    extract_lets +onlyGivenNames y3
    clear_value y3
    extract_lets +onlyGivenNames y4
    clear_value y4
    extract_lets +onlyGivenNames y5
    have h5 : Keeps s0 y5 := by
      unfold y5
      refine setPower_keeps ?_
      exact h
    clear_value y5
    extract_lets +onlyGivenNames y6
    clear_value y6
    extract_lets +onlyGivenNames y7
    have h7 : Keeps s0 y7 := by
      unfold y7
      refine Keeps.ite ?_ ?_
      · refine Keeps.ite ?_ ?_
        · refine postEachSecond_keeps ?_
          exact h5
        · exact h5
      · refine Keeps.ite ?_ ?_
        · refine setPower_keeps ?_
          exact h
        · refine setPower_keeps ?_
          exact h
    clear_value y7
    refine Keeps.ite ?_ ?_
    · exact h7
    · extract_lets +onlyGivenNames y8
      clear_value y8
      extract_lets +onlyGivenNames y9
      have h9 : Keeps s0 y9 := by
        unfold y9
        refine setPower_keeps ?_
        exact h7
      clear_value y9
      refine Keeps.ite ?_ ?_
      · refine post_keeps ?_
        exact h9
      · exact h9

theorem execVrot_keeps {x0} {x1} (h : Keeps s0 s) : ∃ t, execVrot x0 x1 s = .next t ∧ Keeps s0 t := by
  refine ⟨_, rfl, ?_⟩
  refine permute_keeps ?_
  exact h

theorem execBunpkH_keeps {x0} {x1} (h : Keeps s0 s) : ∃ t, execBunpkH x0 x1 s = .next t ∧ Keeps s0 t := by
  refine ⟨_, rfl, ?_⟩
  refine vecFp_keeps ?_
  exact h

theorem execFlowLowSustained_keeps (h : Keeps s0 s) : ∃ t, execFlowLowSustained  s = .next t ∧ Keeps s0 t := by
  refine ⟨_, rfl, ?_⟩
  extract_lets +onlyGivenNames y1
  clear_value y1
  refine Keeps.ite ?_ ?_
  · refine postEachMinute_keeps ?_
    refine setPower_keeps ?_
    exact h
  · exact h

theorem execHostPoolAdd_keeps {x0} (h : Keeps s0 s) : ∃ t, execHostPoolAdd x0 s = .next t ∧ Keeps s0 t := by
  refine ⟨_, rfl, ?_⟩
  refine take_keeps ?_ ?_
  · exact h
  · intro z1a z1b z1c h1
    refine pfOnly_keeps ?_ ?_
    · exact h1
    · intro z2a h2
      extract_lets +onlyGivenNames y3
      clear_value y3
      extract_lets +onlyGivenNames y4
      clear_value y4
      extract_lets +onlyGivenNames y5
      clear_value y5
      refine Keeps.ite ?_ ?_
      · refine finish_keeps ?_
        exact h2
      · refine Keeps.ite ?_ ?_
        · refine finish_keeps ?_
          exact h2
        · refine Keeps.ite ?_ ?_
          · refine finish_keeps ?_
            exact h2
          · refine Keeps.ite ?_ ?_
            · refine finish_keeps ?_
              exact h2
            · refine finish_keeps ?_
              refine setHost_keeps ?_
              exact h2

theorem execBlt_keeps {x0} {x1} (h : Keeps s0 s) : ∃ t, execBlt x0 x1 s = .next t ∧ Keeps s0 t := by
  refine ⟨_, rfl, ?_⟩
  refine branch_keeps ?_
  exact h

theorem execColdReset_keeps (h : Keeps s0 s) : ∃ t, execColdReset  s = .next t ∧ Keeps s0 t := by
  refine ⟨_, rfl, ?_⟩
  refine Keeps.ite ?_ ?_
  · exact h
  · refine coldReset_keeps ?_
    exact h

theorem execThermalHoldExpiry_keeps {x0} {x1} (h :
    Keeps s0 s) : ∃ t, execThermalHoldExpiry x0 x1 s = .next t ∧ Keeps s0 t := by
  refine ⟨_, rfl, ?_⟩
  refine Keeps.ite ?_ ?_
  · exact h
  · refine mainDown_keeps ?_
    refine post_keeps ?_
    exact h

theorem execScalarLoad_keeps {x0} {x1} {x2} (h :
    Keeps s0 s) : ∃ t, execScalarLoad x0 x1 x2 s = .next t ∧ Keeps s0 t := by
  refine ⟨_, rfl, ?_⟩
  refine runMinor_keeps ?_ ?_
  · exact h
  · intro z1a h1
    extract_lets +onlyGivenNames y2
    clear_value y2
    extract_lets +onlyGivenNames y3
    clear_value y3
    extract_lets +onlyGivenNames y4
    clear_value y4
    extract_lets +onlyGivenNames y5
    clear_value y5
    extract_lets +onlyGivenNames y6
    have h6 : Keeps s0 y6 := by
      unfold y6
      refine Keeps.ite ?_ ?_
      · refine countClip_keeps ?_
        exact h1
      · refine passFree_keeps ?_
        refine devSpend_keeps ?_
        exact h1
    clear_value y6
    refine setAt_keeps ?_
    exact h6

theorem execPowerLoopTick_keeps {x0} (h : Keeps s0 s) : ∃ t, execPowerLoopTick x0 s = .next t ∧ Keeps s0 t := by
  refine ⟨_, rfl, ?_⟩
  refine Keeps.ite ?_ ?_
  · exact h
  · extract_lets +onlyGivenNames y1
    clear_value y1
    extract_lets +onlyGivenNames y2
    clear_value y2
    extract_lets +onlyGivenNames y3
    clear_value y3
    extract_lets +onlyGivenNames y4
    clear_value y4
    extract_lets +onlyGivenNames y5
    clear_value y5
    extract_lets +onlyGivenNames y6
    clear_value y6
    extract_lets +onlyGivenNames y7
    have h7 : Keeps s0 y7 := by
      unfold y7
      refine Keeps.ite ?_ ?_
      · refine Keeps.ite ?_ ?_
        · refine throttleStep_keeps ?_
          exact h
        · refine Keeps.ite ?_ ?_
          · refine throttleStep_keeps ?_
            exact h
          · refine Keeps.ite ?_ ?_
            · refine powerEvent_keeps ?_
              refine setPower_keeps ?_
              exact h
            · refine setPower_keeps ?_
              exact h
      · refine Keeps.ite ?_ ?_
        · refine setPower_keeps ?_
          exact h
        · refine setPower_keeps ?_
          exact h
    clear_value y7
    extract_lets +onlyGivenNames y8
    clear_value y8
    refine setPower_keeps ?_
    exact h7

theorem execSmaxBwd_keeps {x0} {x1} (h : Keeps s0 s) : ∃ t, execSmaxBwd x0 x1 s = .next t ∧ Keeps s0 t := by
  refine ⟨_, rfl, ?_⟩
  refine blockCmd_keeps ?_
  exact h

theorem execRegisterWrite_keeps {x0} {x1} {x2} {x3} (h :
    Keeps s0 s) : ∃ t, execRegisterWrite x0 x1 x2 x3 s = .next t ∧ Keeps s0 t := by
  refine ⟨_, rfl, ?_⟩
  refine writeReg_keeps ?_
  exact h

theorem execAttnMerge_keeps {x0} {x1} {x2} (h : Keeps s0 s) : ∃ t, execAttnMerge x0 x1 x2 s = .next t ∧ Keeps s0 t := by
  refine ⟨_, rfl, ?_⟩
  refine attn_keeps ?_
  exact h

theorem execDgeluT_keeps {x0} {x1} (h : Keeps s0 s) : ∃ t, execDgeluT x0 x1 s = .next t ∧ Keeps s0 t := by
  refine ⟨_, rfl, ?_⟩
  refine sfu_keeps ?_
  exact h

theorem execAttnFwd_keeps {x0} {x1} {x2} (h : Keeps s0 s) : ∃ t, execAttnFwd x0 x1 x2 s = .next t ∧ Keeps s0 t := by
  refine ⟨_, rfl, ?_⟩
  refine attn_keeps ?_
  exact h

theorem execFneg_keeps {x0} {x1} (h : Keeps s0 s) : ∃ t, execFneg x0 x1 s = .next t ∧ Keeps s0 t := by
  refine ⟨_, rfl, ?_⟩
  refine vecFp_keeps ?_
  exact h

theorem execSluiceCopy_keeps {x0} (h : Keeps s0 s) : ∃ t, execSluiceCopy x0 s = .next t ∧ Keeps s0 t := by
  refine ⟨_, rfl, ?_⟩
  extract_lets +onlyGivenNames y1
  clear_value y1
  refine Keeps.ite ?_ ?_
  · exact h
  · refine copyRun_keeps ?_
    exact h

theorem execRefreshCommitDurable_keeps {x0} (h :
    Keeps s0 s) : ∃ t, execRefreshCommitDurable x0 s = .next t ∧ Keeps s0 t := by
  refine ⟨_, rfl, ?_⟩
  extract_lets +onlyGivenNames y1
  clear_value y1
  split
  · rename_i e2a e2b e2c e2d e2e e2f
    refine Keeps.ite ?_ ?_
    · exact h
    · extract_lets +onlyGivenNames y3
      clear_value y3
      extract_lets +onlyGivenNames y4
      have h4 : Keeps s0 y4 := by
        unfold y4
        refine recordOf_keeps ?_
        exact h
      clear_value y4
      extract_lets +onlyGivenNames y5
      have h5 : Keeps s0 y5 := by
        unfold y5
        refine setJob_keeps ?_
        exact h4
      clear_value y5
      extract_lets +onlyGivenNames y6
      have h6 : Keeps s0 y6 := by
        unfold y6
        refine hubPut_keeps ?_
        refine hubPut_keeps ?_
        exact h5
      clear_value y6
      extract_lets +onlyGivenNames y7
      have h7 : Keeps s0 y7 := by
        unfold y7
        refine Keeps.ite ?_ ?_
        · refine Keeps.foldl _ ?_ ?_
          · exact h6
          · intro z8a z8b h8
            refine releaseFlip_keeps ?_
            exact h8
        · exact h6
      clear_value y7
      refine refreshEvent_keeps ?_
      refine settleFlipBarriers_keeps ?_
      exact h7
  · rename_i e9a e9b e9c
    exact h

theorem execAttnBwdQ_keeps {x0} {x1} {x2} (h : Keeps s0 s) : ∃ t, execAttnBwdQ x0 x1 x2 s = .next t ∧ Keeps s0 t := by
  refine ⟨_, rfl, ?_⟩
  refine attn_keeps ?_
  exact h

theorem execCos_keeps {x0} {x1} (h : Keeps s0 s) : ∃ t, execCos x0 x1 s = .next t ∧ Keeps s0 t := by
  refine ⟨_, rfl, ?_⟩
  refine sfu_keeps ?_
  exact h

theorem execVstN_keeps {x0} {x1} (h : Keeps s0 s) : ∃ t, execVstN x0 x1 s = .next t ∧ Keeps s0 t := by
  refine ⟨_, rfl, ?_⟩
  refine vectorStore_keeps ?_
  exact h

theorem execCxlCacheSnoop_keeps {x0} {x1} (h : Keeps s0 s) : ∃ t, execCxlCacheSnoop x0 x1 s = .next t ∧ Keeps s0 t := by
  refine ⟨_, rfl, ?_⟩
  extract_lets +onlyGivenNames y1
  clear_value y1
  extract_lets +onlyGivenNames y2
  clear_value y2
  extract_lets +onlyGivenNames y3
  clear_value y3
  refine setHost_keeps ?_
  exact h

theorem execDikeTokenAccrual_keeps {x0} {x1} {x2} (h :
    Keeps s0 s) : ∃ t, execDikeTokenAccrual x0 x1 x2 s = .next t ∧ Keeps s0 t := by
  refine ⟨_, rfl, ?_⟩
  extract_lets +onlyGivenNames y1
  clear_value y1
  extract_lets +onlyGivenNames y2
  clear_value y2
  extract_lets +onlyGivenNames y3
  clear_value y3
  refine Keeps.ite ?_ ?_
  · exact h
  · extract_lets +onlyGivenNames y4
    clear_value y4
    extract_lets +onlyGivenNames y5
    clear_value y5
    extract_lets +onlyGivenNames y6
    clear_value y6
    refine setDike_keeps ?_
    exact h

theorem execGeluT_keeps {x0} {x1} (h : Keeps s0 s) : ∃ t, execGeluT x0 x1 s = .next t ∧ Keeps s0 t := by
  refine ⟨_, rfl, ?_⟩
  refine sfu_keeps ?_
  exact h

theorem execSemRead_keeps {x0} {x1} (h : Keeps s0 s) : ∃ t, execSemRead x0 x1 s = .next t ∧ Keeps s0 t := by
  refine ⟨_, rfl, ?_⟩
  refine slotOp_keeps ?_
  exact h

theorem execPor_keeps {x0} {x1} (h : Keeps s0 s) : ∃ t, execPor x0 x1 s = .next t ∧ Keeps s0 t := by
  refine ⟨_, rfl, ?_⟩
  refine vecSlotOp_keeps ?_
  exact h

theorem execCollJoinTimeout_keeps {x0} {x1} (h :
    Keeps s0 s) : ∃ t, execCollJoinTimeout x0 x1 s = .next t ∧ Keeps s0 t := by
  refine ⟨_, rfl, ?_⟩
  split
  · rename_i e1a e1b e1c
    refine collFail_keeps ?_
    exact h
  · rename_i e2a e2b
    exact h

theorem execHostMemWrite_keeps {x0} {x1} {x2} {x3} (h :
    Keeps s0 s) : ∃ t, execHostMemWrite x0 x1 x2 x3 s = .next t ∧ Keeps s0 t := by
  refine ⟨_, rfl, ?_⟩
  split
  · rename_i e1a e1b
    exact h
  · rename_i e2a e2b e2c
    refine Keeps.ite ?_ ?_
    · exact h
    · refine Keeps.foldl _ ?_ ?_
      · exact h
      · intro z3a z3b h3
        refine hostWritePart_keeps ?_
        exact h3

theorem execFmin_keeps {x0} {x1} (h : Keeps s0 s) : ∃ t, execFmin x0 x1 s = .next t ∧ Keeps s0 t := by
  refine ⟨_, rfl, ?_⟩
  refine vecFp_keeps ?_
  exact h

theorem execLog_keeps {x0} {x1} (h : Keeps s0 s) : ∃ t, execLog x0 x1 s = .next t ∧ Keeps s0 t := by
  refine ⟨_, rfl, ?_⟩
  refine sfu_keeps ?_
  exact h

theorem execNormBwd_keeps {x0} {x1} (h : Keeps s0 s) : ∃ t, execNormBwd x0 x1 s = .next t ∧ Keeps s0 t := by
  refine ⟨_, rfl, ?_⟩
  refine blockCmd_keeps ?_
  exact h

theorem execTaskPlace_keeps (h : Keeps s0 s) : ∃ t, execTaskPlace  s = .next t ∧ Keeps s0 t := by
  refine ⟨_, rfl, ?_⟩
  refine Keeps.ite ?_ ?_
  · exact h
  · split
    · rename_i e1a e1b e1c e1d
      have h2 := firstPlaced_keeps (by assumption) e1d
      refine Keeps.ite ?_ ?_
      · exact h
      · exact h2
    · rename_i e3a e3b
      exact h

theorem execRegionFirmwareSwitch_keeps {x0} (h :
    Keeps s0 s) : ∃ t, execRegionFirmwareSwitch x0 s = .next t ∧ Keeps s0 t := by
  refine ⟨_, rfl, ?_⟩
  split
  · rename_i e1a e1b
    exact h
  · rename_i e2a e2b e2c
    extract_lets +onlyGivenNames y3
    clear_value y3
    refine Keeps.ite ?_ ?_
    · exact h
    · extract_lets +onlyGivenNames y4
      have h4 : Keeps s0 y4 := by
        unfold y4
        refine emptyRegion_keeps ?_
        exact h
      clear_value y4
      extract_lets +onlyGivenNames y5
      clear_value y5
      extract_lets +onlyGivenNames y6
      have h6 : Keeps s0 y6 := by
        unfold y6
        refine setRegion_keeps ?_
        exact h4
      clear_value y6
      split
      · rename_i e7a e7b e7c e7d
        have h8 := switchImage_pair (by assumption) e7d
        extract_lets +onlyGivenNames y9
        clear_value y9
        extract_lets +onlyGivenNames y10
        have h10 : Keeps s0 y10 := by
          unfold y10
          refine setDep_keeps ?_
          exact h8
        clear_value y10
        extract_lets +onlyGivenNames y11
        have h11 : Keeps s0 y11 := by
          unfold y11
          refine lanternEvent_keeps ?_
          refine tableRequest_keeps ?_
          exact h10
        clear_value y11
        refine Keeps.ite ?_ ?_
        · split
          · rename_i e12a e12b e12c
            refine setDep_keeps ?_
            exact h11
          · rename_i e13a e13b
            exact h11
        · exact h11

theorem execIshr_keeps {x0} {x1} (h : Keeps s0 s) : ∃ t, execIshr x0 x1 s = .next t ∧ Keeps s0 t := by
  refine ⟨_, rfl, ?_⟩
  refine vecInt_keeps ?_
  exact h

theorem execSlotStatus_keeps {x0} (h : Keeps s0 s) : ∃ t, execSlotStatus x0 s = .next t ∧ Keeps s0 t := by
  refine ⟨_, rfl, ?_⟩
  refine secRequest_keeps ?_ ?_
  · exact h
  · intro z1a h1
    refine reply_keeps ?_
    exact h1

theorem execSlotVerify_keeps (h : Keeps s0 s) : ∃ t, execSlotVerify  s = .next t ∧ Keeps s0 t := by
  refine ⟨_, rfl, ?_⟩
  refine Keeps.ite ?_ ?_
  · exact h
  · extract_lets +onlyGivenNames y1
    clear_value y1
    extract_lets +onlyGivenNames y2
    clear_value y2
    extract_lets +onlyGivenNames y3
    have h3 : Keeps s0 y3 := by
      unfold y3
      refine secEvent_keeps ?_
      exact h
    clear_value y3
    extract_lets +onlyGivenNames y4
    clear_value y4
    extract_lets +onlyGivenNames y5
    have h5 : Keeps s0 y5 := by
      unfold y5
      refine setSec_keeps ?_
      exact h3
    clear_value y5
    extract_lets +onlyGivenNames y6
    have h6 : Keeps s0 y6 := by
      unfold y6
      refine bootFrom_keeps ?_
      refine secEvent_keeps ?_
      exact h5
    clear_value y6
    extract_lets +onlyGivenNames y7
    clear_value y7
    extract_lets +onlyGivenNames y8
    have h8 : Keeps s0 y8 := by
      unfold y8
      refine Keeps.ite ?_ ?_
      · refine recoveryRom_keeps ?_
        exact h
      · refine Keeps.ite ?_ ?_
        · refine bootFrom_keeps ?_
          exact h
        · refine Keeps.ite ?_ ?_
          · with_reducible refine Keeps.same ?_
            exact h6
          · refine recoveryRom_keeps ?_
            exact h3
    clear_value y8
    refine completePhase_keeps ?_
    refine numberEarly_keeps ?_
    exact h8

theorem execDivu_keeps {x0} {x1} {x2} (h : Keeps s0 s) : ∃ t, execDivu x0 x1 x2 s = .next t ∧ Keeps s0 t := by
  refine ⟨_, rfl, ?_⟩
  refine alu_keeps ?_
  exact h

theorem execFms_keeps {x0} {x1} (h : Keeps s0 s) : ∃ t, execFms x0 x1 s = .next t ∧ Keeps s0 t := by
  refine ⟨_, rfl, ?_⟩
  refine vec3_keeps ?_
  exact h

theorem execIxor_keeps {x0} {x1} (h : Keeps s0 s) : ∃ t, execIxor x0 x1 s = .next t ∧ Keeps s0 t := by
  refine ⟨_, rfl, ?_⟩
  refine vecInt_keeps ?_
  exact h

theorem execHubPkgIdWrite_keeps {x0} (h : Keeps s0 s) : ∃ t, execHubPkgIdWrite x0 s = .next t ∧ Keeps s0 t := by
  refine ⟨_, rfl, ?_⟩
  refine Keeps.ite ?_ ?_
  · refine writePkgId_keeps ?_
    exact h
  · exact h

theorem execCmpEq_keeps {x0} {x1} (h : Keeps s0 s) : ∃ t, execCmpEq x0 x1 s = .next t ∧ Keeps s0 t := by
  refine ⟨_, rfl, ?_⟩
  refine vecCmp_keeps ?_
  exact h

theorem execActivate_keeps {x0} {x1} {x2} {x3} (h :
    Keeps s0 s) : ∃ t, execActivate x0 x1 x2 x3 s = .next t ∧ Keeps s0 t := by
  refine ⟨_, rfl, ?_⟩
  refine secRequest_keeps ?_ ?_
  · exact h
  · intro z1a h1
    extract_lets +onlyGivenNames y2
    clear_value y2
    refine Keeps.ite ?_ ?_
    · refine tick_keeps ?_
      refine reply_keeps ?_
      exact h1
    · refine Keeps.ite ?_ ?_
      · refine reply_keeps ?_
        exact h1
      · split
        · rename_i e3a e3b e3c e3d
          refine reply_keeps ?_
          exact h1
        · rename_i e4a e4b
          extract_lets +onlyGivenNames y5
          have h5 : Keeps s0 y5 := by
            unfold y5
            refine setSlotB_keeps ?_
            exact h1
          clear_value y5
          refine Keeps.ite ?_ ?_
          · refine Keeps.ite ?_ ?_
            · refine reply_keeps ?_
              exact h5
            · extract_lets +onlyGivenNames y6
              clear_value y6
              extract_lets +onlyGivenNames y7
              have h7 : Keeps s0 y7 := by
                unfold y7
                refine setDep_keeps ?_
                exact h5
              clear_value y7
              refine reply_keeps ?_
              with_reducible refine Keeps.same ?_
              exact h7
          · refine reply_keeps ?_
            refine activated_keeps ?_
            exact h5

theorem execMin_keeps {x0} {x1} {x2} (h : Keeps s0 s) : ∃ t, execMin x0 x1 x2 s = .next t ∧ Keeps s0 t := by
  refine ⟨_, rfl, ?_⟩
  refine alu_keeps ?_
  exact h

theorem execEncOpen_keeps {x0} (h : Keeps s0 s) : ∃ t, execEncOpen x0 s = .next t ∧ Keeps s0 t := by
  refine ⟨_, rfl, ?_⟩
  refine take_keeps ?_ ?_
  · exact h
  · intro z1a z1b z1c h1
    refine Keeps.ite (finish_keeps h1) ?_
    split
    · rename_i e2a e2b e2c
      refine finish_keeps ?_
      refine Keeps.ite ?_ ?_
      · refine refuse_keeps ?_
        exact h1
      · exact h1
    · rename_i e3a e3b
      refine Keeps.ite ?_ ?_
      · refine finish_keeps ?_
        exact h1
      · split
        · rename_i e4a e4b
          refine finish_keeps ?_
          exact h1
        · rename_i e5a e5b e5c
          extract_lets +onlyGivenNames y6
          clear_value y6
          refine Keeps.ite ?_ ?_
          · refine finish_keeps ?_
            exact h1
          · refine Keeps.ite ?_ ?_
            · refine finish_keeps ?_
              refine refuse_keeps ?_
              exact h1
            · split
              · rename_i e7a e7b e7c
                refine finish_keeps ?_
                refine mediaEvent_keeps ?_
                exact h1
              · rename_i e8a e8b
                refine Keeps.ite ?_ ?_
                · refine finish_keeps ?_
                  refine mediaEvent_keeps ?_
                  exact h1
                · split
                  · rename_i e9a e9b
                    refine finish_keeps ?_
                    exact h1
                  · rename_i e10a e10b e10c
                    extract_lets +onlyGivenNames y11
                    clear_value y11
                    extract_lets +onlyGivenNames y12
                    have h12 : Keeps s0 y12 := by
                      unfold y12
                      refine tick_keeps ?_
                      refine Keeps.ite ?_ ?_
                      · refine emulateFor_keeps ?_
                        exact h1
                      · exact h1
                    clear_value y12
                    extract_lets +onlyGivenNames y13
                    have h13 : Keeps s0 y13 := by
                      unfold y13
                      refine setStream_keeps ?_
                      with_reducible refine Keeps.same ?_
                      exact h12
                    clear_value y13
                    refine finish_keeps ?_
                    refine setEnc_keeps ?_
                    exact h13

theorem execPageWalk_keeps {x0} (h : Keeps s0 s) : ∃ t, execPageWalk x0 s = .next t ∧ Keeps s0 t := by
  refine ⟨_, rfl, ?_⟩
  split
  · rename_i e1a e1b
    exact h
  · rename_i e2a e2b e2c e2d
    refine Keeps.ite ?_ ?_
    · exact h
    · split
      · rename_i e3a e3b e3c e3d
        have h4 := walk_pair (by assumption) e3d
        refine putAttn_keeps ?_
        exact h4

theorem execBeq_keeps {x0} {x1} (h : Keeps s0 s) : ∃ t, execBeq x0 x1 s = .next t ∧ Keeps s0 t := by
  refine ⟨_, rfl, ?_⟩
  refine branch_keeps ?_
  exact h

theorem execAmoadd_keeps {x0} {x1} (h : Keeps s0 s) : ∃ t, execAmoadd x0 x1 s = .next t ∧ Keeps s0 t := by
  refine ⟨_, rfl, ?_⟩
  refine atomic_keeps ?_
  exact h

theorem execStartupSelftest_keeps {x0} {x1} (h :
    Keeps s0 s) : ∃ t, execStartupSelftest x0 x1 s = .next t ∧ Keeps s0 t := by
  refine ⟨_, rfl, ?_⟩
  refine Keeps.ite ?_ ?_
  · exact h
  · extract_lets +onlyGivenNames y1
    have h1 : Keeps s0 y1 := by
      unfold y1
      refine Keeps.foldl _ ?_ ?_
      · exact h
      · intro z2a z2b h2
        refine startCore_keeps ?_
        exact h2
    clear_value y1
    extract_lets +onlyGivenNames y3
    clear_value y3
    refine completePhase_keeps ?_
    refine Keeps.foldl _ ?_ ?_
    · exact h1
    · intro z4a z4b h4
      refine dieOut_keeps ?_
      exact h4

theorem execSemWait_keeps {x0} {x1} (h : Keeps s0 s) : ∃ t, execSemWait x0 x1 s = .next t ∧ Keeps s0 t := by
  refine ⟨_, rfl, ?_⟩
  refine semWait_keeps ?_
  exact h

theorem execImaxu_keeps {x0} {x1} (h : Keeps s0 s) : ∃ t, execImaxu x0 x1 s = .next t ∧ Keeps s0 t := by
  refine ⟨_, rfl, ?_⟩
  refine vecInt_keeps ?_
  exact h

theorem execIsub_keeps {x0} {x1} (h : Keeps s0 s) : ∃ t, execIsub x0 x1 s = .next t ∧ Keeps s0 t := by
  refine ⟨_, rfl, ?_⟩
  refine vecInt_keeps ?_
  exact h

theorem execFabs_keeps {x0} {x1} (h : Keeps s0 s) : ∃ t, execFabs x0 x1 s = .next t ∧ Keeps s0 t := by
  refine ⟨_, rfl, ?_⟩
  refine vecFp_keeps ?_
  exact h

theorem execIcacheFill_keeps {x0} (h : Keeps s0 s) : ∃ t, execIcacheFill x0 s = .next t ∧ Keeps s0 t := by
  refine ⟨_, rfl, ?_⟩
  extract_lets +onlyGivenNames y1
  clear_value y1
  refine Keeps.ite ?_ ?_
  · exact h
  · extract_lets +onlyGivenNames y2
    clear_value y2
    extract_lets +onlyGivenNames y3
    clear_value y3
    extract_lets +onlyGivenNames y4
    clear_value y4
    split
    · rename_i e5a e5b e5c
      exact h
    · rename_i e6a e6b e6c
      exact h
    · rename_i e7a e7b e7c e7d
      refine setDike_keeps ?_
      exact h
    · rename_i e8a e8b e8c e8d e8e e8f
      refine stopAt_keeps ?_
      exact h
    · rename_i e9a e9b
      extract_lets +onlyGivenNames y10
      have h10 : Keeps s0 y10 := by
        unfold y10
        refine fillLineOf_keeps ?_
        refine devSpend_keeps ?_
        exact h
      clear_value y10
      refine setAt_keeps ?_
      exact h10

theorem execConvPass_keeps {x0} (h : Keeps s0 s) : ∃ t, execConvPass x0 s = .next t ∧ Keeps s0 t := by
  refine ⟨_, rfl, ?_⟩
  split
  · rename_i e1a e1b
    exact h
  · rename_i e2a e2b e2c e2d
    extract_lets +onlyGivenNames y3
    clear_value y3
    split
    · rename_i e4a e4b e4c
      refine Keeps.ite ?_ ?_
      · refine instrFault_keeps ?_
        exact h
      · refine updateHead_keeps ?_
        exact h
    · rename_i e5a e5b
      refine guarded_keeps ?_ ?_
      · exact h
      · intro z6a h6
        refine runPass_keeps ?_
        exact h6

theorem execAttnBwdKv_keeps {x0} {x1} {x2} (h : Keeps s0 s) : ∃ t, execAttnBwdKv x0 x1 x2 s = .next t ∧ Keeps s0 t := by
  refine ⟨_, rfl, ?_⟩
  refine attn_keeps ?_
  exact h

theorem execSigmoid_keeps {x0} {x1} (h : Keeps s0 s) : ∃ t, execSigmoid x0 x1 s = .next t ∧ Keeps s0 t := by
  refine ⟨_, rfl, ?_⟩
  refine sfu_keeps ?_
  exact h

theorem execCachesetCreate_keeps {x0} (h : Keeps s0 s) : ∃ t, execCachesetCreate x0 s = .next t ∧ Keeps s0 t := by
  refine ⟨_, rfl, ?_⟩
  refine take_keeps ?_ ?_
  · exact h
  · intro z1a z1b z1c h1
    split
    · rename_i e2a e2b e2c
      refine finish_keeps ?_
      refine Keeps.ite ?_ ?_
      · refine refuse_keeps ?_
        exact h1
      · exact h1
    · rename_i e3a e3b
      split
      · rename_i e4a e4b
        refine finish_keeps ?_
        exact h1
      · rename_i e5a e5b e5c
        extract_lets +onlyGivenNames y6
        have h6 : Keeps s0 y6 := by
          unfold y6
          refine tick_keeps ?_
          exact h1
        clear_value y6
        refine Keeps.ite ?_ ?_
        · refine finish_keeps ?_
          exact h6
        · refine Keeps.ite ?_ ?_
          · refine finish_keeps ?_
            exact h6
          · split
            · rename_i e7a e7b
              refine finish_keeps ?_
              exact h6
            · rename_i e8a e8b e8c
              split
              · rename_i e9a e9b e9c
                refine finish_keeps ?_
                exact h6
              · rename_i e10a e10b
                split
                · rename_i e11a e11b e11c
                  refine finish_keeps ?_
                  exact h6
                · rename_i e12a e12b
                  refine finish_keeps ?_
                  refine buildSet_keeps ?_
                  exact h6

theorem execBatchqDestroy_keeps {x0} (h : Keeps s0 s) : ∃ t, execBatchqDestroy x0 s = .next t ∧ Keeps s0 t := by
  refine ⟨_, rfl, ?_⟩
  refine take_keeps ?_ ?_
  · exact h
  · intro z1a z1b z1c h1
    extract_lets +onlyGivenNames y2
    clear_value y2
    refine Keeps.ite ?_ ?_
    · refine finish_keeps ?_
      exact h1
    · refine Keeps.ite ?_ ?_
      · refine finish_keeps ?_
        refine refuse_keeps ?_
        exact h1
      · refine finish_keeps ?_
        refine dropBq_keeps ?_
        exact h1

theorem execMovSv_keeps {x0} {x1} (h : Keeps s0 s) : ∃ t, execMovSv x0 x1 s = .next t ∧ Keeps s0 t := by
  refine ⟨_, rfl, ?_⟩
  refine vecSlotOp_keeps ?_
  exact h

theorem execBpack_keeps {x0} {x1} (h : Keeps s0 s) : ∃ t, execBpack x0 x1 s = .next t ∧ Keeps s0 t := by
  refine ⟨_, rfl, ?_⟩
  refine vecFp_keeps ?_
  exact h

theorem execCoreFenceCmd_keeps {x0} (h : Keeps s0 s) : ∃ t, execCoreFenceCmd x0 s = .next t ∧ Keeps s0 t := by
  refine ⟨_, rfl, ?_⟩
  refine Keeps.ite ?_ ?_
  · refine fenceCmd_keeps ?_
    exact h
  · exact h

theorem execCodeLoad_keeps {x0} (h : Keeps s0 s) : ∃ t, execCodeLoad x0 s = .next t ∧ Keeps s0 t := by
  refine ⟨_, rfl, ?_⟩
  refine take_keeps ?_ ?_
  · exact h
  · intro z1a z1b z1c h1
    extract_lets +onlyGivenNames y2
    clear_value y2
    refine Keeps.ite ?_ ?_
    · refine finish_keeps ?_
      exact h1
    · refine Keeps.ite ?_ ?_
      · refine finish_keeps ?_
        refine refuse_keeps ?_
        exact h1
      · split
        · rename_i e3a e3b
          refine finish_keeps ?_
          exact h1
        · rename_i e4a e4b e4c
          split
          · rename_i e5a e5b e5c
            refine finish_keeps ?_
            exact h1
          · rename_i e6a e6b
            split
            · rename_i e7a e7b
              refine finish_keeps ?_
              exact h1
            · rename_i e8a e8b e8c
              refine Keeps.ite ?_ ?_
              · refine finish_keeps ?_
                exact h1
              · refine Keeps.ite ?_ ?_
                · refine finish_keeps ?_
                  exact h1
                · split
                  · rename_i e9a e9b
                    refine finish_keeps ?_
                    exact h1
                  · rename_i e10a e10b e10c
                    extract_lets +onlyGivenNames y11
                    have h11 : Keeps s0 y11 := by
                      unfold y11
                      refine tick_keeps ?_
                      exact h1
                    clear_value y11
                    refine finish_keeps ?_
                    with_reducible refine Keeps.same ?_
                    exact h11

theorem execStest_keeps {x0} {x1} (h : Keeps s0 s) : ∃ t, execStest x0 x1 s = .next t ∧ Keeps s0 t := by
  refine ⟨_, rfl, ?_⟩
  refine run_keeps ?_ ?_
  · exact h
  · intro z1a h1
    extract_lets +onlyGivenNames y2
    clear_value y2
    refine setCore_keeps ?_
    exact h1

theorem execAdd_keeps {x0} {x1} {x2} (h : Keeps s0 s) : ∃ t, execAdd x0 x1 x2 s = .next t ∧ Keeps s0 t := by
  refine ⟨_, rfl, ?_⟩
  refine alu_keeps ?_
  exact h

theorem execVscatter_keeps {x0} {x1} (h : Keeps s0 s) : ∃ t, execVscatter x0 x1 s = .next t ∧ Keeps s0 t := by
  refine ⟨_, rfl, ?_⟩
  refine run_keeps ?_ ?_
  · exact h
  · intro z1a h1
    refine count_keeps ?_
    refine scatter_keeps ?_
    exact h1

theorem execSlt_keeps {x0} {x1} {x2} (h : Keeps s0 s) : ∃ t, execSlt x0 x1 x2 s = .next t ∧ Keeps s0 t := by
  refine ⟨_, rfl, ?_⟩
  refine alu_keeps ?_
  exact h

theorem execRemu_keeps {x0} {x1} {x2} (h : Keeps s0 s) : ∃ t, execRemu x0 x1 x2 s = .next t ∧ Keeps s0 t := by
  refine ⟨_, rfl, ?_⟩
  refine alu_keeps ?_
  exact h

theorem execRsqrt_keeps {x0} {x1} (h : Keeps s0 s) : ∃ t, execRsqrt x0 x1 s = .next t ∧ Keeps s0 t := by
  refine ⟨_, rfl, ?_⟩
  refine sfu_keeps ?_
  exact h

theorem execFrameFreeAfterWalk_keeps {x0} {x1} (h :
    Keeps s0 s) : ∃ t, execFrameFreeAfterWalk x0 x1 s = .next t ∧ Keeps s0 t := by
  refine ⟨_, rfl, ?_⟩
  extract_lets +onlyGivenNames y1
  clear_value y1
  split
  · rename_i e2a e2b
    exact h
  · rename_i e3a e3b e3c
    refine Keeps.ite ?_ ?_
    · exact h
    · refine freeFrame_keeps ?_
      refine setSet_keeps ?_
      exact h

theorem execPwrHostLimitWrite_keeps {x0} (h : Keeps s0 s) : ∃ t, execPwrHostLimitWrite x0 s = .next t ∧ Keeps s0 t := by
  refine ⟨_, rfl, ?_⟩
  refine Keeps.ite ?_ ?_
  · refine hostLimit_keeps ?_
    exact h
  · exact h

theorem execVgather_keeps {x0} {x1} (h : Keeps s0 s) : ∃ t, execVgather x0 x1 s = .next t ∧ Keeps s0 t := by
  refine ⟨_, rfl, ?_⟩
  refine run_keeps ?_ ?_
  · exact h
  · intro z1a h1
    extract_lets +onlyGivenNames y2
    clear_value y2
    extract_lets +onlyGivenNames y3
    clear_value y3
    extract_lets +onlyGivenNames y4
    clear_value y4
    refine count_keeps ?_
    refine setAt_keeps ?_
    exact h1

theorem execSra_keeps {x0} {x1} {x2} (h : Keeps s0 s) : ∃ t, execSra x0 x1 x2 s = .next t ∧ Keeps s0 t := by
  refine ⟨_, rfl, ?_⟩
  refine alu_keeps ?_
  exact h

theorem execSemWaitTimeout_keeps {x0} (h : Keeps s0 s) : ∃ t, execSemWaitTimeout x0 s = .next t ∧ Keeps s0 t := by
  refine ⟨_, rfl, ?_⟩
  split
  · rename_i e1a e1b e1c e1d e1e e1f e1g
    refine Keeps.ite ?_ ?_
    · exact h
    · extract_lets +onlyGivenNames y2
      clear_value y2
      refine dropWaiter_keeps ?_
      refine wake_keeps ?_
      exact h
  · rename_i e3a e3b
    exact h

theorem execBarSync_keeps {x0} {x1} (h : Keeps s0 s) : ∃ t, execBarSync x0 x1 s = .next t ∧ Keeps s0 t := by
  refine ⟨_, rfl, ?_⟩
  refine issue_keeps ?_ ?_
  · exact h
  · intro z1a h1
    extract_lets +onlyGivenNames y2
    clear_value y2
    extract_lets +onlyGivenNames y3
    clear_value y3
    split
    · rename_i e4a e4b e4c
      refine stopAt_keeps ?_
      exact h1
    · rename_i e5a e5b
      extract_lets +onlyGivenNames y6
      clear_value y6
      extract_lets +onlyGivenNames y7
      clear_value y7
      extract_lets +onlyGivenNames y8
      have h8 : Keeps s0 y8 := by
        unfold y8
        refine setJob_keeps ?_
        exact h1
      clear_value y8
      extract_lets +onlyGivenNames y9
      have h9 : Keeps s0 y9 := by
        unfold y9
        refine advance_keeps ?_
        exact h8
      clear_value y9
      extract_lets +onlyGivenNames y10
      clear_value y10
      extract_lets +onlyGivenNames y11
      have h11 : Keeps s0 y11 := by
        unfold y11
        refine setAt_keeps ?_
        exact h9
      clear_value y11
      refine settleBarrier_keeps ?_
      exact h11

theorem execIadd_keeps {x0} {x1} (h : Keeps s0 s) : ∃ t, execIadd x0 x1 s = .next t ∧ Keeps s0 t := by
  refine ⟨_, rfl, ?_⟩
  refine vecInt_keeps ?_
  exact h

theorem execPllUnlock_keeps {x0} {x1} {x2} (h : Keeps s0 s) : ∃ t, execPllUnlock x0 x1 x2 s = .next t ∧ Keeps s0 t := by
  refine ⟨_, rfl, ?_⟩
  refine Keeps.ite ?_ ?_
  · refine Keeps.ite ?_ ?_
    · exact h
    · refine regionReset_keeps ?_
      refine post_keeps ?_
      exact h
  · refine Keeps.ite ?_ ?_
    · refine Keeps.ite ?_ ?_
      · exact h
      · refine coldReset_keeps ?_
        refine post_keeps ?_
        exact h
    · refine Keeps.ite ?_ ?_
      · exact h
      · refine dieReset_keeps ?_
        refine tick_keeps ?_
        refine post_keeps ?_
        exact h

theorem execPerstDeassert_keeps (h : Keeps s0 s) : ∃ t, execPerstDeassert  s = .next t ∧ Keeps s0 t := by
  refine ⟨_, rfl, ?_⟩
  refine Keeps.ite ?_ ?_
  · exact h
  · with_reducible refine Keeps.same ?_
    exact h

theorem execDebugUnlock_keeps {x0} {x1} (h : Keeps s0 s) : ∃ t, execDebugUnlock x0 x1 s = .next t ∧ Keeps s0 t := by
  refine ⟨_, rfl, ?_⟩
  refine secRequest_keeps ?_ ?_
  · exact h
  · intro z1a h1
    refine Keeps.ite ?_ ?_
    · refine reply_keeps ?_
      exact h1
    · refine Keeps.ite ?_ ?_
      · refine reply_keeps ?_
        refine tick_keeps ?_
        refine secEvent_keeps ?_
        exact h1
      · refine Keeps.ite ?_ ?_
        · refine reply_keeps ?_
          exact h1
        · extract_lets +onlyGivenNames y2
          have h2 : Keeps s0 y2 := by
            unfold y2
            refine Keeps.ite ?_ ?_
            · refine suspendAll_keeps ?_
              exact h1
            · exact h1
          clear_value y2
          extract_lets +onlyGivenNames y3
          clear_value y3
          extract_lets +onlyGivenNames y4
          clear_value y4
          extract_lets +onlyGivenNames y5
          have h5 : Keeps s0 y5 := by
            unfold y5
            refine setSec_keeps ?_
            exact h2
          clear_value y5
          refine reply_keeps ?_
          refine secEvent_keeps ?_
          exact h5

theorem execFnma_keeps {x0} {x1} (h : Keeps s0 s) : ∃ t, execFnma x0 x1 s = .next t ∧ Keeps s0 t := by
  refine ⟨_, rfl, ?_⟩
  refine vec3_keeps ?_
  exact h

theorem execCancel_keeps {x0} (h : Keeps s0 s) : ∃ t, execCancel x0 s = .next t ∧ Keeps s0 t := by
  refine ⟨_, rfl, ?_⟩
  refine take_keeps ?_ ?_
  · exact h
  · intro z1a z1b z1c h1
    refine control_keeps ?_
    exact h1

end Sys2Proof.Machine
end

