-- ==== Sys2Proof/Laws/Memory.lean ====
section
/-!
SUPPORT. Device memory under its reads and writes: where a byte is kept, what a store changes, and that it changes nothing
else.
-/
namespace Sys2Proof.Machine

variable (s : State)

/-- A byte of an extent that has no host-tier home is kept under its name. -/
theorem keyOf_name {a : Nat} (h : (s.home (a / extentBytes)).tier ≠ 2) : s.keyOf a = a := by
  simp [State.keyOf, h]

/-- The host range is kept under its addresses. -/
theorem keyOf_host {a : Nat} (h : hostBase ≤ a) : s.keyOf a = a := by
  simp [State.keyOf, Nat.not_lt.mpr h]

/-- The bytes of one extent are kept one after another. -/
theorem keyOf_add {a i : Nat} (h : a % extentBytes + i < extentBytes) : s.keyOf (a + i) = s.keyOf a + i := by
  have hd : (a + i) / extentBytes = a / extentBytes := by
    simp only [extentBytes] at *
    omega
  have hm : (a + i) % extentBytes = a % extentBytes + i := by
    simp only [extentBytes] at *
    omega
  have hb : decide (a + i < hostBase) = decide (a < hostBase) := by
    rw [decide_eq_decide]
    simp only [extentBytes, hostBase] at *
    omega
  unfold State.keyOf
  rw [hd, hm, hb]
  dsimp only
  split <;> omega

@[simp] theorem memBytes_length (a n : Nat) : (s.memBytes a n).length = n := by simp [State.memBytes]

theorem memBytes_getElem {a n i : Nat} (h : i < (s.memBytes a n).length) : (s.memBytes a n)[i] = s.memByte (a + i) := by
  simp [State.memBytes]

/-- What a store leaves under each key: the stored bytes at the place of the first, and what was there elsewhere. -/
theorem mapGet_store (ctx a : Nat) (bs : List Byte) (k : Nat) :
    mapGet 0 (s.store ctx a bs).mem.bytes k
      = if s.keyOf a ≤ k ∧ k < s.keyOf a + bs.length then bs.getD (k - s.keyOf a) 0 else mapGet 0 s.mem.bytes k := by
  simp only [State.store]
  exact mapGet_mapPut ..

/-- A store moves no byte to another place. -/
@[simp] theorem keyOf_store (ctx a : Nat) (bs : List Byte) (x : Nat) : (s.store ctx a bs).keyOf x = s.keyOf x := rfl

/-- A byte that is stored within one extent is read back. -/
theorem memByte_store {a i : Nat} (ctx : Nat) {bs : List Byte} (hi : i < bs.length)
    (h : a % extentBytes + bs.length ≤ extentBytes) : (s.store ctx a bs).memByte (a + i) = bs[i] := by
  rw [State.memByte, keyOf_store, mapGet_store, keyOf_add s (by omega), if_pos (by omega)]
  simp [hi]

/-- A byte kept elsewhere reads as before. -/
theorem memByte_store_ne {a x : Nat} (ctx : Nat) {bs : List Byte}
    (h : s.keyOf x < s.keyOf a ∨ s.keyOf a + bs.length ≤ s.keyOf x) : (s.store ctx a bs).memByte x = s.memByte x := by
  rw [State.memByte, keyOf_store, mapGet_store, if_neg (by omega)]
  rfl

/-- An extent's bytes after they were carried: those that stood at the source. -/
theorem mapGet_carry {src dst i : Nat} (h : mapWf 0 s.mem.bytes = true) (hi : i < extentBytes) (hne : src ≠ dst) :
    mapGet 0 (s.carry src dst).mem.bytes (dst + i) = mapGet 0 s.mem.bytes (src + i) := by
  have hp : (decide (src ≤ src + i) && decide (src + i < src + extentBytes)) = true := by simp [hi]
  have hf := mapGet_filter (p := fun k => decide (src ≤ k) && decide (k < src + extentBytes)) h hp
  have hc : mapGet 0 (mapClear s.mem.bytes dst extentBytes) (dst + i) = 0 := by rw [mapGet_mapClear, if_pos (by omega)]
  simp only [State.carry, hne, if_false]
  rw [mapGet_shift (lo := 0) (d := (0 : Byte)) (mapFilter_wf h _) (fun e he => by simp_all), hf, hc]
  split
  · rename_i h0
    exact h0.symm
  · rfl

end Sys2Proof.Machine
end

