-- ==== Sys2Proof/Laws/Queue.lean ====
section
/-!
SUPPORT. What the submission queues do with a command that can be taken: its body runs on the state with the entry taken,
its reply and its fields.
-/
namespace Sys2Proof.Machine

variable {s : State} {q op need : Nat} {bs : List Byte}

theorem takeIf_taken (h : s.Takes q op need bs) {is : Nat → Bool} (hi : is op = true) (body : Body) :
    s.takeIf q is need body = body (s.taken q need) (s.replyOf q bs) (sqeOf bs) := by
  obtain ⟨h1, h2, h3, h4, h5⟩ := h
  have room : ¬ (s.queue q).cqSize - ((s.queue q).written - (s.queue q).read) - (s.queue q).owed < need := by omega
  have order : ((recField bs 1 1).testBit 0 && decide ((s.queue q).inFlight ≠ 0)) = false := by
    cases h : (recField bs 1 1).testBit 0
    · rfl
    · simp [h4 h]
  have openFor : (!s.hub.jobOpen && decide (op ≠ 5)) = false := by
    rcases h3 with ⟨h, -⟩ | ⟨-, h⟩ <;> simp [h]
  have none : (if s.hub.jobOpen then (s.queue q).held else []) = [] := by
    rcases h3 with ⟨h, h'⟩ | ⟨h, -⟩ <;> simp [*]
  unfold State.takeIf
  rw [none]
  simp only
  unfold State.takeFront
  rw [h1]
  simp only [h2, hi, order, openFor, room, Bool.not_true, Bool.not_false, Bool.true_and, Bool.or_self, decide_false,
    Bool.false_eq_true, if_false]
  unfold Body.begin State.taken State.replyOf sqeOf
  simp only [h2]

theorem take_taken (h : s.Takes q op need bs) (body : Body) :
    s.take q op need body = body (s.taken q need) (s.replyOf q bs) (sqeOf bs) :=
  takeIf_taken h (by simp) body

end Sys2Proof.Machine
end

