-- ==== Sys2Proof/Laws/State.lean ====
section
/-!
SUPPORT. The state under its updates: for each update, the fields and the reads that it leaves alone, and what a read
gives of what was written.
-/
namespace Sys2Proof.Machine

@[simp] theorem setCore_fields (s : State) (x1) (x2) :
    (s.setCore x1 x2).variant = s.variant ∧ (s.setCore x1 x2).time = s.time ∧ (s.setCore x1 x2).mem = s.mem
      ∧ (s.setCore x1 x2).ev = s.ev ∧ (s.setCore x1 x2).hub = s.hub ∧ (s.setCore x1 x2).dies = s.dies
      ∧ (s.setCore x1 x2).regions = s.regions ∧ (s.setCore x1 x2).portsDown = s.portsDown
      ∧ (s.setCore x1 x2).ddrBytes = s.ddrBytes ∧ (s.setCore x1 x2).objs = s.objs ∧ (s.setCore x1 x2).codes = s.codes
      ∧ (s.setCore x1 x2).sems = s.sems ∧ (s.setCore x1 x2).jobs = s.jobs ∧ (s.setCore x1 x2).jobOrder = s.jobOrder
      ∧ (s.setCore x1 x2).polders = s.polders ∧ (s.setCore x1 x2).sluices = s.sluices
      ∧ (s.setCore x1 x2).nextHandle = s.nextHandle ∧ (s.setCore x1 x2).sets = s.sets
      ∧ (s.setCore x1 x2).nextWalk = s.nextWalk ∧ (s.setCore x1 x2).levee = s.levee ∧ (s.setCore x1 x2).host = s.host
      ∧ (s.setCore x1 x2).dep = s.dep ∧ (s.setCore x1 x2).power = s.power ∧ (s.setCore x1 x2).boot = s.boot
      ∧ (s.setCore x1 x2).sec = s.sec ∧ (s.setCore x1 x2).rc = s.rc ∧ (s.setCore x1 x2).media = s.media
      ∧ (s.setCore x1 x2).refusals = s.refusals ∧ (s.setCore x1 x2).pending = s.pending
      ∧ (s.setCore x1 x2).freeCtr = s.freeCtr := by
  and_intros <;> rfl
@[simp] theorem setCore_reads (s : State) (x1) (x2) :
    (∀ y1, (s.setCore x1 x2).job y1 = s.job y1) ∧ (∀ y1, (s.setCore x1 x2).polder y1 = s.polder y1)
      ∧ (∀ y1 y2, (s.setCore x1 x2).dike y1 y2 = s.dike y1 y2) ∧ (∀ y1, (s.setCore x1 x2).obj y1 = s.obj y1)
      ∧ (∀ y1, (s.setCore x1 x2).code y1 = s.code y1) ∧ (∀ y1, (s.setCore x1 x2).home y1 = s.home y1)
      ∧ (∀ y1, (s.setCore x1 x2).die y1 = s.die y1) ∧ (∀ y1, (s.setCore x1 x2).region y1 = s.region y1)
      ∧ (∀ y1, (s.setCore x1 x2).link y1 = s.link y1) ∧ (∀ y1, (s.setCore x1 x2).sluice y1 = s.sluice y1)
      ∧ (∀ y1, (s.setCore x1 x2).set y1 = s.set y1) ∧ (∀ y1, (s.setCore x1 x2).bq y1 = s.bq y1)
      ∧ (∀ y1, (s.setCore x1 x2).enc y1 = s.enc y1) ∧ (∀ y1 y2, (s.setCore x1 x2).stream y1 y2 = s.stream y1 y2)
      ∧ (∀ y1, (s.setCore x1 x2).queue y1 = s.queue y1) ∧ (∀ y1, (s.setCore x1 x2).group y1 = s.group y1)
      ∧ (∀ y1 y2, (s.setCore x1 x2).sem y1 y2 = s.sem y1 y2) ∧ (∀ y1, (s.setCore x1 x2).serves y1 = s.serves y1)
      ∧ (∀ y1, (s.setCore x1 x2).fnOpen y1 = s.fnOpen y1) ∧ (∀ y1, (s.setCore x1 x2).dieUp y1 = s.dieUp y1)
      ∧ (∀ y1, (s.setCore x1 x2).lanternDown y1 = s.lanternDown y1) ∧ (s.setCore x1 x2).jobManagerUp = s.jobManagerUp
      ∧ (∀ y1 y2, (s.setCore x1 x2).memBytes y1 y2 = s.memBytes y1 y2) := by
  and_intros <;> intros <;> rfl
@[simp] theorem setSlot_fields (s : State) (x1) (x2) (x3) :
    (s.setSlot x1 x2 x3).variant = s.variant ∧ (s.setSlot x1 x2 x3).time = s.time ∧ (s.setSlot x1 x2 x3).mem = s.mem
      ∧ (s.setSlot x1 x2 x3).ev = s.ev ∧ (s.setSlot x1 x2 x3).hub = s.hub ∧ (s.setSlot x1 x2 x3).dies = s.dies
      ∧ (s.setSlot x1 x2 x3).regions = s.regions ∧ (s.setSlot x1 x2 x3).portsDown = s.portsDown
      ∧ (s.setSlot x1 x2 x3).ddrBytes = s.ddrBytes ∧ (s.setSlot x1 x2 x3).objs = s.objs
      ∧ (s.setSlot x1 x2 x3).codes = s.codes ∧ (s.setSlot x1 x2 x3).sems = s.sems ∧ (s.setSlot x1 x2 x3).jobs = s.jobs
      ∧ (s.setSlot x1 x2 x3).jobOrder = s.jobOrder ∧ (s.setSlot x1 x2 x3).polders = s.polders
      ∧ (s.setSlot x1 x2 x3).sluices = s.sluices ∧ (s.setSlot x1 x2 x3).nextHandle = s.nextHandle
      ∧ (s.setSlot x1 x2 x3).sets = s.sets ∧ (s.setSlot x1 x2 x3).nextWalk = s.nextWalk
      ∧ (s.setSlot x1 x2 x3).levee = s.levee ∧ (s.setSlot x1 x2 x3).host = s.host ∧ (s.setSlot x1 x2 x3).dep = s.dep
      ∧ (s.setSlot x1 x2 x3).power = s.power ∧ (s.setSlot x1 x2 x3).boot = s.boot ∧ (s.setSlot x1 x2 x3).sec = s.sec
      ∧ (s.setSlot x1 x2 x3).rc = s.rc ∧ (s.setSlot x1 x2 x3).media = s.media
      ∧ (s.setSlot x1 x2 x3).refusals = s.refusals ∧ (s.setSlot x1 x2 x3).pending = s.pending
      ∧ (s.setSlot x1 x2 x3).freeCtr = s.freeCtr := by
  and_intros <;> rfl
@[simp] theorem setSlot_reads (s : State) (x1) (x2) (x3) :
    (∀ y1, (s.setSlot x1 x2 x3).job y1 = s.job y1) ∧ (∀ y1, (s.setSlot x1 x2 x3).polder y1 = s.polder y1)
      ∧ (∀ y1 y2, (s.setSlot x1 x2 x3).dike y1 y2 = s.dike y1 y2) ∧ (∀ y1, (s.setSlot x1 x2 x3).obj y1 = s.obj y1)
      ∧ (∀ y1, (s.setSlot x1 x2 x3).code y1 = s.code y1) ∧ (∀ y1, (s.setSlot x1 x2 x3).home y1 = s.home y1)
      ∧ (∀ y1, (s.setSlot x1 x2 x3).die y1 = s.die y1) ∧ (∀ y1, (s.setSlot x1 x2 x3).region y1 = s.region y1)
      ∧ (∀ y1, (s.setSlot x1 x2 x3).link y1 = s.link y1) ∧ (∀ y1, (s.setSlot x1 x2 x3).sluice y1 = s.sluice y1)
      ∧ (∀ y1, (s.setSlot x1 x2 x3).set y1 = s.set y1) ∧ (∀ y1, (s.setSlot x1 x2 x3).bq y1 = s.bq y1)
      ∧ (∀ y1, (s.setSlot x1 x2 x3).enc y1 = s.enc y1) ∧ (∀ y1 y2, (s.setSlot x1 x2 x3).stream y1 y2 = s.stream y1 y2)
      ∧ (∀ y1, (s.setSlot x1 x2 x3).queue y1 = s.queue y1) ∧ (∀ y1, (s.setSlot x1 x2 x3).group y1 = s.group y1)
      ∧ (∀ y1 y2, (s.setSlot x1 x2 x3).sem y1 y2 = s.sem y1 y2) ∧ (∀ y1, (s.setSlot x1 x2 x3).serves y1 = s.serves y1)
      ∧ (∀ y1, (s.setSlot x1 x2 x3).fnOpen y1 = s.fnOpen y1) ∧ (∀ y1, (s.setSlot x1 x2 x3).dieUp y1 = s.dieUp y1)
      ∧ (∀ y1, (s.setSlot x1 x2 x3).lanternDown y1 = s.lanternDown y1)
      ∧ (s.setSlot x1 x2 x3).jobManagerUp = s.jobManagerUp
      ∧ (∀ y1 y2, (s.setSlot x1 x2 x3).memBytes y1 y2 = s.memBytes y1 y2) := by
  and_intros <;> intros <;> rfl
@[simp] theorem setAt_fields (s : State) (x1) (x2) :
    (s.setAt x1 x2).variant = s.variant ∧ (s.setAt x1 x2).time = s.time ∧ (s.setAt x1 x2).mem = s.mem
      ∧ (s.setAt x1 x2).ev = s.ev ∧ (s.setAt x1 x2).hub = s.hub ∧ (s.setAt x1 x2).dies = s.dies
      ∧ (s.setAt x1 x2).regions = s.regions ∧ (s.setAt x1 x2).portsDown = s.portsDown
      ∧ (s.setAt x1 x2).ddrBytes = s.ddrBytes ∧ (s.setAt x1 x2).objs = s.objs ∧ (s.setAt x1 x2).codes = s.codes
      ∧ (s.setAt x1 x2).sems = s.sems ∧ (s.setAt x1 x2).jobs = s.jobs ∧ (s.setAt x1 x2).jobOrder = s.jobOrder
      ∧ (s.setAt x1 x2).polders = s.polders ∧ (s.setAt x1 x2).sluices = s.sluices
      ∧ (s.setAt x1 x2).nextHandle = s.nextHandle ∧ (s.setAt x1 x2).sets = s.sets
      ∧ (s.setAt x1 x2).nextWalk = s.nextWalk ∧ (s.setAt x1 x2).levee = s.levee ∧ (s.setAt x1 x2).host = s.host
      ∧ (s.setAt x1 x2).dep = s.dep ∧ (s.setAt x1 x2).power = s.power ∧ (s.setAt x1 x2).boot = s.boot
      ∧ (s.setAt x1 x2).sec = s.sec ∧ (s.setAt x1 x2).rc = s.rc ∧ (s.setAt x1 x2).media = s.media
      ∧ (s.setAt x1 x2).refusals = s.refusals ∧ (s.setAt x1 x2).pending = s.pending
      ∧ (s.setAt x1 x2).freeCtr = s.freeCtr := by
  and_intros <;> rfl
@[simp] theorem setAt_reads (s : State) (x1) (x2) :
    (∀ y1, (s.setAt x1 x2).job y1 = s.job y1) ∧ (∀ y1, (s.setAt x1 x2).polder y1 = s.polder y1)
      ∧ (∀ y1 y2, (s.setAt x1 x2).dike y1 y2 = s.dike y1 y2) ∧ (∀ y1, (s.setAt x1 x2).obj y1 = s.obj y1)
      ∧ (∀ y1, (s.setAt x1 x2).code y1 = s.code y1) ∧ (∀ y1, (s.setAt x1 x2).home y1 = s.home y1)
      ∧ (∀ y1, (s.setAt x1 x2).die y1 = s.die y1) ∧ (∀ y1, (s.setAt x1 x2).region y1 = s.region y1)
      ∧ (∀ y1, (s.setAt x1 x2).link y1 = s.link y1) ∧ (∀ y1, (s.setAt x1 x2).sluice y1 = s.sluice y1)
      ∧ (∀ y1, (s.setAt x1 x2).set y1 = s.set y1) ∧ (∀ y1, (s.setAt x1 x2).bq y1 = s.bq y1)
      ∧ (∀ y1, (s.setAt x1 x2).enc y1 = s.enc y1) ∧ (∀ y1 y2, (s.setAt x1 x2).stream y1 y2 = s.stream y1 y2)
      ∧ (∀ y1, (s.setAt x1 x2).queue y1 = s.queue y1) ∧ (∀ y1, (s.setAt x1 x2).group y1 = s.group y1)
      ∧ (∀ y1 y2, (s.setAt x1 x2).sem y1 y2 = s.sem y1 y2) ∧ (∀ y1, (s.setAt x1 x2).serves y1 = s.serves y1)
      ∧ (∀ y1, (s.setAt x1 x2).fnOpen y1 = s.fnOpen y1) ∧ (∀ y1, (s.setAt x1 x2).dieUp y1 = s.dieUp y1)
      ∧ (∀ y1, (s.setAt x1 x2).lanternDown y1 = s.lanternDown y1) ∧ (s.setAt x1 x2).jobManagerUp = s.jobManagerUp
      ∧ (∀ y1 y2, (s.setAt x1 x2).memBytes y1 y2 = s.memBytes y1 y2) := by
  and_intros <;> intros <;> rfl
@[simp] theorem setJob_fields (s : State) (x1) (x2) :
    (s.setJob x1 x2).variant = s.variant ∧ (s.setJob x1 x2).time = s.time ∧ (s.setJob x1 x2).cores = s.cores
      ∧ (s.setJob x1 x2).mem = s.mem ∧ (s.setJob x1 x2).ev = s.ev ∧ (s.setJob x1 x2).hub = s.hub
      ∧ (s.setJob x1 x2).dies = s.dies ∧ (s.setJob x1 x2).regions = s.regions
      ∧ (s.setJob x1 x2).portsDown = s.portsDown ∧ (s.setJob x1 x2).ddrBytes = s.ddrBytes
      ∧ (s.setJob x1 x2).objs = s.objs ∧ (s.setJob x1 x2).codes = s.codes ∧ (s.setJob x1 x2).sems = s.sems
      ∧ (s.setJob x1 x2).jobOrder = s.jobOrder ∧ (s.setJob x1 x2).polders = s.polders
      ∧ (s.setJob x1 x2).sluices = s.sluices ∧ (s.setJob x1 x2).nextHandle = s.nextHandle
      ∧ (s.setJob x1 x2).sets = s.sets ∧ (s.setJob x1 x2).nextWalk = s.nextWalk ∧ (s.setJob x1 x2).levee = s.levee
      ∧ (s.setJob x1 x2).host = s.host ∧ (s.setJob x1 x2).dep = s.dep ∧ (s.setJob x1 x2).power = s.power
      ∧ (s.setJob x1 x2).boot = s.boot ∧ (s.setJob x1 x2).sec = s.sec ∧ (s.setJob x1 x2).rc = s.rc
      ∧ (s.setJob x1 x2).media = s.media ∧ (s.setJob x1 x2).refusals = s.refusals
      ∧ (s.setJob x1 x2).pending = s.pending ∧ (s.setJob x1 x2).freeCtr = s.freeCtr := by
  and_intros <;> rfl
@[simp] theorem setJob_reads (s : State) (x1) (x2) :
    (∀ y1, (s.setJob x1 x2).core y1 = s.core y1) ∧ (∀ y1 y2, (s.setJob x1 x2).slot y1 y2 = s.slot y1 y2)
      ∧ (∀ y1, (s.setJob x1 x2).at_ y1 = s.at_ y1) ∧ (∀ y1, (s.setJob x1 x2).polder y1 = s.polder y1)
      ∧ (∀ y1 y2, (s.setJob x1 x2).dike y1 y2 = s.dike y1 y2) ∧ (∀ y1, (s.setJob x1 x2).obj y1 = s.obj y1)
      ∧ (∀ y1, (s.setJob x1 x2).code y1 = s.code y1) ∧ (∀ y1, (s.setJob x1 x2).home y1 = s.home y1)
      ∧ (∀ y1, (s.setJob x1 x2).die y1 = s.die y1) ∧ (∀ y1, (s.setJob x1 x2).region y1 = s.region y1)
      ∧ (∀ y1, (s.setJob x1 x2).link y1 = s.link y1) ∧ (∀ y1, (s.setJob x1 x2).sluice y1 = s.sluice y1)
      ∧ (∀ y1, (s.setJob x1 x2).set y1 = s.set y1) ∧ (∀ y1, (s.setJob x1 x2).bq y1 = s.bq y1)
      ∧ (∀ y1, (s.setJob x1 x2).enc y1 = s.enc y1) ∧ (∀ y1 y2, (s.setJob x1 x2).stream y1 y2 = s.stream y1 y2)
      ∧ (∀ y1, (s.setJob x1 x2).queue y1 = s.queue y1) ∧ (∀ y1, (s.setJob x1 x2).group y1 = s.group y1)
      ∧ (∀ y1, (s.setJob x1 x2).serves y1 = s.serves y1) ∧ (∀ y1, (s.setJob x1 x2).fnOpen y1 = s.fnOpen y1)
      ∧ (∀ y1, (s.setJob x1 x2).dieUp y1 = s.dieUp y1) ∧ (∀ y1, (s.setJob x1 x2).lanternDown y1 = s.lanternDown y1)
      ∧ (s.setJob x1 x2).jobManagerUp = s.jobManagerUp ∧ (∀ y1 y2, (s.setJob x1 x2).memBytes y1 y2 = s.memBytes y1 y2)
      ∧ (∀ y1, (s.setJob x1 x2).whoAt y1 = s.whoAt y1) := by
  and_intros <;> intros <;> rfl
@[simp] theorem setPolder_fields (s : State) (x1) (x2) :
    (s.setPolder x1 x2).variant = s.variant ∧ (s.setPolder x1 x2).time = s.time ∧ (s.setPolder x1 x2).cores = s.cores
      ∧ (s.setPolder x1 x2).mem = s.mem ∧ (s.setPolder x1 x2).ev = s.ev ∧ (s.setPolder x1 x2).hub = s.hub
      ∧ (s.setPolder x1 x2).dies = s.dies ∧ (s.setPolder x1 x2).regions = s.regions
      ∧ (s.setPolder x1 x2).portsDown = s.portsDown ∧ (s.setPolder x1 x2).ddrBytes = s.ddrBytes
      ∧ (s.setPolder x1 x2).objs = s.objs ∧ (s.setPolder x1 x2).codes = s.codes ∧ (s.setPolder x1 x2).sems = s.sems
      ∧ (s.setPolder x1 x2).jobs = s.jobs ∧ (s.setPolder x1 x2).jobOrder = s.jobOrder
      ∧ (s.setPolder x1 x2).sluices = s.sluices ∧ (s.setPolder x1 x2).nextHandle = s.nextHandle
      ∧ (s.setPolder x1 x2).sets = s.sets ∧ (s.setPolder x1 x2).nextWalk = s.nextWalk
      ∧ (s.setPolder x1 x2).levee = s.levee ∧ (s.setPolder x1 x2).host = s.host ∧ (s.setPolder x1 x2).dep = s.dep
      ∧ (s.setPolder x1 x2).power = s.power ∧ (s.setPolder x1 x2).boot = s.boot ∧ (s.setPolder x1 x2).sec = s.sec
      ∧ (s.setPolder x1 x2).rc = s.rc ∧ (s.setPolder x1 x2).media = s.media
      ∧ (s.setPolder x1 x2).refusals = s.refusals ∧ (s.setPolder x1 x2).pending = s.pending
      ∧ (s.setPolder x1 x2).freeCtr = s.freeCtr := by
  and_intros <;> rfl
@[simp] theorem setPolder_reads (s : State) (x1) (x2) :
    (∀ y1, (s.setPolder x1 x2).core y1 = s.core y1) ∧ (∀ y1 y2, (s.setPolder x1 x2).slot y1 y2 = s.slot y1 y2)
      ∧ (∀ y1, (s.setPolder x1 x2).at_ y1 = s.at_ y1) ∧ (∀ y1, (s.setPolder x1 x2).job y1 = s.job y1)
      ∧ (∀ y1, (s.setPolder x1 x2).obj y1 = s.obj y1) ∧ (∀ y1, (s.setPolder x1 x2).code y1 = s.code y1)
      ∧ (∀ y1, (s.setPolder x1 x2).home y1 = s.home y1) ∧ (∀ y1, (s.setPolder x1 x2).die y1 = s.die y1)
      ∧ (∀ y1, (s.setPolder x1 x2).region y1 = s.region y1) ∧ (∀ y1, (s.setPolder x1 x2).link y1 = s.link y1)
      ∧ (∀ y1, (s.setPolder x1 x2).sluice y1 = s.sluice y1) ∧ (∀ y1, (s.setPolder x1 x2).set y1 = s.set y1)
      ∧ (∀ y1, (s.setPolder x1 x2).bq y1 = s.bq y1) ∧ (∀ y1, (s.setPolder x1 x2).enc y1 = s.enc y1)
      ∧ (∀ y1 y2, (s.setPolder x1 x2).stream y1 y2 = s.stream y1 y2)
      ∧ (∀ y1, (s.setPolder x1 x2).queue y1 = s.queue y1) ∧ (∀ y1, (s.setPolder x1 x2).group y1 = s.group y1)
      ∧ (∀ y1 y2, (s.setPolder x1 x2).sem y1 y2 = s.sem y1 y2) ∧ (∀ y1, (s.setPolder x1 x2).serves y1 = s.serves y1)
      ∧ (∀ y1, (s.setPolder x1 x2).fnOpen y1 = s.fnOpen y1) ∧ (∀ y1, (s.setPolder x1 x2).dieUp y1 = s.dieUp y1)
      ∧ (∀ y1, (s.setPolder x1 x2).lanternDown y1 = s.lanternDown y1)
      ∧ (s.setPolder x1 x2).jobManagerUp = s.jobManagerUp
      ∧ (∀ y1 y2, (s.setPolder x1 x2).memBytes y1 y2 = s.memBytes y1 y2)
      ∧ (∀ y1, (s.setPolder x1 x2).whoAt y1 = s.whoAt y1) := by
  and_intros <;> intros <;> rfl
@[simp] theorem setDike_fields (s : State) (x1) (x2) (x3) :
    (s.setDike x1 x2 x3).variant = s.variant ∧ (s.setDike x1 x2 x3).time = s.time
      ∧ (s.setDike x1 x2 x3).cores = s.cores ∧ (s.setDike x1 x2 x3).mem = s.mem ∧ (s.setDike x1 x2 x3).ev = s.ev
      ∧ (s.setDike x1 x2 x3).hub = s.hub ∧ (s.setDike x1 x2 x3).dies = s.dies
      ∧ (s.setDike x1 x2 x3).regions = s.regions ∧ (s.setDike x1 x2 x3).portsDown = s.portsDown
      ∧ (s.setDike x1 x2 x3).ddrBytes = s.ddrBytes ∧ (s.setDike x1 x2 x3).objs = s.objs
      ∧ (s.setDike x1 x2 x3).codes = s.codes ∧ (s.setDike x1 x2 x3).sems = s.sems ∧ (s.setDike x1 x2 x3).jobs = s.jobs
      ∧ (s.setDike x1 x2 x3).jobOrder = s.jobOrder ∧ (s.setDike x1 x2 x3).sluices = s.sluices
      ∧ (s.setDike x1 x2 x3).nextHandle = s.nextHandle ∧ (s.setDike x1 x2 x3).sets = s.sets
      ∧ (s.setDike x1 x2 x3).nextWalk = s.nextWalk ∧ (s.setDike x1 x2 x3).levee = s.levee
      ∧ (s.setDike x1 x2 x3).host = s.host ∧ (s.setDike x1 x2 x3).dep = s.dep ∧ (s.setDike x1 x2 x3).power = s.power
      ∧ (s.setDike x1 x2 x3).boot = s.boot ∧ (s.setDike x1 x2 x3).sec = s.sec ∧ (s.setDike x1 x2 x3).rc = s.rc
      ∧ (s.setDike x1 x2 x3).media = s.media ∧ (s.setDike x1 x2 x3).refusals = s.refusals
      ∧ (s.setDike x1 x2 x3).pending = s.pending ∧ (s.setDike x1 x2 x3).freeCtr = s.freeCtr := by
  and_intros <;> rfl
@[simp] theorem setDike_reads (s : State) (x1) (x2) (x3) :
    (∀ y1, (s.setDike x1 x2 x3).core y1 = s.core y1) ∧ (∀ y1 y2, (s.setDike x1 x2 x3).slot y1 y2 = s.slot y1 y2)
      ∧ (∀ y1, (s.setDike x1 x2 x3).at_ y1 = s.at_ y1) ∧ (∀ y1, (s.setDike x1 x2 x3).job y1 = s.job y1)
      ∧ (∀ y1, (s.setDike x1 x2 x3).obj y1 = s.obj y1) ∧ (∀ y1, (s.setDike x1 x2 x3).code y1 = s.code y1)
      ∧ (∀ y1, (s.setDike x1 x2 x3).home y1 = s.home y1) ∧ (∀ y1, (s.setDike x1 x2 x3).die y1 = s.die y1)
      ∧ (∀ y1, (s.setDike x1 x2 x3).region y1 = s.region y1) ∧ (∀ y1, (s.setDike x1 x2 x3).link y1 = s.link y1)
      ∧ (∀ y1, (s.setDike x1 x2 x3).sluice y1 = s.sluice y1) ∧ (∀ y1, (s.setDike x1 x2 x3).set y1 = s.set y1)
      ∧ (∀ y1, (s.setDike x1 x2 x3).bq y1 = s.bq y1) ∧ (∀ y1, (s.setDike x1 x2 x3).enc y1 = s.enc y1)
      ∧ (∀ y1 y2, (s.setDike x1 x2 x3).stream y1 y2 = s.stream y1 y2)
      ∧ (∀ y1, (s.setDike x1 x2 x3).queue y1 = s.queue y1) ∧ (∀ y1, (s.setDike x1 x2 x3).group y1 = s.group y1)
      ∧ (∀ y1 y2, (s.setDike x1 x2 x3).sem y1 y2 = s.sem y1 y2) ∧ (∀ y1, (s.setDike x1 x2 x3).serves y1 = s.serves y1)
      ∧ (∀ y1, (s.setDike x1 x2 x3).fnOpen y1 = s.fnOpen y1) ∧ (∀ y1, (s.setDike x1 x2 x3).dieUp y1 = s.dieUp y1)
      ∧ (∀ y1, (s.setDike x1 x2 x3).lanternDown y1 = s.lanternDown y1)
      ∧ (s.setDike x1 x2 x3).jobManagerUp = s.jobManagerUp
      ∧ (∀ y1 y2, (s.setDike x1 x2 x3).memBytes y1 y2 = s.memBytes y1 y2)
      ∧ (∀ y1, (s.setDike x1 x2 x3).whoAt y1 = s.whoAt y1) := by
  and_intros <;> intros <;> rfl
@[simp] theorem setObj_fields (s : State) (x1) (x2) :
    (s.setObj x1 x2).variant = s.variant ∧ (s.setObj x1 x2).time = s.time ∧ (s.setObj x1 x2).cores = s.cores
      ∧ (s.setObj x1 x2).mem = s.mem ∧ (s.setObj x1 x2).ev = s.ev ∧ (s.setObj x1 x2).hub = s.hub
      ∧ (s.setObj x1 x2).dies = s.dies ∧ (s.setObj x1 x2).regions = s.regions
      ∧ (s.setObj x1 x2).portsDown = s.portsDown ∧ (s.setObj x1 x2).ddrBytes = s.ddrBytes
      ∧ (s.setObj x1 x2).codes = s.codes ∧ (s.setObj x1 x2).sems = s.sems ∧ (s.setObj x1 x2).jobs = s.jobs
      ∧ (s.setObj x1 x2).jobOrder = s.jobOrder ∧ (s.setObj x1 x2).polders = s.polders
      ∧ (s.setObj x1 x2).sluices = s.sluices ∧ (s.setObj x1 x2).nextHandle = s.nextHandle
      ∧ (s.setObj x1 x2).sets = s.sets ∧ (s.setObj x1 x2).nextWalk = s.nextWalk ∧ (s.setObj x1 x2).levee = s.levee
      ∧ (s.setObj x1 x2).host = s.host ∧ (s.setObj x1 x2).dep = s.dep ∧ (s.setObj x1 x2).power = s.power
      ∧ (s.setObj x1 x2).boot = s.boot ∧ (s.setObj x1 x2).sec = s.sec ∧ (s.setObj x1 x2).rc = s.rc
      ∧ (s.setObj x1 x2).media = s.media ∧ (s.setObj x1 x2).refusals = s.refusals
      ∧ (s.setObj x1 x2).pending = s.pending ∧ (s.setObj x1 x2).freeCtr = s.freeCtr := by
  and_intros <;> rfl
@[simp] theorem setObj_reads (s : State) (x1) (x2) :
    (∀ y1, (s.setObj x1 x2).core y1 = s.core y1) ∧ (∀ y1 y2, (s.setObj x1 x2).slot y1 y2 = s.slot y1 y2)
      ∧ (∀ y1, (s.setObj x1 x2).at_ y1 = s.at_ y1) ∧ (∀ y1, (s.setObj x1 x2).job y1 = s.job y1)
      ∧ (∀ y1, (s.setObj x1 x2).polder y1 = s.polder y1) ∧ (∀ y1 y2, (s.setObj x1 x2).dike y1 y2 = s.dike y1 y2)
      ∧ (∀ y1, (s.setObj x1 x2).code y1 = s.code y1) ∧ (∀ y1, (s.setObj x1 x2).home y1 = s.home y1)
      ∧ (∀ y1, (s.setObj x1 x2).die y1 = s.die y1) ∧ (∀ y1, (s.setObj x1 x2).region y1 = s.region y1)
      ∧ (∀ y1, (s.setObj x1 x2).link y1 = s.link y1) ∧ (∀ y1, (s.setObj x1 x2).sluice y1 = s.sluice y1)
      ∧ (∀ y1, (s.setObj x1 x2).set y1 = s.set y1) ∧ (∀ y1, (s.setObj x1 x2).bq y1 = s.bq y1)
      ∧ (∀ y1, (s.setObj x1 x2).enc y1 = s.enc y1) ∧ (∀ y1 y2, (s.setObj x1 x2).stream y1 y2 = s.stream y1 y2)
      ∧ (∀ y1, (s.setObj x1 x2).queue y1 = s.queue y1) ∧ (∀ y1, (s.setObj x1 x2).group y1 = s.group y1)
      ∧ (∀ y1 y2, (s.setObj x1 x2).sem y1 y2 = s.sem y1 y2) ∧ (∀ y1, (s.setObj x1 x2).serves y1 = s.serves y1)
      ∧ (∀ y1, (s.setObj x1 x2).fnOpen y1 = s.fnOpen y1) ∧ (∀ y1, (s.setObj x1 x2).dieUp y1 = s.dieUp y1)
      ∧ (∀ y1, (s.setObj x1 x2).lanternDown y1 = s.lanternDown y1) ∧ (s.setObj x1 x2).jobManagerUp = s.jobManagerUp
      ∧ (∀ y1 y2, (s.setObj x1 x2).memBytes y1 y2 = s.memBytes y1 y2) ∧ (∀ y1, (s.setObj x1 x2).whoAt y1 = s.whoAt y1) := by
  and_intros <;> intros <;> rfl
@[simp] theorem setHome_fields (s : State) (x1) (x2) :
    (s.setHome x1 x2).variant = s.variant ∧ (s.setHome x1 x2).time = s.time ∧ (s.setHome x1 x2).cores = s.cores
      ∧ (s.setHome x1 x2).ev = s.ev ∧ (s.setHome x1 x2).hub = s.hub ∧ (s.setHome x1 x2).dies = s.dies
      ∧ (s.setHome x1 x2).regions = s.regions ∧ (s.setHome x1 x2).portsDown = s.portsDown
      ∧ (s.setHome x1 x2).ddrBytes = s.ddrBytes ∧ (s.setHome x1 x2).objs = s.objs ∧ (s.setHome x1 x2).codes = s.codes
      ∧ (s.setHome x1 x2).sems = s.sems ∧ (s.setHome x1 x2).jobs = s.jobs ∧ (s.setHome x1 x2).jobOrder = s.jobOrder
      ∧ (s.setHome x1 x2).polders = s.polders ∧ (s.setHome x1 x2).sluices = s.sluices
      ∧ (s.setHome x1 x2).nextHandle = s.nextHandle ∧ (s.setHome x1 x2).sets = s.sets
      ∧ (s.setHome x1 x2).nextWalk = s.nextWalk ∧ (s.setHome x1 x2).levee = s.levee ∧ (s.setHome x1 x2).host = s.host
      ∧ (s.setHome x1 x2).dep = s.dep ∧ (s.setHome x1 x2).power = s.power ∧ (s.setHome x1 x2).boot = s.boot
      ∧ (s.setHome x1 x2).sec = s.sec ∧ (s.setHome x1 x2).rc = s.rc ∧ (s.setHome x1 x2).media = s.media
      ∧ (s.setHome x1 x2).refusals = s.refusals ∧ (s.setHome x1 x2).pending = s.pending
      ∧ (s.setHome x1 x2).freeCtr = s.freeCtr := by
  and_intros <;> rfl
@[simp] theorem setHome_reads (s : State) (x1) (x2) :
    (∀ y1, (s.setHome x1 x2).core y1 = s.core y1) ∧ (∀ y1 y2, (s.setHome x1 x2).slot y1 y2 = s.slot y1 y2)
      ∧ (∀ y1, (s.setHome x1 x2).at_ y1 = s.at_ y1) ∧ (∀ y1, (s.setHome x1 x2).job y1 = s.job y1)
      ∧ (∀ y1, (s.setHome x1 x2).polder y1 = s.polder y1) ∧ (∀ y1 y2, (s.setHome x1 x2).dike y1 y2 = s.dike y1 y2)
      ∧ (∀ y1, (s.setHome x1 x2).obj y1 = s.obj y1) ∧ (∀ y1, (s.setHome x1 x2).code y1 = s.code y1)
      ∧ (∀ y1, (s.setHome x1 x2).die y1 = s.die y1) ∧ (∀ y1, (s.setHome x1 x2).region y1 = s.region y1)
      ∧ (∀ y1, (s.setHome x1 x2).link y1 = s.link y1) ∧ (∀ y1, (s.setHome x1 x2).sluice y1 = s.sluice y1)
      ∧ (∀ y1, (s.setHome x1 x2).set y1 = s.set y1) ∧ (∀ y1, (s.setHome x1 x2).bq y1 = s.bq y1)
      ∧ (∀ y1, (s.setHome x1 x2).enc y1 = s.enc y1) ∧ (∀ y1 y2, (s.setHome x1 x2).stream y1 y2 = s.stream y1 y2)
      ∧ (∀ y1, (s.setHome x1 x2).queue y1 = s.queue y1) ∧ (∀ y1, (s.setHome x1 x2).group y1 = s.group y1)
      ∧ (∀ y1 y2, (s.setHome x1 x2).sem y1 y2 = s.sem y1 y2) ∧ (∀ y1, (s.setHome x1 x2).serves y1 = s.serves y1)
      ∧ (∀ y1, (s.setHome x1 x2).fnOpen y1 = s.fnOpen y1) ∧ (∀ y1, (s.setHome x1 x2).dieUp y1 = s.dieUp y1)
      ∧ (∀ y1, (s.setHome x1 x2).lanternDown y1 = s.lanternDown y1) ∧ (s.setHome x1 x2).jobManagerUp = s.jobManagerUp
      ∧ (∀ y1, (s.setHome x1 x2).whoAt y1 = s.whoAt y1) := by
  and_intros <;> intros <;> rfl
@[simp] theorem tick_fields (s : State) :
    (s.tick).variant = s.variant ∧ (s.tick).time = s.time ∧ (s.tick).cores = s.cores ∧ (s.tick).mem = s.mem
      ∧ (s.tick).ev = s.ev ∧ (s.tick).hub = s.hub ∧ (s.tick).dies = s.dies ∧ (s.tick).regions = s.regions
      ∧ (s.tick).portsDown = s.portsDown ∧ (s.tick).ddrBytes = s.ddrBytes ∧ (s.tick).objs = s.objs
      ∧ (s.tick).codes = s.codes ∧ (s.tick).sems = s.sems ∧ (s.tick).jobs = s.jobs ∧ (s.tick).jobOrder = s.jobOrder
      ∧ (s.tick).polders = s.polders ∧ (s.tick).sluices = s.sluices ∧ (s.tick).nextHandle = s.nextHandle
      ∧ (s.tick).sets = s.sets ∧ (s.tick).nextWalk = s.nextWalk ∧ (s.tick).levee = s.levee ∧ (s.tick).host = s.host
      ∧ (s.tick).dep = s.dep ∧ (s.tick).power = s.power ∧ (s.tick).boot = s.boot ∧ (s.tick).sec = s.sec
      ∧ (s.tick).rc = s.rc ∧ (s.tick).media = s.media ∧ (s.tick).refusals = s.refusals ∧ (s.tick).pending = s.pending := by
  and_intros <;> rfl
@[simp] theorem tick_reads (s : State) :
    (∀ y1, (s.tick).core y1 = s.core y1) ∧ (∀ y1 y2, (s.tick).slot y1 y2 = s.slot y1 y2)
      ∧ (∀ y1, (s.tick).at_ y1 = s.at_ y1) ∧ (∀ y1, (s.tick).job y1 = s.job y1)
      ∧ (∀ y1, (s.tick).polder y1 = s.polder y1) ∧ (∀ y1 y2, (s.tick).dike y1 y2 = s.dike y1 y2)
      ∧ (∀ y1, (s.tick).obj y1 = s.obj y1) ∧ (∀ y1, (s.tick).code y1 = s.code y1)
      ∧ (∀ y1, (s.tick).home y1 = s.home y1) ∧ (∀ y1, (s.tick).die y1 = s.die y1)
      ∧ (∀ y1, (s.tick).region y1 = s.region y1) ∧ (∀ y1, (s.tick).link y1 = s.link y1)
      ∧ (∀ y1, (s.tick).sluice y1 = s.sluice y1) ∧ (∀ y1, (s.tick).set y1 = s.set y1)
      ∧ (∀ y1, (s.tick).bq y1 = s.bq y1) ∧ (∀ y1, (s.tick).enc y1 = s.enc y1)
      ∧ (∀ y1 y2, (s.tick).stream y1 y2 = s.stream y1 y2) ∧ (∀ y1, (s.tick).queue y1 = s.queue y1)
      ∧ (∀ y1, (s.tick).group y1 = s.group y1) ∧ (∀ y1 y2, (s.tick).sem y1 y2 = s.sem y1 y2)
      ∧ (∀ y1, (s.tick).serves y1 = s.serves y1) ∧ (∀ y1, (s.tick).fnOpen y1 = s.fnOpen y1)
      ∧ (∀ y1, (s.tick).dieUp y1 = s.dieUp y1) ∧ (∀ y1, (s.tick).lanternDown y1 = s.lanternDown y1)
      ∧ (s.tick).jobManagerUp = s.jobManagerUp ∧ (∀ y1 y2, (s.tick).memBytes y1 y2 = s.memBytes y1 y2)
      ∧ (∀ y1, (s.tick).whoAt y1 = s.whoAt y1) := by
  and_intros <;> intros <;> rfl
@[simp] theorem setHost_fields (s : State) (x1) :
    (s.setHost x1).variant = s.variant ∧ (s.setHost x1).time = s.time ∧ (s.setHost x1).cores = s.cores
      ∧ (s.setHost x1).mem = s.mem ∧ (s.setHost x1).ev = s.ev ∧ (s.setHost x1).hub = s.hub
      ∧ (s.setHost x1).dies = s.dies ∧ (s.setHost x1).regions = s.regions ∧ (s.setHost x1).portsDown = s.portsDown
      ∧ (s.setHost x1).ddrBytes = s.ddrBytes ∧ (s.setHost x1).objs = s.objs ∧ (s.setHost x1).codes = s.codes
      ∧ (s.setHost x1).sems = s.sems ∧ (s.setHost x1).jobs = s.jobs ∧ (s.setHost x1).jobOrder = s.jobOrder
      ∧ (s.setHost x1).polders = s.polders ∧ (s.setHost x1).sluices = s.sluices
      ∧ (s.setHost x1).nextHandle = s.nextHandle ∧ (s.setHost x1).sets = s.sets ∧ (s.setHost x1).nextWalk = s.nextWalk
      ∧ (s.setHost x1).levee = s.levee ∧ (s.setHost x1).dep = s.dep ∧ (s.setHost x1).power = s.power
      ∧ (s.setHost x1).boot = s.boot ∧ (s.setHost x1).sec = s.sec ∧ (s.setHost x1).rc = s.rc
      ∧ (s.setHost x1).media = s.media ∧ (s.setHost x1).refusals = s.refusals ∧ (s.setHost x1).pending = s.pending
      ∧ (s.setHost x1).freeCtr = s.freeCtr := by
  and_intros <;> rfl
@[simp] theorem setHost_reads (s : State) (x1) :
    (∀ y1, (s.setHost x1).core y1 = s.core y1) ∧ (∀ y1 y2, (s.setHost x1).slot y1 y2 = s.slot y1 y2)
      ∧ (∀ y1, (s.setHost x1).at_ y1 = s.at_ y1) ∧ (∀ y1, (s.setHost x1).job y1 = s.job y1)
      ∧ (∀ y1, (s.setHost x1).polder y1 = s.polder y1) ∧ (∀ y1 y2, (s.setHost x1).dike y1 y2 = s.dike y1 y2)
      ∧ (∀ y1, (s.setHost x1).obj y1 = s.obj y1) ∧ (∀ y1, (s.setHost x1).code y1 = s.code y1)
      ∧ (∀ y1, (s.setHost x1).home y1 = s.home y1) ∧ (∀ y1, (s.setHost x1).die y1 = s.die y1)
      ∧ (∀ y1, (s.setHost x1).region y1 = s.region y1) ∧ (∀ y1, (s.setHost x1).link y1 = s.link y1)
      ∧ (∀ y1, (s.setHost x1).sluice y1 = s.sluice y1) ∧ (∀ y1, (s.setHost x1).set y1 = s.set y1)
      ∧ (∀ y1, (s.setHost x1).bq y1 = s.bq y1) ∧ (∀ y1, (s.setHost x1).enc y1 = s.enc y1)
      ∧ (∀ y1 y2, (s.setHost x1).stream y1 y2 = s.stream y1 y2) ∧ (∀ y1, (s.setHost x1).group y1 = s.group y1)
      ∧ (∀ y1 y2, (s.setHost x1).sem y1 y2 = s.sem y1 y2) ∧ (∀ y1, (s.setHost x1).dieUp y1 = s.dieUp y1)
      ∧ (∀ y1, (s.setHost x1).lanternDown y1 = s.lanternDown y1) ∧ (s.setHost x1).jobManagerUp = s.jobManagerUp ∧ (∀ y1, (s.setHost x1).whoAt y1 = s.whoAt y1) := by
  and_intros <;> intros <;> rfl
@[simp] theorem setQueue_fields (s : State) (x1) (x2) :
    (s.setQueue x1 x2).variant = s.variant ∧ (s.setQueue x1 x2).time = s.time ∧ (s.setQueue x1 x2).cores = s.cores
      ∧ (s.setQueue x1 x2).mem = s.mem ∧ (s.setQueue x1 x2).ev = s.ev ∧ (s.setQueue x1 x2).hub = s.hub
      ∧ (s.setQueue x1 x2).dies = s.dies ∧ (s.setQueue x1 x2).regions = s.regions
      ∧ (s.setQueue x1 x2).portsDown = s.portsDown ∧ (s.setQueue x1 x2).ddrBytes = s.ddrBytes
      ∧ (s.setQueue x1 x2).objs = s.objs ∧ (s.setQueue x1 x2).codes = s.codes ∧ (s.setQueue x1 x2).sems = s.sems
      ∧ (s.setQueue x1 x2).jobs = s.jobs ∧ (s.setQueue x1 x2).jobOrder = s.jobOrder
      ∧ (s.setQueue x1 x2).polders = s.polders ∧ (s.setQueue x1 x2).sluices = s.sluices
      ∧ (s.setQueue x1 x2).nextHandle = s.nextHandle ∧ (s.setQueue x1 x2).sets = s.sets
      ∧ (s.setQueue x1 x2).nextWalk = s.nextWalk ∧ (s.setQueue x1 x2).levee = s.levee ∧ (s.setQueue x1 x2).dep = s.dep
      ∧ (s.setQueue x1 x2).power = s.power ∧ (s.setQueue x1 x2).boot = s.boot ∧ (s.setQueue x1 x2).sec = s.sec
      ∧ (s.setQueue x1 x2).rc = s.rc ∧ (s.setQueue x1 x2).media = s.media ∧ (s.setQueue x1 x2).refusals = s.refusals
      ∧ (s.setQueue x1 x2).pending = s.pending ∧ (s.setQueue x1 x2).freeCtr = s.freeCtr := by
  and_intros <;> rfl
@[simp] theorem setQueue_reads (s : State) (x1) (x2) :
    (∀ y1, (s.setQueue x1 x2).core y1 = s.core y1) ∧ (∀ y1 y2, (s.setQueue x1 x2).slot y1 y2 = s.slot y1 y2)
      ∧ (∀ y1, (s.setQueue x1 x2).at_ y1 = s.at_ y1) ∧ (∀ y1, (s.setQueue x1 x2).job y1 = s.job y1)
      ∧ (∀ y1, (s.setQueue x1 x2).polder y1 = s.polder y1) ∧ (∀ y1 y2, (s.setQueue x1 x2).dike y1 y2 = s.dike y1 y2)
      ∧ (∀ y1, (s.setQueue x1 x2).obj y1 = s.obj y1) ∧ (∀ y1, (s.setQueue x1 x2).code y1 = s.code y1)
      ∧ (∀ y1, (s.setQueue x1 x2).home y1 = s.home y1) ∧ (∀ y1, (s.setQueue x1 x2).die y1 = s.die y1)
      ∧ (∀ y1, (s.setQueue x1 x2).region y1 = s.region y1) ∧ (∀ y1, (s.setQueue x1 x2).link y1 = s.link y1)
      ∧ (∀ y1, (s.setQueue x1 x2).sluice y1 = s.sluice y1) ∧ (∀ y1, (s.setQueue x1 x2).set y1 = s.set y1)
      ∧ (∀ y1, (s.setQueue x1 x2).bq y1 = s.bq y1) ∧ (∀ y1, (s.setQueue x1 x2).enc y1 = s.enc y1)
      ∧ (∀ y1 y2, (s.setQueue x1 x2).stream y1 y2 = s.stream y1 y2) ∧ (∀ y1, (s.setQueue x1 x2).group y1 = s.group y1)
      ∧ (∀ y1 y2, (s.setQueue x1 x2).sem y1 y2 = s.sem y1 y2) ∧ (∀ y1, (s.setQueue x1 x2).serves y1 = s.serves y1)
      ∧ (∀ y1, (s.setQueue x1 x2).fnOpen y1 = s.fnOpen y1) ∧ (∀ y1, (s.setQueue x1 x2).dieUp y1 = s.dieUp y1)
      ∧ (∀ y1, (s.setQueue x1 x2).lanternDown y1 = s.lanternDown y1)
      ∧ (s.setQueue x1 x2).jobManagerUp = s.jobManagerUp
      ∧ (∀ y1 y2, (s.setQueue x1 x2).memBytes y1 y2 = s.memBytes y1 y2)
      ∧ (∀ y1, (s.setQueue x1 x2).whoAt y1 = s.whoAt y1) := by
  and_intros <;> intros <;> rfl
@[simp] theorem setEv_fields (s : State) (x1) :
    (s.setEv x1).variant = s.variant ∧ (s.setEv x1).time = s.time ∧ (s.setEv x1).cores = s.cores
      ∧ (s.setEv x1).mem = s.mem ∧ (s.setEv x1).hub = s.hub ∧ (s.setEv x1).dies = s.dies
      ∧ (s.setEv x1).regions = s.regions ∧ (s.setEv x1).portsDown = s.portsDown ∧ (s.setEv x1).ddrBytes = s.ddrBytes
      ∧ (s.setEv x1).objs = s.objs ∧ (s.setEv x1).codes = s.codes ∧ (s.setEv x1).sems = s.sems
      ∧ (s.setEv x1).jobs = s.jobs ∧ (s.setEv x1).jobOrder = s.jobOrder ∧ (s.setEv x1).polders = s.polders
      ∧ (s.setEv x1).sluices = s.sluices ∧ (s.setEv x1).nextHandle = s.nextHandle ∧ (s.setEv x1).sets = s.sets
      ∧ (s.setEv x1).nextWalk = s.nextWalk ∧ (s.setEv x1).levee = s.levee ∧ (s.setEv x1).host = s.host
      ∧ (s.setEv x1).dep = s.dep ∧ (s.setEv x1).power = s.power ∧ (s.setEv x1).boot = s.boot
      ∧ (s.setEv x1).sec = s.sec ∧ (s.setEv x1).rc = s.rc ∧ (s.setEv x1).media = s.media
      ∧ (s.setEv x1).refusals = s.refusals ∧ (s.setEv x1).pending = s.pending ∧ (s.setEv x1).freeCtr = s.freeCtr := by
  and_intros <;> rfl
@[simp] theorem setEv_reads (s : State) (x1) :
    (∀ y1, (s.setEv x1).core y1 = s.core y1) ∧ (∀ y1 y2, (s.setEv x1).slot y1 y2 = s.slot y1 y2)
      ∧ (∀ y1, (s.setEv x1).at_ y1 = s.at_ y1) ∧ (∀ y1, (s.setEv x1).job y1 = s.job y1)
      ∧ (∀ y1, (s.setEv x1).polder y1 = s.polder y1) ∧ (∀ y1 y2, (s.setEv x1).dike y1 y2 = s.dike y1 y2)
      ∧ (∀ y1, (s.setEv x1).obj y1 = s.obj y1) ∧ (∀ y1, (s.setEv x1).code y1 = s.code y1)
      ∧ (∀ y1, (s.setEv x1).home y1 = s.home y1) ∧ (∀ y1, (s.setEv x1).die y1 = s.die y1)
      ∧ (∀ y1, (s.setEv x1).region y1 = s.region y1) ∧ (∀ y1, (s.setEv x1).link y1 = s.link y1)
      ∧ (∀ y1, (s.setEv x1).sluice y1 = s.sluice y1) ∧ (∀ y1, (s.setEv x1).set y1 = s.set y1)
      ∧ (∀ y1, (s.setEv x1).bq y1 = s.bq y1) ∧ (∀ y1, (s.setEv x1).enc y1 = s.enc y1)
      ∧ (∀ y1 y2, (s.setEv x1).stream y1 y2 = s.stream y1 y2) ∧ (∀ y1, (s.setEv x1).queue y1 = s.queue y1)
      ∧ (∀ y1, (s.setEv x1).group y1 = s.group y1) ∧ (∀ y1 y2, (s.setEv x1).sem y1 y2 = s.sem y1 y2)
      ∧ (∀ y1, (s.setEv x1).serves y1 = s.serves y1) ∧ (∀ y1, (s.setEv x1).fnOpen y1 = s.fnOpen y1)
      ∧ (∀ y1, (s.setEv x1).dieUp y1 = s.dieUp y1) ∧ (∀ y1, (s.setEv x1).lanternDown y1 = s.lanternDown y1)
      ∧ (s.setEv x1).jobManagerUp = s.jobManagerUp ∧ (∀ y1 y2, (s.setEv x1).memBytes y1 y2 = s.memBytes y1 y2)
      ∧ (∀ y1, (s.setEv x1).whoAt y1 = s.whoAt y1) := by
  and_intros <;> intros <;> rfl
@[simp] theorem setSec_fields (s : State) (x1) :
    (s.setSec x1).variant = s.variant ∧ (s.setSec x1).time = s.time ∧ (s.setSec x1).cores = s.cores
      ∧ (s.setSec x1).mem = s.mem ∧ (s.setSec x1).ev = s.ev ∧ (s.setSec x1).hub = s.hub ∧ (s.setSec x1).dies = s.dies
      ∧ (s.setSec x1).regions = s.regions ∧ (s.setSec x1).portsDown = s.portsDown
      ∧ (s.setSec x1).ddrBytes = s.ddrBytes ∧ (s.setSec x1).objs = s.objs ∧ (s.setSec x1).codes = s.codes
      ∧ (s.setSec x1).sems = s.sems ∧ (s.setSec x1).jobs = s.jobs ∧ (s.setSec x1).jobOrder = s.jobOrder
      ∧ (s.setSec x1).polders = s.polders ∧ (s.setSec x1).sluices = s.sluices
      ∧ (s.setSec x1).nextHandle = s.nextHandle ∧ (s.setSec x1).sets = s.sets ∧ (s.setSec x1).nextWalk = s.nextWalk
      ∧ (s.setSec x1).levee = s.levee ∧ (s.setSec x1).host = s.host ∧ (s.setSec x1).dep = s.dep
      ∧ (s.setSec x1).power = s.power ∧ (s.setSec x1).boot = s.boot ∧ (s.setSec x1).rc = s.rc
      ∧ (s.setSec x1).media = s.media ∧ (s.setSec x1).refusals = s.refusals ∧ (s.setSec x1).pending = s.pending
      ∧ (s.setSec x1).freeCtr = s.freeCtr := by
  and_intros <;> rfl
@[simp] theorem setSec_reads (s : State) (x1) :
    (∀ y1, (s.setSec x1).core y1 = s.core y1) ∧ (∀ y1 y2, (s.setSec x1).slot y1 y2 = s.slot y1 y2)
      ∧ (∀ y1, (s.setSec x1).at_ y1 = s.at_ y1) ∧ (∀ y1, (s.setSec x1).job y1 = s.job y1)
      ∧ (∀ y1, (s.setSec x1).polder y1 = s.polder y1) ∧ (∀ y1 y2, (s.setSec x1).dike y1 y2 = s.dike y1 y2)
      ∧ (∀ y1, (s.setSec x1).obj y1 = s.obj y1) ∧ (∀ y1, (s.setSec x1).code y1 = s.code y1)
      ∧ (∀ y1, (s.setSec x1).home y1 = s.home y1) ∧ (∀ y1, (s.setSec x1).die y1 = s.die y1)
      ∧ (∀ y1, (s.setSec x1).region y1 = s.region y1) ∧ (∀ y1, (s.setSec x1).link y1 = s.link y1)
      ∧ (∀ y1, (s.setSec x1).sluice y1 = s.sluice y1) ∧ (∀ y1, (s.setSec x1).set y1 = s.set y1)
      ∧ (∀ y1, (s.setSec x1).bq y1 = s.bq y1) ∧ (∀ y1, (s.setSec x1).enc y1 = s.enc y1)
      ∧ (∀ y1 y2, (s.setSec x1).stream y1 y2 = s.stream y1 y2) ∧ (∀ y1, (s.setSec x1).queue y1 = s.queue y1)
      ∧ (∀ y1, (s.setSec x1).group y1 = s.group y1) ∧ (∀ y1 y2, (s.setSec x1).sem y1 y2 = s.sem y1 y2)
      ∧ (∀ y1, (s.setSec x1).serves y1 = s.serves y1) ∧ (∀ y1, (s.setSec x1).fnOpen y1 = s.fnOpen y1)
      ∧ (∀ y1, (s.setSec x1).dieUp y1 = s.dieUp y1) ∧ (∀ y1, (s.setSec x1).lanternDown y1 = s.lanternDown y1)
      ∧ (s.setSec x1).jobManagerUp = s.jobManagerUp ∧ (∀ y1 y2, (s.setSec x1).memBytes y1 y2 = s.memBytes y1 y2)
      ∧ (∀ y1, (s.setSec x1).whoAt y1 = s.whoAt y1) := by
  and_intros <;> intros <;> rfl
@[simp] theorem setPower_fields (s : State) (x1) :
    (s.setPower x1).variant = s.variant ∧ (s.setPower x1).time = s.time ∧ (s.setPower x1).cores = s.cores
      ∧ (s.setPower x1).mem = s.mem ∧ (s.setPower x1).ev = s.ev ∧ (s.setPower x1).hub = s.hub
      ∧ (s.setPower x1).dies = s.dies ∧ (s.setPower x1).regions = s.regions ∧ (s.setPower x1).portsDown = s.portsDown
      ∧ (s.setPower x1).ddrBytes = s.ddrBytes ∧ (s.setPower x1).objs = s.objs ∧ (s.setPower x1).codes = s.codes
      ∧ (s.setPower x1).sems = s.sems ∧ (s.setPower x1).jobs = s.jobs ∧ (s.setPower x1).jobOrder = s.jobOrder
      ∧ (s.setPower x1).polders = s.polders ∧ (s.setPower x1).sluices = s.sluices
      ∧ (s.setPower x1).nextHandle = s.nextHandle ∧ (s.setPower x1).sets = s.sets
      ∧ (s.setPower x1).nextWalk = s.nextWalk ∧ (s.setPower x1).levee = s.levee ∧ (s.setPower x1).host = s.host
      ∧ (s.setPower x1).dep = s.dep ∧ (s.setPower x1).boot = s.boot ∧ (s.setPower x1).sec = s.sec
      ∧ (s.setPower x1).rc = s.rc ∧ (s.setPower x1).media = s.media ∧ (s.setPower x1).refusals = s.refusals
      ∧ (s.setPower x1).pending = s.pending ∧ (s.setPower x1).freeCtr = s.freeCtr := by
  and_intros <;> rfl
@[simp] theorem setPower_reads (s : State) (x1) :
    (∀ y1, (s.setPower x1).core y1 = s.core y1) ∧ (∀ y1 y2, (s.setPower x1).slot y1 y2 = s.slot y1 y2)
      ∧ (∀ y1, (s.setPower x1).at_ y1 = s.at_ y1) ∧ (∀ y1, (s.setPower x1).job y1 = s.job y1)
      ∧ (∀ y1, (s.setPower x1).polder y1 = s.polder y1) ∧ (∀ y1 y2, (s.setPower x1).dike y1 y2 = s.dike y1 y2)
      ∧ (∀ y1, (s.setPower x1).obj y1 = s.obj y1) ∧ (∀ y1, (s.setPower x1).code y1 = s.code y1)
      ∧ (∀ y1, (s.setPower x1).home y1 = s.home y1) ∧ (∀ y1, (s.setPower x1).die y1 = s.die y1)
      ∧ (∀ y1, (s.setPower x1).region y1 = s.region y1) ∧ (∀ y1, (s.setPower x1).link y1 = s.link y1)
      ∧ (∀ y1, (s.setPower x1).sluice y1 = s.sluice y1) ∧ (∀ y1, (s.setPower x1).set y1 = s.set y1)
      ∧ (∀ y1, (s.setPower x1).bq y1 = s.bq y1) ∧ (∀ y1, (s.setPower x1).enc y1 = s.enc y1)
      ∧ (∀ y1 y2, (s.setPower x1).stream y1 y2 = s.stream y1 y2) ∧ (∀ y1, (s.setPower x1).queue y1 = s.queue y1)
      ∧ (∀ y1, (s.setPower x1).group y1 = s.group y1) ∧ (∀ y1 y2, (s.setPower x1).sem y1 y2 = s.sem y1 y2)
      ∧ (∀ y1, (s.setPower x1).serves y1 = s.serves y1) ∧ (∀ y1, (s.setPower x1).fnOpen y1 = s.fnOpen y1)
      ∧ (∀ y1, (s.setPower x1).dieUp y1 = s.dieUp y1) ∧ (∀ y1, (s.setPower x1).lanternDown y1 = s.lanternDown y1)
      ∧ (s.setPower x1).jobManagerUp = s.jobManagerUp ∧ (∀ y1 y2, (s.setPower x1).memBytes y1 y2 = s.memBytes y1 y2)
      ∧ (∀ y1, (s.setPower x1).whoAt y1 = s.whoAt y1) := by
  and_intros <;> intros <;> rfl
@[simp] theorem setMedia_fields (s : State) (x1) :
    (s.setMedia x1).variant = s.variant ∧ (s.setMedia x1).time = s.time ∧ (s.setMedia x1).cores = s.cores
      ∧ (s.setMedia x1).mem = s.mem ∧ (s.setMedia x1).ev = s.ev ∧ (s.setMedia x1).hub = s.hub
      ∧ (s.setMedia x1).dies = s.dies ∧ (s.setMedia x1).regions = s.regions ∧ (s.setMedia x1).portsDown = s.portsDown
      ∧ (s.setMedia x1).ddrBytes = s.ddrBytes ∧ (s.setMedia x1).objs = s.objs ∧ (s.setMedia x1).codes = s.codes
      ∧ (s.setMedia x1).sems = s.sems ∧ (s.setMedia x1).jobs = s.jobs ∧ (s.setMedia x1).jobOrder = s.jobOrder
      ∧ (s.setMedia x1).polders = s.polders ∧ (s.setMedia x1).sluices = s.sluices
      ∧ (s.setMedia x1).nextHandle = s.nextHandle ∧ (s.setMedia x1).sets = s.sets
      ∧ (s.setMedia x1).nextWalk = s.nextWalk ∧ (s.setMedia x1).levee = s.levee ∧ (s.setMedia x1).host = s.host
      ∧ (s.setMedia x1).dep = s.dep ∧ (s.setMedia x1).power = s.power ∧ (s.setMedia x1).boot = s.boot
      ∧ (s.setMedia x1).sec = s.sec ∧ (s.setMedia x1).rc = s.rc ∧ (s.setMedia x1).refusals = s.refusals
      ∧ (s.setMedia x1).pending = s.pending ∧ (s.setMedia x1).freeCtr = s.freeCtr := by
  and_intros <;> rfl
@[simp] theorem setMedia_reads (s : State) (x1) :
    (∀ y1, (s.setMedia x1).core y1 = s.core y1) ∧ (∀ y1 y2, (s.setMedia x1).slot y1 y2 = s.slot y1 y2)
      ∧ (∀ y1, (s.setMedia x1).at_ y1 = s.at_ y1) ∧ (∀ y1, (s.setMedia x1).job y1 = s.job y1)
      ∧ (∀ y1, (s.setMedia x1).polder y1 = s.polder y1) ∧ (∀ y1 y2, (s.setMedia x1).dike y1 y2 = s.dike y1 y2)
      ∧ (∀ y1, (s.setMedia x1).obj y1 = s.obj y1) ∧ (∀ y1, (s.setMedia x1).code y1 = s.code y1)
      ∧ (∀ y1, (s.setMedia x1).home y1 = s.home y1) ∧ (∀ y1, (s.setMedia x1).die y1 = s.die y1)
      ∧ (∀ y1, (s.setMedia x1).region y1 = s.region y1) ∧ (∀ y1, (s.setMedia x1).link y1 = s.link y1)
      ∧ (∀ y1, (s.setMedia x1).sluice y1 = s.sluice y1) ∧ (∀ y1, (s.setMedia x1).set y1 = s.set y1)
      ∧ (∀ y1, (s.setMedia x1).queue y1 = s.queue y1) ∧ (∀ y1, (s.setMedia x1).group y1 = s.group y1)
      ∧ (∀ y1 y2, (s.setMedia x1).sem y1 y2 = s.sem y1 y2) ∧ (∀ y1, (s.setMedia x1).serves y1 = s.serves y1)
      ∧ (∀ y1, (s.setMedia x1).fnOpen y1 = s.fnOpen y1) ∧ (∀ y1, (s.setMedia x1).dieUp y1 = s.dieUp y1)
      ∧ (∀ y1, (s.setMedia x1).lanternDown y1 = s.lanternDown y1) ∧ (s.setMedia x1).jobManagerUp = s.jobManagerUp
      ∧ (∀ y1 y2, (s.setMedia x1).memBytes y1 y2 = s.memBytes y1 y2) ∧ (∀ y1, (s.setMedia x1).whoAt y1 = s.whoAt y1) := by
  and_intros <;> intros <;> rfl
@[simp] theorem setBq_fields (s : State) (x1) (x2) :
    (s.setBq x1 x2).variant = s.variant ∧ (s.setBq x1 x2).time = s.time ∧ (s.setBq x1 x2).cores = s.cores
      ∧ (s.setBq x1 x2).mem = s.mem ∧ (s.setBq x1 x2).ev = s.ev ∧ (s.setBq x1 x2).hub = s.hub
      ∧ (s.setBq x1 x2).dies = s.dies ∧ (s.setBq x1 x2).regions = s.regions ∧ (s.setBq x1 x2).portsDown = s.portsDown
      ∧ (s.setBq x1 x2).ddrBytes = s.ddrBytes ∧ (s.setBq x1 x2).objs = s.objs ∧ (s.setBq x1 x2).codes = s.codes
      ∧ (s.setBq x1 x2).sems = s.sems ∧ (s.setBq x1 x2).jobs = s.jobs ∧ (s.setBq x1 x2).jobOrder = s.jobOrder
      ∧ (s.setBq x1 x2).polders = s.polders ∧ (s.setBq x1 x2).sluices = s.sluices
      ∧ (s.setBq x1 x2).nextHandle = s.nextHandle ∧ (s.setBq x1 x2).sets = s.sets
      ∧ (s.setBq x1 x2).nextWalk = s.nextWalk ∧ (s.setBq x1 x2).levee = s.levee ∧ (s.setBq x1 x2).host = s.host
      ∧ (s.setBq x1 x2).dep = s.dep ∧ (s.setBq x1 x2).power = s.power ∧ (s.setBq x1 x2).boot = s.boot
      ∧ (s.setBq x1 x2).sec = s.sec ∧ (s.setBq x1 x2).rc = s.rc ∧ (s.setBq x1 x2).refusals = s.refusals
      ∧ (s.setBq x1 x2).pending = s.pending ∧ (s.setBq x1 x2).freeCtr = s.freeCtr := by
  and_intros <;> rfl
@[simp] theorem setBq_reads (s : State) (x1) (x2) :
    (∀ y1, (s.setBq x1 x2).core y1 = s.core y1) ∧ (∀ y1 y2, (s.setBq x1 x2).slot y1 y2 = s.slot y1 y2)
      ∧ (∀ y1, (s.setBq x1 x2).at_ y1 = s.at_ y1) ∧ (∀ y1, (s.setBq x1 x2).job y1 = s.job y1)
      ∧ (∀ y1, (s.setBq x1 x2).polder y1 = s.polder y1) ∧ (∀ y1 y2, (s.setBq x1 x2).dike y1 y2 = s.dike y1 y2)
      ∧ (∀ y1, (s.setBq x1 x2).obj y1 = s.obj y1) ∧ (∀ y1, (s.setBq x1 x2).code y1 = s.code y1)
      ∧ (∀ y1, (s.setBq x1 x2).home y1 = s.home y1) ∧ (∀ y1, (s.setBq x1 x2).die y1 = s.die y1)
      ∧ (∀ y1, (s.setBq x1 x2).region y1 = s.region y1) ∧ (∀ y1, (s.setBq x1 x2).link y1 = s.link y1)
      ∧ (∀ y1, (s.setBq x1 x2).sluice y1 = s.sluice y1) ∧ (∀ y1, (s.setBq x1 x2).set y1 = s.set y1)
      ∧ (∀ y1, (s.setBq x1 x2).enc y1 = s.enc y1) ∧ (∀ y1 y2, (s.setBq x1 x2).stream y1 y2 = s.stream y1 y2)
      ∧ (∀ y1, (s.setBq x1 x2).queue y1 = s.queue y1) ∧ (∀ y1, (s.setBq x1 x2).group y1 = s.group y1)
      ∧ (∀ y1 y2, (s.setBq x1 x2).sem y1 y2 = s.sem y1 y2) ∧ (∀ y1, (s.setBq x1 x2).serves y1 = s.serves y1)
      ∧ (∀ y1, (s.setBq x1 x2).fnOpen y1 = s.fnOpen y1) ∧ (∀ y1, (s.setBq x1 x2).dieUp y1 = s.dieUp y1)
      ∧ (∀ y1, (s.setBq x1 x2).lanternDown y1 = s.lanternDown y1) ∧ (s.setBq x1 x2).jobManagerUp = s.jobManagerUp
      ∧ (∀ y1 y2, (s.setBq x1 x2).memBytes y1 y2 = s.memBytes y1 y2) ∧ (∀ y1, (s.setBq x1 x2).whoAt y1 = s.whoAt y1) := by
  and_intros <;> intros <;> rfl
@[simp] theorem setEnc_fields (s : State) (x1) (x2) :
    (s.setEnc x1 x2).variant = s.variant ∧ (s.setEnc x1 x2).time = s.time ∧ (s.setEnc x1 x2).cores = s.cores
      ∧ (s.setEnc x1 x2).mem = s.mem ∧ (s.setEnc x1 x2).ev = s.ev ∧ (s.setEnc x1 x2).hub = s.hub
      ∧ (s.setEnc x1 x2).dies = s.dies ∧ (s.setEnc x1 x2).regions = s.regions
      ∧ (s.setEnc x1 x2).portsDown = s.portsDown ∧ (s.setEnc x1 x2).ddrBytes = s.ddrBytes
      ∧ (s.setEnc x1 x2).objs = s.objs ∧ (s.setEnc x1 x2).codes = s.codes ∧ (s.setEnc x1 x2).sems = s.sems
      ∧ (s.setEnc x1 x2).jobs = s.jobs ∧ (s.setEnc x1 x2).jobOrder = s.jobOrder ∧ (s.setEnc x1 x2).polders = s.polders
      ∧ (s.setEnc x1 x2).sluices = s.sluices ∧ (s.setEnc x1 x2).nextHandle = s.nextHandle
      ∧ (s.setEnc x1 x2).sets = s.sets ∧ (s.setEnc x1 x2).nextWalk = s.nextWalk ∧ (s.setEnc x1 x2).levee = s.levee
      ∧ (s.setEnc x1 x2).host = s.host ∧ (s.setEnc x1 x2).dep = s.dep ∧ (s.setEnc x1 x2).power = s.power
      ∧ (s.setEnc x1 x2).boot = s.boot ∧ (s.setEnc x1 x2).sec = s.sec ∧ (s.setEnc x1 x2).rc = s.rc
      ∧ (s.setEnc x1 x2).refusals = s.refusals ∧ (s.setEnc x1 x2).pending = s.pending
      ∧ (s.setEnc x1 x2).freeCtr = s.freeCtr := by
  and_intros <;> rfl
@[simp] theorem setEnc_reads (s : State) (x1) (x2) :
    (∀ y1, (s.setEnc x1 x2).core y1 = s.core y1) ∧ (∀ y1 y2, (s.setEnc x1 x2).slot y1 y2 = s.slot y1 y2)
      ∧ (∀ y1, (s.setEnc x1 x2).at_ y1 = s.at_ y1) ∧ (∀ y1, (s.setEnc x1 x2).job y1 = s.job y1)
      ∧ (∀ y1, (s.setEnc x1 x2).polder y1 = s.polder y1) ∧ (∀ y1 y2, (s.setEnc x1 x2).dike y1 y2 = s.dike y1 y2)
      ∧ (∀ y1, (s.setEnc x1 x2).obj y1 = s.obj y1) ∧ (∀ y1, (s.setEnc x1 x2).code y1 = s.code y1)
      ∧ (∀ y1, (s.setEnc x1 x2).home y1 = s.home y1) ∧ (∀ y1, (s.setEnc x1 x2).die y1 = s.die y1)
      ∧ (∀ y1, (s.setEnc x1 x2).region y1 = s.region y1) ∧ (∀ y1, (s.setEnc x1 x2).link y1 = s.link y1)
      ∧ (∀ y1, (s.setEnc x1 x2).sluice y1 = s.sluice y1) ∧ (∀ y1, (s.setEnc x1 x2).set y1 = s.set y1)
      ∧ (∀ y1, (s.setEnc x1 x2).bq y1 = s.bq y1) ∧ (∀ y1 y2, (s.setEnc x1 x2).stream y1 y2 = s.stream y1 y2)
      ∧ (∀ y1, (s.setEnc x1 x2).queue y1 = s.queue y1) ∧ (∀ y1, (s.setEnc x1 x2).group y1 = s.group y1)
      ∧ (∀ y1 y2, (s.setEnc x1 x2).sem y1 y2 = s.sem y1 y2) ∧ (∀ y1, (s.setEnc x1 x2).serves y1 = s.serves y1)
      ∧ (∀ y1, (s.setEnc x1 x2).fnOpen y1 = s.fnOpen y1) ∧ (∀ y1, (s.setEnc x1 x2).dieUp y1 = s.dieUp y1)
      ∧ (∀ y1, (s.setEnc x1 x2).lanternDown y1 = s.lanternDown y1) ∧ (s.setEnc x1 x2).jobManagerUp = s.jobManagerUp
      ∧ (∀ y1 y2, (s.setEnc x1 x2).memBytes y1 y2 = s.memBytes y1 y2) ∧ (∀ y1, (s.setEnc x1 x2).whoAt y1 = s.whoAt y1) := by
  and_intros <;> intros <;> rfl
@[simp] theorem setStream_fields (s : State) (x1) (x2) (x3) :
    (s.setStream x1 x2 x3).variant = s.variant ∧ (s.setStream x1 x2 x3).time = s.time
      ∧ (s.setStream x1 x2 x3).cores = s.cores ∧ (s.setStream x1 x2 x3).mem = s.mem ∧ (s.setStream x1 x2 x3).ev = s.ev
      ∧ (s.setStream x1 x2 x3).hub = s.hub ∧ (s.setStream x1 x2 x3).dies = s.dies
      ∧ (s.setStream x1 x2 x3).regions = s.regions ∧ (s.setStream x1 x2 x3).portsDown = s.portsDown
      ∧ (s.setStream x1 x2 x3).ddrBytes = s.ddrBytes ∧ (s.setStream x1 x2 x3).objs = s.objs
      ∧ (s.setStream x1 x2 x3).codes = s.codes ∧ (s.setStream x1 x2 x3).sems = s.sems
      ∧ (s.setStream x1 x2 x3).jobs = s.jobs ∧ (s.setStream x1 x2 x3).jobOrder = s.jobOrder
      ∧ (s.setStream x1 x2 x3).polders = s.polders ∧ (s.setStream x1 x2 x3).sluices = s.sluices
      ∧ (s.setStream x1 x2 x3).nextHandle = s.nextHandle ∧ (s.setStream x1 x2 x3).sets = s.sets
      ∧ (s.setStream x1 x2 x3).nextWalk = s.nextWalk ∧ (s.setStream x1 x2 x3).levee = s.levee
      ∧ (s.setStream x1 x2 x3).host = s.host ∧ (s.setStream x1 x2 x3).dep = s.dep
      ∧ (s.setStream x1 x2 x3).power = s.power ∧ (s.setStream x1 x2 x3).boot = s.boot
      ∧ (s.setStream x1 x2 x3).sec = s.sec ∧ (s.setStream x1 x2 x3).rc = s.rc
      ∧ (s.setStream x1 x2 x3).refusals = s.refusals ∧ (s.setStream x1 x2 x3).pending = s.pending
      ∧ (s.setStream x1 x2 x3).freeCtr = s.freeCtr := by
  and_intros <;> rfl
@[simp] theorem setStream_reads (s : State) (x1) (x2) (x3) :
    (∀ y1, (s.setStream x1 x2 x3).core y1 = s.core y1) ∧ (∀ y1 y2, (s.setStream x1 x2 x3).slot y1 y2 = s.slot y1 y2)
      ∧ (∀ y1, (s.setStream x1 x2 x3).at_ y1 = s.at_ y1) ∧ (∀ y1, (s.setStream x1 x2 x3).job y1 = s.job y1)
      ∧ (∀ y1, (s.setStream x1 x2 x3).polder y1 = s.polder y1)
      ∧ (∀ y1 y2, (s.setStream x1 x2 x3).dike y1 y2 = s.dike y1 y2) ∧ (∀ y1, (s.setStream x1 x2 x3).obj y1 = s.obj y1)
      ∧ (∀ y1, (s.setStream x1 x2 x3).code y1 = s.code y1) ∧ (∀ y1, (s.setStream x1 x2 x3).home y1 = s.home y1)
      ∧ (∀ y1, (s.setStream x1 x2 x3).die y1 = s.die y1) ∧ (∀ y1, (s.setStream x1 x2 x3).region y1 = s.region y1)
      ∧ (∀ y1, (s.setStream x1 x2 x3).link y1 = s.link y1) ∧ (∀ y1, (s.setStream x1 x2 x3).sluice y1 = s.sluice y1)
      ∧ (∀ y1, (s.setStream x1 x2 x3).set y1 = s.set y1) ∧ (∀ y1, (s.setStream x1 x2 x3).bq y1 = s.bq y1)
      ∧ (∀ y1, (s.setStream x1 x2 x3).enc y1 = s.enc y1) ∧ (∀ y1, (s.setStream x1 x2 x3).queue y1 = s.queue y1)
      ∧ (∀ y1, (s.setStream x1 x2 x3).group y1 = s.group y1)
      ∧ (∀ y1 y2, (s.setStream x1 x2 x3).sem y1 y2 = s.sem y1 y2)
      ∧ (∀ y1, (s.setStream x1 x2 x3).serves y1 = s.serves y1)
      ∧ (∀ y1, (s.setStream x1 x2 x3).fnOpen y1 = s.fnOpen y1) ∧ (∀ y1, (s.setStream x1 x2 x3).dieUp y1 = s.dieUp y1)
      ∧ (∀ y1, (s.setStream x1 x2 x3).lanternDown y1 = s.lanternDown y1)
      ∧ (s.setStream x1 x2 x3).jobManagerUp = s.jobManagerUp
      ∧ (∀ y1 y2, (s.setStream x1 x2 x3).memBytes y1 y2 = s.memBytes y1 y2)
      ∧ (∀ y1, (s.setStream x1 x2 x3).whoAt y1 = s.whoAt y1) := by
  and_intros <;> intros <;> rfl
@[simp] theorem setDep_fields (s : State) (x1) :
    (s.setDep x1).variant = s.variant ∧ (s.setDep x1).time = s.time ∧ (s.setDep x1).cores = s.cores
      ∧ (s.setDep x1).mem = s.mem ∧ (s.setDep x1).ev = s.ev ∧ (s.setDep x1).hub = s.hub ∧ (s.setDep x1).dies = s.dies
      ∧ (s.setDep x1).regions = s.regions ∧ (s.setDep x1).portsDown = s.portsDown
      ∧ (s.setDep x1).ddrBytes = s.ddrBytes ∧ (s.setDep x1).objs = s.objs ∧ (s.setDep x1).codes = s.codes
      ∧ (s.setDep x1).sems = s.sems ∧ (s.setDep x1).jobs = s.jobs ∧ (s.setDep x1).jobOrder = s.jobOrder
      ∧ (s.setDep x1).polders = s.polders ∧ (s.setDep x1).sluices = s.sluices
      ∧ (s.setDep x1).nextHandle = s.nextHandle ∧ (s.setDep x1).sets = s.sets ∧ (s.setDep x1).nextWalk = s.nextWalk
      ∧ (s.setDep x1).levee = s.levee ∧ (s.setDep x1).host = s.host ∧ (s.setDep x1).power = s.power
      ∧ (s.setDep x1).boot = s.boot ∧ (s.setDep x1).sec = s.sec ∧ (s.setDep x1).rc = s.rc
      ∧ (s.setDep x1).media = s.media ∧ (s.setDep x1).refusals = s.refusals ∧ (s.setDep x1).pending = s.pending
      ∧ (s.setDep x1).freeCtr = s.freeCtr := by
  and_intros <;> rfl
@[simp] theorem setDep_reads (s : State) (x1) :
    (∀ y1, (s.setDep x1).core y1 = s.core y1) ∧ (∀ y1 y2, (s.setDep x1).slot y1 y2 = s.slot y1 y2)
      ∧ (∀ y1, (s.setDep x1).at_ y1 = s.at_ y1) ∧ (∀ y1, (s.setDep x1).job y1 = s.job y1)
      ∧ (∀ y1, (s.setDep x1).polder y1 = s.polder y1) ∧ (∀ y1 y2, (s.setDep x1).dike y1 y2 = s.dike y1 y2)
      ∧ (∀ y1, (s.setDep x1).obj y1 = s.obj y1) ∧ (∀ y1, (s.setDep x1).code y1 = s.code y1)
      ∧ (∀ y1, (s.setDep x1).home y1 = s.home y1) ∧ (∀ y1, (s.setDep x1).die y1 = s.die y1)
      ∧ (∀ y1, (s.setDep x1).region y1 = s.region y1) ∧ (∀ y1, (s.setDep x1).link y1 = s.link y1)
      ∧ (∀ y1, (s.setDep x1).sluice y1 = s.sluice y1) ∧ (∀ y1, (s.setDep x1).set y1 = s.set y1)
      ∧ (∀ y1, (s.setDep x1).bq y1 = s.bq y1) ∧ (∀ y1, (s.setDep x1).enc y1 = s.enc y1)
      ∧ (∀ y1 y2, (s.setDep x1).stream y1 y2 = s.stream y1 y2) ∧ (∀ y1, (s.setDep x1).queue y1 = s.queue y1)
      ∧ (∀ y1, (s.setDep x1).group y1 = s.group y1) ∧ (∀ y1 y2, (s.setDep x1).sem y1 y2 = s.sem y1 y2)
      ∧ (∀ y1, (s.setDep x1).serves y1 = s.serves y1) ∧ (∀ y1, (s.setDep x1).fnOpen y1 = s.fnOpen y1)
      ∧ (∀ y1, (s.setDep x1).dieUp y1 = s.dieUp y1) ∧ (∀ y1 y2, (s.setDep x1).memBytes y1 y2 = s.memBytes y1 y2)
      ∧ (∀ y1, (s.setDep x1).whoAt y1 = s.whoAt y1) := by
  and_intros <;> intros <;> rfl
@[simp] theorem setTest_fields (s : State) (x1) (x2) :
    (s.setTest x1 x2).variant = s.variant ∧ (s.setTest x1 x2).time = s.time ∧ (s.setTest x1 x2).cores = s.cores
      ∧ (s.setTest x1 x2).mem = s.mem ∧ (s.setTest x1 x2).ev = s.ev ∧ (s.setTest x1 x2).hub = s.hub
      ∧ (s.setTest x1 x2).dies = s.dies ∧ (s.setTest x1 x2).regions = s.regions
      ∧ (s.setTest x1 x2).portsDown = s.portsDown ∧ (s.setTest x1 x2).ddrBytes = s.ddrBytes
      ∧ (s.setTest x1 x2).objs = s.objs ∧ (s.setTest x1 x2).codes = s.codes ∧ (s.setTest x1 x2).sems = s.sems
      ∧ (s.setTest x1 x2).jobs = s.jobs ∧ (s.setTest x1 x2).jobOrder = s.jobOrder
      ∧ (s.setTest x1 x2).polders = s.polders ∧ (s.setTest x1 x2).sluices = s.sluices
      ∧ (s.setTest x1 x2).nextHandle = s.nextHandle ∧ (s.setTest x1 x2).sets = s.sets
      ∧ (s.setTest x1 x2).nextWalk = s.nextWalk ∧ (s.setTest x1 x2).levee = s.levee ∧ (s.setTest x1 x2).host = s.host
      ∧ (s.setTest x1 x2).power = s.power ∧ (s.setTest x1 x2).boot = s.boot ∧ (s.setTest x1 x2).sec = s.sec
      ∧ (s.setTest x1 x2).rc = s.rc ∧ (s.setTest x1 x2).media = s.media ∧ (s.setTest x1 x2).refusals = s.refusals
      ∧ (s.setTest x1 x2).pending = s.pending ∧ (s.setTest x1 x2).freeCtr = s.freeCtr := by
  and_intros <;> rfl
@[simp] theorem setTest_reads (s : State) (x1) (x2) :
    (∀ y1, (s.setTest x1 x2).core y1 = s.core y1) ∧ (∀ y1 y2, (s.setTest x1 x2).slot y1 y2 = s.slot y1 y2)
      ∧ (∀ y1, (s.setTest x1 x2).at_ y1 = s.at_ y1) ∧ (∀ y1, (s.setTest x1 x2).job y1 = s.job y1)
      ∧ (∀ y1, (s.setTest x1 x2).polder y1 = s.polder y1) ∧ (∀ y1 y2, (s.setTest x1 x2).dike y1 y2 = s.dike y1 y2)
      ∧ (∀ y1, (s.setTest x1 x2).obj y1 = s.obj y1) ∧ (∀ y1, (s.setTest x1 x2).code y1 = s.code y1)
      ∧ (∀ y1, (s.setTest x1 x2).home y1 = s.home y1) ∧ (∀ y1, (s.setTest x1 x2).die y1 = s.die y1)
      ∧ (∀ y1, (s.setTest x1 x2).region y1 = s.region y1) ∧ (∀ y1, (s.setTest x1 x2).link y1 = s.link y1)
      ∧ (∀ y1, (s.setTest x1 x2).sluice y1 = s.sluice y1) ∧ (∀ y1, (s.setTest x1 x2).set y1 = s.set y1)
      ∧ (∀ y1, (s.setTest x1 x2).bq y1 = s.bq y1) ∧ (∀ y1, (s.setTest x1 x2).enc y1 = s.enc y1)
      ∧ (∀ y1 y2, (s.setTest x1 x2).stream y1 y2 = s.stream y1 y2) ∧ (∀ y1, (s.setTest x1 x2).queue y1 = s.queue y1)
      ∧ (∀ y1, (s.setTest x1 x2).group y1 = s.group y1) ∧ (∀ y1 y2, (s.setTest x1 x2).sem y1 y2 = s.sem y1 y2)
      ∧ (∀ y1, (s.setTest x1 x2).serves y1 = s.serves y1) ∧ (∀ y1, (s.setTest x1 x2).fnOpen y1 = s.fnOpen y1)
      ∧ (∀ y1, (s.setTest x1 x2).dieUp y1 = s.dieUp y1) ∧ (∀ y1, (s.setTest x1 x2).lanternDown y1 = s.lanternDown y1)
      ∧ (s.setTest x1 x2).jobManagerUp = s.jobManagerUp
      ∧ (∀ y1 y2, (s.setTest x1 x2).memBytes y1 y2 = s.memBytes y1 y2)
      ∧ (∀ y1, (s.setTest x1 x2).whoAt y1 = s.whoAt y1) := by
  and_intros <;> intros <;> rfl
@[simp] theorem setDie_fields (s : State) (x1) (x2) :
    (s.setDie x1 x2).variant = s.variant ∧ (s.setDie x1 x2).time = s.time ∧ (s.setDie x1 x2).cores = s.cores
      ∧ (s.setDie x1 x2).mem = s.mem ∧ (s.setDie x1 x2).ev = s.ev ∧ (s.setDie x1 x2).hub = s.hub
      ∧ (s.setDie x1 x2).regions = s.regions ∧ (s.setDie x1 x2).portsDown = s.portsDown
      ∧ (s.setDie x1 x2).ddrBytes = s.ddrBytes ∧ (s.setDie x1 x2).objs = s.objs ∧ (s.setDie x1 x2).codes = s.codes
      ∧ (s.setDie x1 x2).sems = s.sems ∧ (s.setDie x1 x2).jobs = s.jobs ∧ (s.setDie x1 x2).jobOrder = s.jobOrder
      ∧ (s.setDie x1 x2).polders = s.polders ∧ (s.setDie x1 x2).sluices = s.sluices
      ∧ (s.setDie x1 x2).nextHandle = s.nextHandle ∧ (s.setDie x1 x2).sets = s.sets
      ∧ (s.setDie x1 x2).nextWalk = s.nextWalk ∧ (s.setDie x1 x2).levee = s.levee ∧ (s.setDie x1 x2).host = s.host
      ∧ (s.setDie x1 x2).dep = s.dep ∧ (s.setDie x1 x2).power = s.power ∧ (s.setDie x1 x2).boot = s.boot
      ∧ (s.setDie x1 x2).sec = s.sec ∧ (s.setDie x1 x2).rc = s.rc ∧ (s.setDie x1 x2).media = s.media
      ∧ (s.setDie x1 x2).refusals = s.refusals ∧ (s.setDie x1 x2).pending = s.pending
      ∧ (s.setDie x1 x2).freeCtr = s.freeCtr := by
  and_intros <;> rfl
@[simp] theorem setDie_reads (s : State) (x1) (x2) :
    (∀ y1, (s.setDie x1 x2).core y1 = s.core y1) ∧ (∀ y1 y2, (s.setDie x1 x2).slot y1 y2 = s.slot y1 y2)
      ∧ (∀ y1, (s.setDie x1 x2).at_ y1 = s.at_ y1) ∧ (∀ y1, (s.setDie x1 x2).job y1 = s.job y1)
      ∧ (∀ y1, (s.setDie x1 x2).polder y1 = s.polder y1) ∧ (∀ y1 y2, (s.setDie x1 x2).dike y1 y2 = s.dike y1 y2)
      ∧ (∀ y1, (s.setDie x1 x2).obj y1 = s.obj y1) ∧ (∀ y1, (s.setDie x1 x2).code y1 = s.code y1)
      ∧ (∀ y1, (s.setDie x1 x2).home y1 = s.home y1) ∧ (∀ y1, (s.setDie x1 x2).region y1 = s.region y1)
      ∧ (∀ y1, (s.setDie x1 x2).link y1 = s.link y1) ∧ (∀ y1, (s.setDie x1 x2).sluice y1 = s.sluice y1)
      ∧ (∀ y1, (s.setDie x1 x2).set y1 = s.set y1) ∧ (∀ y1, (s.setDie x1 x2).bq y1 = s.bq y1)
      ∧ (∀ y1, (s.setDie x1 x2).enc y1 = s.enc y1) ∧ (∀ y1 y2, (s.setDie x1 x2).stream y1 y2 = s.stream y1 y2)
      ∧ (∀ y1, (s.setDie x1 x2).queue y1 = s.queue y1) ∧ (∀ y1, (s.setDie x1 x2).group y1 = s.group y1)
      ∧ (∀ y1 y2, (s.setDie x1 x2).sem y1 y2 = s.sem y1 y2) ∧ (∀ y1, (s.setDie x1 x2).serves y1 = s.serves y1)
      ∧ (∀ y1, (s.setDie x1 x2).fnOpen y1 = s.fnOpen y1) ∧ (∀ y1, (s.setDie x1 x2).lanternDown y1 = s.lanternDown y1)
      ∧ (s.setDie x1 x2).jobManagerUp = s.jobManagerUp ∧ (∀ y1 y2, (s.setDie x1 x2).memBytes y1 y2 = s.memBytes y1 y2)
      ∧ (∀ y1, (s.setDie x1 x2).whoAt y1 = s.whoAt y1) := by
  and_intros <;> intros <;> rfl
@[simp] theorem setRegion_fields (s : State) (x1) (x2) :
    (s.setRegion x1 x2).variant = s.variant ∧ (s.setRegion x1 x2).time = s.time ∧ (s.setRegion x1 x2).cores = s.cores
      ∧ (s.setRegion x1 x2).mem = s.mem ∧ (s.setRegion x1 x2).ev = s.ev ∧ (s.setRegion x1 x2).hub = s.hub
      ∧ (s.setRegion x1 x2).dies = s.dies ∧ (s.setRegion x1 x2).portsDown = s.portsDown
      ∧ (s.setRegion x1 x2).ddrBytes = s.ddrBytes ∧ (s.setRegion x1 x2).objs = s.objs
      ∧ (s.setRegion x1 x2).codes = s.codes ∧ (s.setRegion x1 x2).sems = s.sems ∧ (s.setRegion x1 x2).jobs = s.jobs
      ∧ (s.setRegion x1 x2).jobOrder = s.jobOrder ∧ (s.setRegion x1 x2).polders = s.polders
      ∧ (s.setRegion x1 x2).sluices = s.sluices ∧ (s.setRegion x1 x2).nextHandle = s.nextHandle
      ∧ (s.setRegion x1 x2).sets = s.sets ∧ (s.setRegion x1 x2).nextWalk = s.nextWalk
      ∧ (s.setRegion x1 x2).levee = s.levee ∧ (s.setRegion x1 x2).host = s.host ∧ (s.setRegion x1 x2).dep = s.dep
      ∧ (s.setRegion x1 x2).power = s.power ∧ (s.setRegion x1 x2).boot = s.boot ∧ (s.setRegion x1 x2).sec = s.sec
      ∧ (s.setRegion x1 x2).rc = s.rc ∧ (s.setRegion x1 x2).media = s.media
      ∧ (s.setRegion x1 x2).refusals = s.refusals ∧ (s.setRegion x1 x2).pending = s.pending
      ∧ (s.setRegion x1 x2).freeCtr = s.freeCtr := by
  and_intros <;> rfl
@[simp] theorem setRegion_reads (s : State) (x1) (x2) :
    (∀ y1, (s.setRegion x1 x2).core y1 = s.core y1) ∧ (∀ y1 y2, (s.setRegion x1 x2).slot y1 y2 = s.slot y1 y2)
      ∧ (∀ y1, (s.setRegion x1 x2).at_ y1 = s.at_ y1) ∧ (∀ y1, (s.setRegion x1 x2).job y1 = s.job y1)
      ∧ (∀ y1, (s.setRegion x1 x2).polder y1 = s.polder y1) ∧ (∀ y1 y2, (s.setRegion x1 x2).dike y1 y2 = s.dike y1 y2)
      ∧ (∀ y1, (s.setRegion x1 x2).obj y1 = s.obj y1) ∧ (∀ y1, (s.setRegion x1 x2).code y1 = s.code y1)
      ∧ (∀ y1, (s.setRegion x1 x2).home y1 = s.home y1) ∧ (∀ y1, (s.setRegion x1 x2).die y1 = s.die y1)
      ∧ (∀ y1, (s.setRegion x1 x2).link y1 = s.link y1) ∧ (∀ y1, (s.setRegion x1 x2).sluice y1 = s.sluice y1)
      ∧ (∀ y1, (s.setRegion x1 x2).set y1 = s.set y1) ∧ (∀ y1, (s.setRegion x1 x2).bq y1 = s.bq y1)
      ∧ (∀ y1, (s.setRegion x1 x2).enc y1 = s.enc y1) ∧ (∀ y1 y2, (s.setRegion x1 x2).stream y1 y2 = s.stream y1 y2)
      ∧ (∀ y1, (s.setRegion x1 x2).queue y1 = s.queue y1) ∧ (∀ y1, (s.setRegion x1 x2).group y1 = s.group y1)
      ∧ (∀ y1 y2, (s.setRegion x1 x2).sem y1 y2 = s.sem y1 y2) ∧ (∀ y1, (s.setRegion x1 x2).serves y1 = s.serves y1)
      ∧ (∀ y1, (s.setRegion x1 x2).fnOpen y1 = s.fnOpen y1) ∧ (∀ y1, (s.setRegion x1 x2).dieUp y1 = s.dieUp y1)
      ∧ (∀ y1, (s.setRegion x1 x2).lanternDown y1 = s.lanternDown y1)
      ∧ (s.setRegion x1 x2).jobManagerUp = s.jobManagerUp
      ∧ (∀ y1 y2, (s.setRegion x1 x2).memBytes y1 y2 = s.memBytes y1 y2)
      ∧ (∀ y1, (s.setRegion x1 x2).whoAt y1 = s.whoAt y1) := by
  and_intros <;> intros <;> rfl
@[simp] theorem setLink_fields (s : State) (x1) (x2) :
    (s.setLink x1 x2).variant = s.variant ∧ (s.setLink x1 x2).time = s.time ∧ (s.setLink x1 x2).cores = s.cores
      ∧ (s.setLink x1 x2).mem = s.mem ∧ (s.setLink x1 x2).ev = s.ev ∧ (s.setLink x1 x2).hub = s.hub
      ∧ (s.setLink x1 x2).dies = s.dies ∧ (s.setLink x1 x2).regions = s.regions
      ∧ (s.setLink x1 x2).portsDown = s.portsDown ∧ (s.setLink x1 x2).ddrBytes = s.ddrBytes
      ∧ (s.setLink x1 x2).objs = s.objs ∧ (s.setLink x1 x2).codes = s.codes ∧ (s.setLink x1 x2).sems = s.sems
      ∧ (s.setLink x1 x2).jobs = s.jobs ∧ (s.setLink x1 x2).jobOrder = s.jobOrder
      ∧ (s.setLink x1 x2).polders = s.polders ∧ (s.setLink x1 x2).sluices = s.sluices
      ∧ (s.setLink x1 x2).nextHandle = s.nextHandle ∧ (s.setLink x1 x2).sets = s.sets
      ∧ (s.setLink x1 x2).nextWalk = s.nextWalk ∧ (s.setLink x1 x2).host = s.host ∧ (s.setLink x1 x2).dep = s.dep
      ∧ (s.setLink x1 x2).power = s.power ∧ (s.setLink x1 x2).boot = s.boot ∧ (s.setLink x1 x2).sec = s.sec
      ∧ (s.setLink x1 x2).rc = s.rc ∧ (s.setLink x1 x2).media = s.media ∧ (s.setLink x1 x2).refusals = s.refusals
      ∧ (s.setLink x1 x2).pending = s.pending ∧ (s.setLink x1 x2).freeCtr = s.freeCtr := by
  and_intros <;> rfl
@[simp] theorem setLink_reads (s : State) (x1) (x2) :
    (∀ y1, (s.setLink x1 x2).core y1 = s.core y1) ∧ (∀ y1 y2, (s.setLink x1 x2).slot y1 y2 = s.slot y1 y2)
      ∧ (∀ y1, (s.setLink x1 x2).at_ y1 = s.at_ y1) ∧ (∀ y1, (s.setLink x1 x2).job y1 = s.job y1)
      ∧ (∀ y1, (s.setLink x1 x2).polder y1 = s.polder y1) ∧ (∀ y1 y2, (s.setLink x1 x2).dike y1 y2 = s.dike y1 y2)
      ∧ (∀ y1, (s.setLink x1 x2).obj y1 = s.obj y1) ∧ (∀ y1, (s.setLink x1 x2).code y1 = s.code y1)
      ∧ (∀ y1, (s.setLink x1 x2).home y1 = s.home y1) ∧ (∀ y1, (s.setLink x1 x2).die y1 = s.die y1)
      ∧ (∀ y1, (s.setLink x1 x2).region y1 = s.region y1) ∧ (∀ y1, (s.setLink x1 x2).sluice y1 = s.sluice y1)
      ∧ (∀ y1, (s.setLink x1 x2).set y1 = s.set y1) ∧ (∀ y1, (s.setLink x1 x2).bq y1 = s.bq y1)
      ∧ (∀ y1, (s.setLink x1 x2).enc y1 = s.enc y1) ∧ (∀ y1 y2, (s.setLink x1 x2).stream y1 y2 = s.stream y1 y2)
      ∧ (∀ y1, (s.setLink x1 x2).queue y1 = s.queue y1) ∧ (∀ y1, (s.setLink x1 x2).group y1 = s.group y1)
      ∧ (∀ y1 y2, (s.setLink x1 x2).sem y1 y2 = s.sem y1 y2) ∧ (∀ y1, (s.setLink x1 x2).serves y1 = s.serves y1)
      ∧ (∀ y1, (s.setLink x1 x2).fnOpen y1 = s.fnOpen y1) ∧ (∀ y1, (s.setLink x1 x2).dieUp y1 = s.dieUp y1)
      ∧ (∀ y1, (s.setLink x1 x2).lanternDown y1 = s.lanternDown y1) ∧ (s.setLink x1 x2).jobManagerUp = s.jobManagerUp
      ∧ (∀ y1 y2, (s.setLink x1 x2).memBytes y1 y2 = s.memBytes y1 y2)
      ∧ (∀ y1, (s.setLink x1 x2).whoAt y1 = s.whoAt y1) := by
  and_intros <;> intros <;> rfl
@[simp] theorem setGroup_fields (s : State) (x1) (x2) :
    (s.setGroup x1 x2).variant = s.variant ∧ (s.setGroup x1 x2).time = s.time ∧ (s.setGroup x1 x2).cores = s.cores
      ∧ (s.setGroup x1 x2).mem = s.mem ∧ (s.setGroup x1 x2).ev = s.ev ∧ (s.setGroup x1 x2).hub = s.hub
      ∧ (s.setGroup x1 x2).dies = s.dies ∧ (s.setGroup x1 x2).regions = s.regions
      ∧ (s.setGroup x1 x2).portsDown = s.portsDown ∧ (s.setGroup x1 x2).ddrBytes = s.ddrBytes
      ∧ (s.setGroup x1 x2).objs = s.objs ∧ (s.setGroup x1 x2).codes = s.codes ∧ (s.setGroup x1 x2).sems = s.sems
      ∧ (s.setGroup x1 x2).jobs = s.jobs ∧ (s.setGroup x1 x2).jobOrder = s.jobOrder
      ∧ (s.setGroup x1 x2).polders = s.polders ∧ (s.setGroup x1 x2).sluices = s.sluices
      ∧ (s.setGroup x1 x2).nextHandle = s.nextHandle ∧ (s.setGroup x1 x2).sets = s.sets
      ∧ (s.setGroup x1 x2).nextWalk = s.nextWalk ∧ (s.setGroup x1 x2).host = s.host ∧ (s.setGroup x1 x2).dep = s.dep
      ∧ (s.setGroup x1 x2).power = s.power ∧ (s.setGroup x1 x2).boot = s.boot ∧ (s.setGroup x1 x2).sec = s.sec
      ∧ (s.setGroup x1 x2).rc = s.rc ∧ (s.setGroup x1 x2).media = s.media ∧ (s.setGroup x1 x2).refusals = s.refusals
      ∧ (s.setGroup x1 x2).pending = s.pending ∧ (s.setGroup x1 x2).freeCtr = s.freeCtr := by
  and_intros <;> rfl
@[simp] theorem setGroup_reads (s : State) (x1) (x2) :
    (∀ y1, (s.setGroup x1 x2).core y1 = s.core y1) ∧ (∀ y1 y2, (s.setGroup x1 x2).slot y1 y2 = s.slot y1 y2)
      ∧ (∀ y1, (s.setGroup x1 x2).at_ y1 = s.at_ y1) ∧ (∀ y1, (s.setGroup x1 x2).job y1 = s.job y1)
      ∧ (∀ y1, (s.setGroup x1 x2).polder y1 = s.polder y1) ∧ (∀ y1 y2, (s.setGroup x1 x2).dike y1 y2 = s.dike y1 y2)
      ∧ (∀ y1, (s.setGroup x1 x2).obj y1 = s.obj y1) ∧ (∀ y1, (s.setGroup x1 x2).code y1 = s.code y1)
      ∧ (∀ y1, (s.setGroup x1 x2).home y1 = s.home y1) ∧ (∀ y1, (s.setGroup x1 x2).die y1 = s.die y1)
      ∧ (∀ y1, (s.setGroup x1 x2).region y1 = s.region y1) ∧ (∀ y1, (s.setGroup x1 x2).link y1 = s.link y1)
      ∧ (∀ y1, (s.setGroup x1 x2).sluice y1 = s.sluice y1) ∧ (∀ y1, (s.setGroup x1 x2).set y1 = s.set y1)
      ∧ (∀ y1, (s.setGroup x1 x2).bq y1 = s.bq y1) ∧ (∀ y1, (s.setGroup x1 x2).enc y1 = s.enc y1)
      ∧ (∀ y1 y2, (s.setGroup x1 x2).stream y1 y2 = s.stream y1 y2) ∧ (∀ y1, (s.setGroup x1 x2).queue y1 = s.queue y1)
      ∧ (∀ y1 y2, (s.setGroup x1 x2).sem y1 y2 = s.sem y1 y2) ∧ (∀ y1, (s.setGroup x1 x2).serves y1 = s.serves y1)
      ∧ (∀ y1, (s.setGroup x1 x2).fnOpen y1 = s.fnOpen y1) ∧ (∀ y1, (s.setGroup x1 x2).dieUp y1 = s.dieUp y1)
      ∧ (∀ y1, (s.setGroup x1 x2).lanternDown y1 = s.lanternDown y1)
      ∧ (s.setGroup x1 x2).jobManagerUp = s.jobManagerUp
      ∧ (∀ y1 y2, (s.setGroup x1 x2).memBytes y1 y2 = s.memBytes y1 y2)
      ∧ (∀ y1, (s.setGroup x1 x2).whoAt y1 = s.whoAt y1) := by
  and_intros <;> intros <;> rfl
@[simp] theorem setSluice_fields (s : State) (x1) (x2) :
    (s.setSluice x1 x2).variant = s.variant ∧ (s.setSluice x1 x2).time = s.time ∧ (s.setSluice x1 x2).cores = s.cores
      ∧ (s.setSluice x1 x2).mem = s.mem ∧ (s.setSluice x1 x2).ev = s.ev ∧ (s.setSluice x1 x2).hub = s.hub
      ∧ (s.setSluice x1 x2).dies = s.dies ∧ (s.setSluice x1 x2).regions = s.regions
      ∧ (s.setSluice x1 x2).portsDown = s.portsDown ∧ (s.setSluice x1 x2).ddrBytes = s.ddrBytes
      ∧ (s.setSluice x1 x2).objs = s.objs ∧ (s.setSluice x1 x2).codes = s.codes ∧ (s.setSluice x1 x2).sems = s.sems
      ∧ (s.setSluice x1 x2).jobs = s.jobs ∧ (s.setSluice x1 x2).jobOrder = s.jobOrder
      ∧ (s.setSluice x1 x2).polders = s.polders ∧ (s.setSluice x1 x2).nextHandle = s.nextHandle
      ∧ (s.setSluice x1 x2).sets = s.sets ∧ (s.setSluice x1 x2).nextWalk = s.nextWalk
      ∧ (s.setSluice x1 x2).levee = s.levee ∧ (s.setSluice x1 x2).host = s.host ∧ (s.setSluice x1 x2).dep = s.dep
      ∧ (s.setSluice x1 x2).power = s.power ∧ (s.setSluice x1 x2).boot = s.boot ∧ (s.setSluice x1 x2).sec = s.sec
      ∧ (s.setSluice x1 x2).rc = s.rc ∧ (s.setSluice x1 x2).media = s.media
      ∧ (s.setSluice x1 x2).refusals = s.refusals ∧ (s.setSluice x1 x2).pending = s.pending
      ∧ (s.setSluice x1 x2).freeCtr = s.freeCtr := by
  and_intros <;> rfl
@[simp] theorem setSluice_reads (s : State) (x1) (x2) :
    (∀ y1, (s.setSluice x1 x2).core y1 = s.core y1) ∧ (∀ y1 y2, (s.setSluice x1 x2).slot y1 y2 = s.slot y1 y2)
      ∧ (∀ y1, (s.setSluice x1 x2).at_ y1 = s.at_ y1) ∧ (∀ y1, (s.setSluice x1 x2).job y1 = s.job y1)
      ∧ (∀ y1, (s.setSluice x1 x2).polder y1 = s.polder y1) ∧ (∀ y1 y2, (s.setSluice x1 x2).dike y1 y2 = s.dike y1 y2)
      ∧ (∀ y1, (s.setSluice x1 x2).obj y1 = s.obj y1) ∧ (∀ y1, (s.setSluice x1 x2).code y1 = s.code y1)
      ∧ (∀ y1, (s.setSluice x1 x2).home y1 = s.home y1) ∧ (∀ y1, (s.setSluice x1 x2).die y1 = s.die y1)
      ∧ (∀ y1, (s.setSluice x1 x2).region y1 = s.region y1) ∧ (∀ y1, (s.setSluice x1 x2).link y1 = s.link y1)
      ∧ (∀ y1, (s.setSluice x1 x2).set y1 = s.set y1) ∧ (∀ y1, (s.setSluice x1 x2).bq y1 = s.bq y1)
      ∧ (∀ y1, (s.setSluice x1 x2).enc y1 = s.enc y1) ∧ (∀ y1 y2, (s.setSluice x1 x2).stream y1 y2 = s.stream y1 y2)
      ∧ (∀ y1, (s.setSluice x1 x2).queue y1 = s.queue y1) ∧ (∀ y1, (s.setSluice x1 x2).group y1 = s.group y1)
      ∧ (∀ y1 y2, (s.setSluice x1 x2).sem y1 y2 = s.sem y1 y2) ∧ (∀ y1, (s.setSluice x1 x2).serves y1 = s.serves y1)
      ∧ (∀ y1, (s.setSluice x1 x2).fnOpen y1 = s.fnOpen y1) ∧ (∀ y1, (s.setSluice x1 x2).dieUp y1 = s.dieUp y1)
      ∧ (∀ y1, (s.setSluice x1 x2).lanternDown y1 = s.lanternDown y1)
      ∧ (s.setSluice x1 x2).jobManagerUp = s.jobManagerUp
      ∧ (∀ y1 y2, (s.setSluice x1 x2).memBytes y1 y2 = s.memBytes y1 y2)
      ∧ (∀ y1, (s.setSluice x1 x2).whoAt y1 = s.whoAt y1) := by
  and_intros <;> intros <;> rfl
@[simp] theorem setSet_fields (s : State) (x1) (x2) :
    (s.setSet x1 x2).variant = s.variant ∧ (s.setSet x1 x2).time = s.time ∧ (s.setSet x1 x2).cores = s.cores
      ∧ (s.setSet x1 x2).mem = s.mem ∧ (s.setSet x1 x2).ev = s.ev ∧ (s.setSet x1 x2).hub = s.hub
      ∧ (s.setSet x1 x2).dies = s.dies ∧ (s.setSet x1 x2).regions = s.regions
      ∧ (s.setSet x1 x2).portsDown = s.portsDown ∧ (s.setSet x1 x2).ddrBytes = s.ddrBytes
      ∧ (s.setSet x1 x2).objs = s.objs ∧ (s.setSet x1 x2).codes = s.codes ∧ (s.setSet x1 x2).sems = s.sems
      ∧ (s.setSet x1 x2).jobs = s.jobs ∧ (s.setSet x1 x2).jobOrder = s.jobOrder ∧ (s.setSet x1 x2).polders = s.polders
      ∧ (s.setSet x1 x2).sluices = s.sluices ∧ (s.setSet x1 x2).nextHandle = s.nextHandle
      ∧ (s.setSet x1 x2).nextWalk = s.nextWalk ∧ (s.setSet x1 x2).levee = s.levee ∧ (s.setSet x1 x2).host = s.host
      ∧ (s.setSet x1 x2).dep = s.dep ∧ (s.setSet x1 x2).power = s.power ∧ (s.setSet x1 x2).boot = s.boot
      ∧ (s.setSet x1 x2).sec = s.sec ∧ (s.setSet x1 x2).rc = s.rc ∧ (s.setSet x1 x2).media = s.media
      ∧ (s.setSet x1 x2).refusals = s.refusals ∧ (s.setSet x1 x2).pending = s.pending
      ∧ (s.setSet x1 x2).freeCtr = s.freeCtr := by
  and_intros <;> rfl
@[simp] theorem setSet_reads (s : State) (x1) (x2) :
    (∀ y1, (s.setSet x1 x2).core y1 = s.core y1) ∧ (∀ y1 y2, (s.setSet x1 x2).slot y1 y2 = s.slot y1 y2)
      ∧ (∀ y1, (s.setSet x1 x2).at_ y1 = s.at_ y1) ∧ (∀ y1, (s.setSet x1 x2).job y1 = s.job y1)
      ∧ (∀ y1, (s.setSet x1 x2).polder y1 = s.polder y1) ∧ (∀ y1 y2, (s.setSet x1 x2).dike y1 y2 = s.dike y1 y2)
      ∧ (∀ y1, (s.setSet x1 x2).obj y1 = s.obj y1) ∧ (∀ y1, (s.setSet x1 x2).code y1 = s.code y1)
      ∧ (∀ y1, (s.setSet x1 x2).home y1 = s.home y1) ∧ (∀ y1, (s.setSet x1 x2).die y1 = s.die y1)
      ∧ (∀ y1, (s.setSet x1 x2).region y1 = s.region y1) ∧ (∀ y1, (s.setSet x1 x2).link y1 = s.link y1)
      ∧ (∀ y1, (s.setSet x1 x2).sluice y1 = s.sluice y1) ∧ (∀ y1, (s.setSet x1 x2).bq y1 = s.bq y1)
      ∧ (∀ y1, (s.setSet x1 x2).enc y1 = s.enc y1) ∧ (∀ y1 y2, (s.setSet x1 x2).stream y1 y2 = s.stream y1 y2)
      ∧ (∀ y1, (s.setSet x1 x2).queue y1 = s.queue y1) ∧ (∀ y1, (s.setSet x1 x2).group y1 = s.group y1)
      ∧ (∀ y1 y2, (s.setSet x1 x2).sem y1 y2 = s.sem y1 y2) ∧ (∀ y1, (s.setSet x1 x2).serves y1 = s.serves y1)
      ∧ (∀ y1, (s.setSet x1 x2).fnOpen y1 = s.fnOpen y1) ∧ (∀ y1, (s.setSet x1 x2).dieUp y1 = s.dieUp y1)
      ∧ (∀ y1, (s.setSet x1 x2).lanternDown y1 = s.lanternDown y1) ∧ (s.setSet x1 x2).jobManagerUp = s.jobManagerUp
      ∧ (∀ y1 y2, (s.setSet x1 x2).memBytes y1 y2 = s.memBytes y1 y2) ∧ (∀ y1, (s.setSet x1 x2).whoAt y1 = s.whoAt y1) := by
  and_intros <;> intros <;> rfl
@[simp] theorem setSem_fields (s : State) (x1) (x2) (x3) :
    (s.setSem x1 x2 x3).variant = s.variant ∧ (s.setSem x1 x2 x3).time = s.time ∧ (s.setSem x1 x2 x3).cores = s.cores
      ∧ (s.setSem x1 x2 x3).mem = s.mem ∧ (s.setSem x1 x2 x3).ev = s.ev ∧ (s.setSem x1 x2 x3).hub = s.hub
      ∧ (s.setSem x1 x2 x3).dies = s.dies ∧ (s.setSem x1 x2 x3).regions = s.regions
      ∧ (s.setSem x1 x2 x3).portsDown = s.portsDown ∧ (s.setSem x1 x2 x3).ddrBytes = s.ddrBytes
      ∧ (s.setSem x1 x2 x3).objs = s.objs ∧ (s.setSem x1 x2 x3).codes = s.codes ∧ (s.setSem x1 x2 x3).jobs = s.jobs
      ∧ (s.setSem x1 x2 x3).jobOrder = s.jobOrder ∧ (s.setSem x1 x2 x3).polders = s.polders
      ∧ (s.setSem x1 x2 x3).sluices = s.sluices ∧ (s.setSem x1 x2 x3).nextHandle = s.nextHandle
      ∧ (s.setSem x1 x2 x3).sets = s.sets ∧ (s.setSem x1 x2 x3).nextWalk = s.nextWalk
      ∧ (s.setSem x1 x2 x3).levee = s.levee ∧ (s.setSem x1 x2 x3).host = s.host ∧ (s.setSem x1 x2 x3).dep = s.dep
      ∧ (s.setSem x1 x2 x3).power = s.power ∧ (s.setSem x1 x2 x3).boot = s.boot ∧ (s.setSem x1 x2 x3).sec = s.sec
      ∧ (s.setSem x1 x2 x3).rc = s.rc ∧ (s.setSem x1 x2 x3).media = s.media
      ∧ (s.setSem x1 x2 x3).refusals = s.refusals ∧ (s.setSem x1 x2 x3).pending = s.pending
      ∧ (s.setSem x1 x2 x3).freeCtr = s.freeCtr := by
  and_intros <;> rfl
@[simp] theorem setSem_reads (s : State) (x1) (x2) (x3) :
    (∀ y1, (s.setSem x1 x2 x3).core y1 = s.core y1) ∧ (∀ y1 y2, (s.setSem x1 x2 x3).slot y1 y2 = s.slot y1 y2)
      ∧ (∀ y1, (s.setSem x1 x2 x3).at_ y1 = s.at_ y1) ∧ (∀ y1, (s.setSem x1 x2 x3).job y1 = s.job y1)
      ∧ (∀ y1, (s.setSem x1 x2 x3).polder y1 = s.polder y1) ∧ (∀ y1 y2, (s.setSem x1 x2 x3).dike y1 y2 = s.dike y1 y2)
      ∧ (∀ y1, (s.setSem x1 x2 x3).obj y1 = s.obj y1) ∧ (∀ y1, (s.setSem x1 x2 x3).code y1 = s.code y1)
      ∧ (∀ y1, (s.setSem x1 x2 x3).home y1 = s.home y1) ∧ (∀ y1, (s.setSem x1 x2 x3).die y1 = s.die y1)
      ∧ (∀ y1, (s.setSem x1 x2 x3).region y1 = s.region y1) ∧ (∀ y1, (s.setSem x1 x2 x3).link y1 = s.link y1)
      ∧ (∀ y1, (s.setSem x1 x2 x3).sluice y1 = s.sluice y1) ∧ (∀ y1, (s.setSem x1 x2 x3).set y1 = s.set y1)
      ∧ (∀ y1, (s.setSem x1 x2 x3).bq y1 = s.bq y1) ∧ (∀ y1, (s.setSem x1 x2 x3).enc y1 = s.enc y1)
      ∧ (∀ y1 y2, (s.setSem x1 x2 x3).stream y1 y2 = s.stream y1 y2)
      ∧ (∀ y1, (s.setSem x1 x2 x3).queue y1 = s.queue y1) ∧ (∀ y1, (s.setSem x1 x2 x3).group y1 = s.group y1)
      ∧ (∀ y1, (s.setSem x1 x2 x3).serves y1 = s.serves y1) ∧ (∀ y1, (s.setSem x1 x2 x3).fnOpen y1 = s.fnOpen y1)
      ∧ (∀ y1, (s.setSem x1 x2 x3).dieUp y1 = s.dieUp y1)
      ∧ (∀ y1, (s.setSem x1 x2 x3).lanternDown y1 = s.lanternDown y1)
      ∧ (s.setSem x1 x2 x3).jobManagerUp = s.jobManagerUp
      ∧ (∀ y1 y2, (s.setSem x1 x2 x3).memBytes y1 y2 = s.memBytes y1 y2)
      ∧ (∀ y1, (s.setSem x1 x2 x3).whoAt y1 = s.whoAt y1) := by
  and_intros <;> intros <;> rfl
@[simp] theorem setRunning_fields (s : State) (x1) (x2) :
    (s.setRunning x1 x2).variant = s.variant ∧ (s.setRunning x1 x2).time = s.time
      ∧ (s.setRunning x1 x2).cores = s.cores ∧ (s.setRunning x1 x2).mem = s.mem ∧ (s.setRunning x1 x2).ev = s.ev
      ∧ (s.setRunning x1 x2).hub = s.hub ∧ (s.setRunning x1 x2).dies = s.dies
      ∧ (s.setRunning x1 x2).regions = s.regions ∧ (s.setRunning x1 x2).portsDown = s.portsDown
      ∧ (s.setRunning x1 x2).ddrBytes = s.ddrBytes ∧ (s.setRunning x1 x2).objs = s.objs
      ∧ (s.setRunning x1 x2).codes = s.codes ∧ (s.setRunning x1 x2).sems = s.sems ∧ (s.setRunning x1 x2).jobs = s.jobs
      ∧ (s.setRunning x1 x2).jobOrder = s.jobOrder ∧ (s.setRunning x1 x2).polders = s.polders
      ∧ (s.setRunning x1 x2).sluices = s.sluices ∧ (s.setRunning x1 x2).nextHandle = s.nextHandle
      ∧ (s.setRunning x1 x2).sets = s.sets ∧ (s.setRunning x1 x2).nextWalk = s.nextWalk
      ∧ (s.setRunning x1 x2).levee = s.levee ∧ (s.setRunning x1 x2).host = s.host ∧ (s.setRunning x1 x2).dep = s.dep
      ∧ (s.setRunning x1 x2).power = s.power ∧ (s.setRunning x1 x2).boot = s.boot ∧ (s.setRunning x1 x2).rc = s.rc
      ∧ (s.setRunning x1 x2).media = s.media ∧ (s.setRunning x1 x2).refusals = s.refusals
      ∧ (s.setRunning x1 x2).pending = s.pending ∧ (s.setRunning x1 x2).freeCtr = s.freeCtr := by
  and_intros <;> rfl
@[simp] theorem setRunning_reads (s : State) (x1) (x2) :
    (∀ y1, (s.setRunning x1 x2).core y1 = s.core y1) ∧ (∀ y1 y2, (s.setRunning x1 x2).slot y1 y2 = s.slot y1 y2)
      ∧ (∀ y1, (s.setRunning x1 x2).at_ y1 = s.at_ y1) ∧ (∀ y1, (s.setRunning x1 x2).job y1 = s.job y1)
      ∧ (∀ y1, (s.setRunning x1 x2).polder y1 = s.polder y1)
      ∧ (∀ y1 y2, (s.setRunning x1 x2).dike y1 y2 = s.dike y1 y2) ∧ (∀ y1, (s.setRunning x1 x2).obj y1 = s.obj y1)
      ∧ (∀ y1, (s.setRunning x1 x2).code y1 = s.code y1) ∧ (∀ y1, (s.setRunning x1 x2).home y1 = s.home y1)
      ∧ (∀ y1, (s.setRunning x1 x2).die y1 = s.die y1) ∧ (∀ y1, (s.setRunning x1 x2).region y1 = s.region y1)
      ∧ (∀ y1, (s.setRunning x1 x2).link y1 = s.link y1) ∧ (∀ y1, (s.setRunning x1 x2).sluice y1 = s.sluice y1)
      ∧ (∀ y1, (s.setRunning x1 x2).set y1 = s.set y1) ∧ (∀ y1, (s.setRunning x1 x2).bq y1 = s.bq y1)
      ∧ (∀ y1, (s.setRunning x1 x2).enc y1 = s.enc y1) ∧ (∀ y1 y2, (s.setRunning x1 x2).stream y1 y2 = s.stream y1 y2)
      ∧ (∀ y1, (s.setRunning x1 x2).queue y1 = s.queue y1) ∧ (∀ y1, (s.setRunning x1 x2).group y1 = s.group y1)
      ∧ (∀ y1 y2, (s.setRunning x1 x2).sem y1 y2 = s.sem y1 y2) ∧ (∀ y1, (s.setRunning x1 x2).serves y1 = s.serves y1)
      ∧ (∀ y1, (s.setRunning x1 x2).fnOpen y1 = s.fnOpen y1) ∧ (∀ y1, (s.setRunning x1 x2).dieUp y1 = s.dieUp y1)
      ∧ (∀ y1, (s.setRunning x1 x2).lanternDown y1 = s.lanternDown y1)
      ∧ (s.setRunning x1 x2).jobManagerUp = s.jobManagerUp
      ∧ (∀ y1 y2, (s.setRunning x1 x2).memBytes y1 y2 = s.memBytes y1 y2)
      ∧ (∀ y1, (s.setRunning x1 x2).whoAt y1 = s.whoAt y1) := by
  and_intros <;> intros <;> rfl
@[simp] theorem advance_fields (s : State) (x1) (x2) :
    (s.advance x1 x2).variant = s.variant ∧ (s.advance x1 x2).time = s.time ∧ (s.advance x1 x2).mem = s.mem
      ∧ (s.advance x1 x2).ev = s.ev ∧ (s.advance x1 x2).hub = s.hub ∧ (s.advance x1 x2).dies = s.dies
      ∧ (s.advance x1 x2).regions = s.regions ∧ (s.advance x1 x2).portsDown = s.portsDown
      ∧ (s.advance x1 x2).ddrBytes = s.ddrBytes ∧ (s.advance x1 x2).objs = s.objs ∧ (s.advance x1 x2).codes = s.codes
      ∧ (s.advance x1 x2).sems = s.sems ∧ (s.advance x1 x2).jobs = s.jobs ∧ (s.advance x1 x2).jobOrder = s.jobOrder
      ∧ (s.advance x1 x2).polders = s.polders ∧ (s.advance x1 x2).sluices = s.sluices
      ∧ (s.advance x1 x2).nextHandle = s.nextHandle ∧ (s.advance x1 x2).sets = s.sets
      ∧ (s.advance x1 x2).nextWalk = s.nextWalk ∧ (s.advance x1 x2).levee = s.levee ∧ (s.advance x1 x2).host = s.host
      ∧ (s.advance x1 x2).dep = s.dep ∧ (s.advance x1 x2).power = s.power ∧ (s.advance x1 x2).boot = s.boot
      ∧ (s.advance x1 x2).sec = s.sec ∧ (s.advance x1 x2).rc = s.rc ∧ (s.advance x1 x2).media = s.media
      ∧ (s.advance x1 x2).refusals = s.refusals ∧ (s.advance x1 x2).pending = s.pending
      ∧ (s.advance x1 x2).freeCtr = s.freeCtr := by
  and_intros <;> rfl
@[simp] theorem advance_reads (s : State) (x1) (x2) :
    (∀ y1, (s.advance x1 x2).job y1 = s.job y1) ∧ (∀ y1, (s.advance x1 x2).polder y1 = s.polder y1)
      ∧ (∀ y1 y2, (s.advance x1 x2).dike y1 y2 = s.dike y1 y2) ∧ (∀ y1, (s.advance x1 x2).obj y1 = s.obj y1)
      ∧ (∀ y1, (s.advance x1 x2).code y1 = s.code y1) ∧ (∀ y1, (s.advance x1 x2).home y1 = s.home y1)
      ∧ (∀ y1, (s.advance x1 x2).die y1 = s.die y1) ∧ (∀ y1, (s.advance x1 x2).region y1 = s.region y1)
      ∧ (∀ y1, (s.advance x1 x2).link y1 = s.link y1) ∧ (∀ y1, (s.advance x1 x2).sluice y1 = s.sluice y1)
      ∧ (∀ y1, (s.advance x1 x2).set y1 = s.set y1) ∧ (∀ y1, (s.advance x1 x2).bq y1 = s.bq y1)
      ∧ (∀ y1, (s.advance x1 x2).enc y1 = s.enc y1) ∧ (∀ y1 y2, (s.advance x1 x2).stream y1 y2 = s.stream y1 y2)
      ∧ (∀ y1, (s.advance x1 x2).queue y1 = s.queue y1) ∧ (∀ y1, (s.advance x1 x2).group y1 = s.group y1)
      ∧ (∀ y1 y2, (s.advance x1 x2).sem y1 y2 = s.sem y1 y2) ∧ (∀ y1, (s.advance x1 x2).serves y1 = s.serves y1)
      ∧ (∀ y1, (s.advance x1 x2).fnOpen y1 = s.fnOpen y1) ∧ (∀ y1, (s.advance x1 x2).dieUp y1 = s.dieUp y1)
      ∧ (∀ y1, (s.advance x1 x2).lanternDown y1 = s.lanternDown y1) ∧ (s.advance x1 x2).jobManagerUp = s.jobManagerUp
      ∧ (∀ y1 y2, (s.advance x1 x2).memBytes y1 y2 = s.memBytes y1 y2) := by
  and_intros <;> intros <;> rfl
@[simp] theorem hold_fields (s : State) (x1) (x2) :
    (s.hold x1 x2).variant = s.variant ∧ (s.hold x1 x2).time = s.time ∧ (s.hold x1 x2).mem = s.mem
      ∧ (s.hold x1 x2).ev = s.ev ∧ (s.hold x1 x2).hub = s.hub ∧ (s.hold x1 x2).dies = s.dies
      ∧ (s.hold x1 x2).regions = s.regions ∧ (s.hold x1 x2).portsDown = s.portsDown
      ∧ (s.hold x1 x2).ddrBytes = s.ddrBytes ∧ (s.hold x1 x2).objs = s.objs ∧ (s.hold x1 x2).codes = s.codes
      ∧ (s.hold x1 x2).sems = s.sems ∧ (s.hold x1 x2).jobs = s.jobs ∧ (s.hold x1 x2).jobOrder = s.jobOrder
      ∧ (s.hold x1 x2).polders = s.polders ∧ (s.hold x1 x2).sluices = s.sluices
      ∧ (s.hold x1 x2).nextHandle = s.nextHandle ∧ (s.hold x1 x2).sets = s.sets ∧ (s.hold x1 x2).nextWalk = s.nextWalk
      ∧ (s.hold x1 x2).levee = s.levee ∧ (s.hold x1 x2).host = s.host ∧ (s.hold x1 x2).dep = s.dep
      ∧ (s.hold x1 x2).power = s.power ∧ (s.hold x1 x2).boot = s.boot ∧ (s.hold x1 x2).sec = s.sec
      ∧ (s.hold x1 x2).rc = s.rc ∧ (s.hold x1 x2).media = s.media ∧ (s.hold x1 x2).refusals = s.refusals
      ∧ (s.hold x1 x2).pending = s.pending ∧ (s.hold x1 x2).freeCtr = s.freeCtr := by
  and_intros <;> rfl
@[simp] theorem hold_reads (s : State) (x1) (x2) :
    (∀ y1, (s.hold x1 x2).job y1 = s.job y1) ∧ (∀ y1, (s.hold x1 x2).polder y1 = s.polder y1)
      ∧ (∀ y1 y2, (s.hold x1 x2).dike y1 y2 = s.dike y1 y2) ∧ (∀ y1, (s.hold x1 x2).obj y1 = s.obj y1)
      ∧ (∀ y1, (s.hold x1 x2).code y1 = s.code y1) ∧ (∀ y1, (s.hold x1 x2).home y1 = s.home y1)
      ∧ (∀ y1, (s.hold x1 x2).die y1 = s.die y1) ∧ (∀ y1, (s.hold x1 x2).region y1 = s.region y1)
      ∧ (∀ y1, (s.hold x1 x2).link y1 = s.link y1) ∧ (∀ y1, (s.hold x1 x2).sluice y1 = s.sluice y1)
      ∧ (∀ y1, (s.hold x1 x2).set y1 = s.set y1) ∧ (∀ y1, (s.hold x1 x2).bq y1 = s.bq y1)
      ∧ (∀ y1, (s.hold x1 x2).enc y1 = s.enc y1) ∧ (∀ y1 y2, (s.hold x1 x2).stream y1 y2 = s.stream y1 y2)
      ∧ (∀ y1, (s.hold x1 x2).queue y1 = s.queue y1) ∧ (∀ y1, (s.hold x1 x2).group y1 = s.group y1)
      ∧ (∀ y1 y2, (s.hold x1 x2).sem y1 y2 = s.sem y1 y2) ∧ (∀ y1, (s.hold x1 x2).serves y1 = s.serves y1)
      ∧ (∀ y1, (s.hold x1 x2).fnOpen y1 = s.fnOpen y1) ∧ (∀ y1, (s.hold x1 x2).dieUp y1 = s.dieUp y1)
      ∧ (∀ y1, (s.hold x1 x2).lanternDown y1 = s.lanternDown y1) ∧ (s.hold x1 x2).jobManagerUp = s.jobManagerUp
      ∧ (∀ y1 y2, (s.hold x1 x2).memBytes y1 y2 = s.memBytes y1 y2) := by
  and_intros <;> intros <;> rfl
@[simp] theorem stopSlot_fields (s : State) (x1) :
    (s.stopSlot x1).variant = s.variant ∧ (s.stopSlot x1).time = s.time ∧ (s.stopSlot x1).mem = s.mem
      ∧ (s.stopSlot x1).ev = s.ev ∧ (s.stopSlot x1).hub = s.hub ∧ (s.stopSlot x1).dies = s.dies
      ∧ (s.stopSlot x1).regions = s.regions ∧ (s.stopSlot x1).portsDown = s.portsDown
      ∧ (s.stopSlot x1).ddrBytes = s.ddrBytes ∧ (s.stopSlot x1).objs = s.objs ∧ (s.stopSlot x1).codes = s.codes
      ∧ (s.stopSlot x1).sems = s.sems ∧ (s.stopSlot x1).jobs = s.jobs ∧ (s.stopSlot x1).jobOrder = s.jobOrder
      ∧ (s.stopSlot x1).polders = s.polders ∧ (s.stopSlot x1).sluices = s.sluices
      ∧ (s.stopSlot x1).nextHandle = s.nextHandle ∧ (s.stopSlot x1).sets = s.sets
      ∧ (s.stopSlot x1).nextWalk = s.nextWalk ∧ (s.stopSlot x1).levee = s.levee ∧ (s.stopSlot x1).host = s.host
      ∧ (s.stopSlot x1).dep = s.dep ∧ (s.stopSlot x1).power = s.power ∧ (s.stopSlot x1).boot = s.boot
      ∧ (s.stopSlot x1).sec = s.sec ∧ (s.stopSlot x1).rc = s.rc ∧ (s.stopSlot x1).media = s.media
      ∧ (s.stopSlot x1).refusals = s.refusals ∧ (s.stopSlot x1).pending = s.pending
      ∧ (s.stopSlot x1).freeCtr = s.freeCtr := by
  and_intros <;> rfl
@[simp] theorem stopSlot_reads (s : State) (x1) :
    (∀ y1, (s.stopSlot x1).job y1 = s.job y1) ∧ (∀ y1, (s.stopSlot x1).polder y1 = s.polder y1)
      ∧ (∀ y1 y2, (s.stopSlot x1).dike y1 y2 = s.dike y1 y2) ∧ (∀ y1, (s.stopSlot x1).obj y1 = s.obj y1)
      ∧ (∀ y1, (s.stopSlot x1).code y1 = s.code y1) ∧ (∀ y1, (s.stopSlot x1).home y1 = s.home y1)
      ∧ (∀ y1, (s.stopSlot x1).die y1 = s.die y1) ∧ (∀ y1, (s.stopSlot x1).region y1 = s.region y1)
      ∧ (∀ y1, (s.stopSlot x1).link y1 = s.link y1) ∧ (∀ y1, (s.stopSlot x1).sluice y1 = s.sluice y1)
      ∧ (∀ y1, (s.stopSlot x1).set y1 = s.set y1) ∧ (∀ y1, (s.stopSlot x1).bq y1 = s.bq y1)
      ∧ (∀ y1, (s.stopSlot x1).enc y1 = s.enc y1) ∧ (∀ y1 y2, (s.stopSlot x1).stream y1 y2 = s.stream y1 y2)
      ∧ (∀ y1, (s.stopSlot x1).queue y1 = s.queue y1) ∧ (∀ y1, (s.stopSlot x1).group y1 = s.group y1)
      ∧ (∀ y1 y2, (s.stopSlot x1).sem y1 y2 = s.sem y1 y2) ∧ (∀ y1, (s.stopSlot x1).serves y1 = s.serves y1)
      ∧ (∀ y1, (s.stopSlot x1).fnOpen y1 = s.fnOpen y1) ∧ (∀ y1, (s.stopSlot x1).dieUp y1 = s.dieUp y1)
      ∧ (∀ y1, (s.stopSlot x1).lanternDown y1 = s.lanternDown y1) ∧ (s.stopSlot x1).jobManagerUp = s.jobManagerUp
      ∧ (∀ y1 y2, (s.stopSlot x1).memBytes y1 y2 = s.memBytes y1 y2) := by
  and_intros <;> intros <;> rfl
@[simp] theorem bump_fields (s : State) (x1) (x2) (x3) :
    (s.bump x1 x2 x3).variant = s.variant ∧ (s.bump x1 x2 x3).time = s.time ∧ (s.bump x1 x2 x3).cores = s.cores
      ∧ (s.bump x1 x2 x3).mem = s.mem ∧ (s.bump x1 x2 x3).ev = s.ev ∧ (s.bump x1 x2 x3).hub = s.hub
      ∧ (s.bump x1 x2 x3).dies = s.dies ∧ (s.bump x1 x2 x3).regions = s.regions
      ∧ (s.bump x1 x2 x3).portsDown = s.portsDown ∧ (s.bump x1 x2 x3).ddrBytes = s.ddrBytes
      ∧ (s.bump x1 x2 x3).objs = s.objs ∧ (s.bump x1 x2 x3).codes = s.codes ∧ (s.bump x1 x2 x3).sems = s.sems
      ∧ (s.bump x1 x2 x3).jobs = s.jobs ∧ (s.bump x1 x2 x3).jobOrder = s.jobOrder
      ∧ (s.bump x1 x2 x3).polders = s.polders ∧ (s.bump x1 x2 x3).sluices = s.sluices
      ∧ (s.bump x1 x2 x3).nextHandle = s.nextHandle ∧ (s.bump x1 x2 x3).sets = s.sets
      ∧ (s.bump x1 x2 x3).nextWalk = s.nextWalk ∧ (s.bump x1 x2 x3).levee = s.levee ∧ (s.bump x1 x2 x3).host = s.host
      ∧ (s.bump x1 x2 x3).dep = s.dep ∧ (s.bump x1 x2 x3).power = s.power ∧ (s.bump x1 x2 x3).boot = s.boot
      ∧ (s.bump x1 x2 x3).sec = s.sec ∧ (s.bump x1 x2 x3).media = s.media ∧ (s.bump x1 x2 x3).refusals = s.refusals
      ∧ (s.bump x1 x2 x3).pending = s.pending ∧ (s.bump x1 x2 x3).freeCtr = s.freeCtr := by
  and_intros <;> rfl
@[simp] theorem bump_reads (s : State) (x1) (x2) (x3) :
    (∀ y1, (s.bump x1 x2 x3).core y1 = s.core y1) ∧ (∀ y1 y2, (s.bump x1 x2 x3).slot y1 y2 = s.slot y1 y2)
      ∧ (∀ y1, (s.bump x1 x2 x3).at_ y1 = s.at_ y1) ∧ (∀ y1, (s.bump x1 x2 x3).job y1 = s.job y1)
      ∧ (∀ y1, (s.bump x1 x2 x3).polder y1 = s.polder y1) ∧ (∀ y1 y2, (s.bump x1 x2 x3).dike y1 y2 = s.dike y1 y2)
      ∧ (∀ y1, (s.bump x1 x2 x3).obj y1 = s.obj y1) ∧ (∀ y1, (s.bump x1 x2 x3).code y1 = s.code y1)
      ∧ (∀ y1, (s.bump x1 x2 x3).home y1 = s.home y1) ∧ (∀ y1, (s.bump x1 x2 x3).die y1 = s.die y1)
      ∧ (∀ y1, (s.bump x1 x2 x3).region y1 = s.region y1) ∧ (∀ y1, (s.bump x1 x2 x3).link y1 = s.link y1)
      ∧ (∀ y1, (s.bump x1 x2 x3).sluice y1 = s.sluice y1) ∧ (∀ y1, (s.bump x1 x2 x3).set y1 = s.set y1)
      ∧ (∀ y1, (s.bump x1 x2 x3).bq y1 = s.bq y1) ∧ (∀ y1, (s.bump x1 x2 x3).enc y1 = s.enc y1)
      ∧ (∀ y1 y2, (s.bump x1 x2 x3).stream y1 y2 = s.stream y1 y2) ∧ (∀ y1, (s.bump x1 x2 x3).queue y1 = s.queue y1)
      ∧ (∀ y1, (s.bump x1 x2 x3).group y1 = s.group y1) ∧ (∀ y1 y2, (s.bump x1 x2 x3).sem y1 y2 = s.sem y1 y2)
      ∧ (∀ y1, (s.bump x1 x2 x3).serves y1 = s.serves y1) ∧ (∀ y1, (s.bump x1 x2 x3).fnOpen y1 = s.fnOpen y1)
      ∧ (∀ y1, (s.bump x1 x2 x3).dieUp y1 = s.dieUp y1) ∧ (∀ y1, (s.bump x1 x2 x3).lanternDown y1 = s.lanternDown y1)
      ∧ (s.bump x1 x2 x3).jobManagerUp = s.jobManagerUp
      ∧ (∀ y1 y2, (s.bump x1 x2 x3).memBytes y1 y2 = s.memBytes y1 y2)
      ∧ (∀ y1, (s.bump x1 x2 x3).whoAt y1 = s.whoAt y1) := by
  and_intros <;> intros <;> rfl

/-! ### Reads of what was written -/

theorem core_setCore (s : State) (c : Nat) (v : Core) (d : Nat) : (s.setCore c v).core d = if d = c then v else s.core d :=
  mapGet_mapSet _ _ _ _
theorem slot_setSlot (s : State) (c k : Nat) (v : Slot) (d j : Nat) :
    (s.setSlot c k v).slot d j = if d = c ∧ j = k then v else s.slot d j := by
  simp only [State.slot, State.setSlot, core_setCore]
  by_cases h : d = c
  · subst h; simp [Core.slot, Core.setSlot, mapGet_mapSet]
  · simp [h]
@[simp] theorem slot_setCore_ne (s : State) {c d : Nat} (v : Core) (k : Nat) (h : d ≠ c) :
    (s.setCore c v).slot d k = s.slot d k := by simp only [State.slot, core_setCore, if_neg h]
@[simp] theorem at_setAt (s : State) (a : At) (v : Slot) : (s.setAt a v).at_ a = v := by
  simp [State.at_, State.setAt, slot_setSlot]
theorem slot_setAt (s : State) (a : At) (v : Slot) (c k : Nat) :
    (s.setAt a v).slot c k = if c = a.core ∧ k = a.slot then v else s.slot c k := slot_setSlot s _ _ v c k
/-- What a write of a slot leaves of its core. -/
@[simp] theorem core_setAt (s : State) (a : At) (v : Slot) :
    ((s.setAt a v).core a.core).buf = (s.core a.core).buf ∧ ((s.setAt a v).core a.core).acc = (s.core a.core).acc
      ∧ ((s.setAt a v).core a.core).bufValid = (s.core a.core).bufValid
      ∧ ((s.setAt a v).core a.core).accValid = (s.core a.core).accValid
      ∧ ((s.setAt a v).core a.core).health = (s.core a.core).health
      ∧ ((s.setAt a v).core a.core).icache = (s.core a.core).icache
      ∧ ((s.setAt a v).core a.core).tables = (s.core a.core).tables
      ∧ ((s.setAt a v).core a.core).claims = (s.core a.core).claims := by
  simp [State.setAt, State.setSlot, core_setCore, Core.setSlot]
@[simp] theorem at_advance (s : State) (a : At) (n : Nat) : (s.advance a n).at_ a = { s.at_ a with
    pc := (s.at_ a).pc + n, held := none,
    act := { (s.at_ a).act with issued := satAdd 64 (s.at_ a).act.issued 1 } } := by simp [State.advance]
theorem job_setJob (s : State) (i : Nat) (v : Job) (j : Nat) : (s.setJob i v).job j = if j = i then v else s.job j :=
  mapGet_mapSet _ _ _ _
theorem polder_setPolder (s : State) (i : Nat) (v : Polder) (j : Nat) :
    (s.setPolder i v).polder j = if j = i then v else s.polder j := mapGet_mapSet _ _ _ _
theorem dike_setDike (s : State) (p i : Nat) (v : Dike) (j : Nat) :
    (s.setDike p i v).dike p j = if j = i then v else s.dike p j := by
  simp [State.dike, State.setDike, polder_setPolder, mapGet_mapSet]
theorem obj_setObj (s : State) (i : Nat) (v : Obj) (j : Nat) : (s.setObj i v).obj j = if j = i then v else s.obj j :=
  mapGet_mapSet _ _ _ _
theorem home_setHome (s : State) (i : Nat) (v : Home) (j : Nat) : (s.setHome i v).home j = if j = i then v else s.home j :=
  mapGet_mapSet _ _ _ _
theorem queue_setQueue (s : State) (i : Nat) (v : Queue) (j : Nat) :
    (s.setQueue i v).queue j = if j = i then v else s.queue j := mapGet_mapSet _ _ _ _
theorem bq_setBq (s : State) (i : Nat) (v : BatchQ) (j : Nat) : (s.setBq i v).bq j = if j = i then v else s.bq j :=
  mapGet_mapSet _ _ _ _
theorem enc_setEnc (s : State) (i : Nat) (v : EncStream) (j : Nat) : (s.setEnc i v).enc j = if j = i then v else s.enc j :=
  mapGet_mapSet _ _ _ _
theorem die_setDie (s : State) (i : Nat) (v : DieSt) (j : Nat) : (s.setDie i v).die j = if j = i then v else s.die j :=
  mapGet_mapSet _ _ _ _
theorem region_setRegion (s : State) (i : Nat) (v : Region) (j : Nat) :
    (s.setRegion i v).region j = if j = i then v else s.region j := mapGet_mapSet _ _ _ _
theorem link_setLink (s : State) (i : Nat) (v : Link) (j : Nat) : (s.setLink i v).link j = if j = i then v else s.link j :=
  mapGet_mapSet _ _ _ _
theorem group_setGroup (s : State) (i : Nat) (v : CollGroup) (j : Nat) :
    (s.setGroup i v).group j = if j = i then v else s.group j := mapGet_mapSet _ _ _ _
theorem sluice_setSluice (s : State) (i : Nat) (v : Sluice) (j : Nat) :
    (s.setSluice i v).sluice j = if j = i then v else s.sluice j := mapGet_mapSet _ _ _ _
theorem set_setSet (s : State) (i : Nat) (v : CacheSet) (j : Nat) : (s.setSet i v).set j = if j = i then v else s.set j :=
  mapGet_mapSet _ _ _ _

/-! ### Registers of a slot -/

@[simp] theorem Slot.rs_zero (sl : Slot) : sl.rs 0 = 0 := rfl
theorem Slot.rs_ws (sl : Slot) (r q : BitVec 5) (v : Word) : (sl.ws r v).rs q = if q = r ∧ r ≠ 0 then v else sl.rs q := by
  by_cases hr : r = 0
  · simp [Slot.ws, hr]
  · by_cases hq : q = 0
    · subst hq
      rw [if_neg (fun h => h.2 h.1.symm)]; rfl
    · simp only [Slot.rs, Slot.ws, hr, hq, if_false, mapGet_mapSet, BitVec.toNat_eq.symm, ne_eq, not_false_eq_true, and_true]
@[simp] theorem Slot.ws_other (sl : Slot) (r : BitVec 5) (v : Word) :
    (sl.ws r v).d = sl.d ∧ (sl.ws r v).a = sl.a ∧ (sl.ws r v).v = sl.v ∧ (sl.ws r v).p = sl.p ∧ (sl.ws r v).pc = sl.pc
      ∧ (sl.ws r v).id = sl.id ∧ (sl.ws r v).wait = sl.wait ∧ (sl.ws r v).faulted = sl.faulted ∧ (sl.ws r v).code = sl.code
      ∧ (sl.ws r v).allot = sl.allot := by
  unfold Slot.ws; split <;> simp
theorem Slot.rd_wd (sl : Slot) (r q : Nat) (v : Word) : (sl.wd r v).rd q = if q % 16 = r % 16 then v else sl.rd q := by
  simp [Slot.rd, Slot.wd, mapGet_mapSet]
theorem Slot.ra_wa (sl : Slot) (r q : Nat) (v : Word) : (sl.wa r v).ra q = if q % 16 = r % 16 then v else sl.ra q := by
  simp [Slot.ra, Slot.wa, mapGet_mapSet]
theorem Slot.rp_wp (sl : Slot) (r q : Nat) (v : PredBits) : (sl.wp r v).rp q = if q % 8 = r % 8 then v else sl.rp q := by
  simp [Slot.rp, Slot.wp, mapGet_mapSet]

end Sys2Proof.Machine
end

