-- ==== Sys2Proof/WellFormed.lean ====
section
/-!
DEFINITION. The commands that name things the part has: cores, slots, dies, links, lanterns, queues, functions and
contexts within their numbers (R1, R11, R12, R39, R374, R394, R480, R492), and register accesses of the widths of R498. A
step runs any command; one that is not well formed names nothing, and changes nothing where its rule has no place for it.
-/
namespace Sys2Proof

/-- A core and a context slot (R39). -/
def At.wf (a : At) : Bool := decide (a.core < 192) && decide (a.slot < 4)

/-- A code object, an entry of it, a stage and a task (R42, R140, R374). -/
def TaskStart.wf (t : TaskStart) : Bool :=
  decide (t.code < 65536) && decide (t.entry < 24) && decide (t.stage < 256) && decide (t.task < 4096)

/-- The far end's width is one of the four codes of R410. -/
def LinkObs.wf (o : LinkObs) : Bool := decide (o.farWidth < 4)

/-- The part that an SRAM error strikes exists (R435). -/
def SramPlace.wf : SramPlace → Bool
  | .slotStore c k => decide (c < 192) && decide (k < 4)
  | .clearBlock c => decide (c < 192)
  | .icache c code _ => decide (c < 192) && decide (code < 65536)
  | .homeCache d => decide (d < 8)
  | .pageQueue c k => decide (c < 192) && decide (k < 4)
  | .sharedClean d => decide (d < 8)
  | .sharedDirty d name => decide (d < 8) && decide (name < 2 ^ 52)
  | .sfuBank c => decide (c < 192)
  | .replayCauseway p => decide (p < 32)
  | .replayLevee j => decide (j < 64)
  | .lantern n => decide (n < 38)
  | .warden => true

/-- The place of a memory error lies among the device names (R18). -/
def MemPlace.wf : MemPlace → Bool
  | .word name => decide (name < 2 ^ 52)
  | .homeEntry x => decide (x < 2 ^ 31)

/-- The unit of a test exists (R448). -/
def TestUnit.wf : TestUnit → Bool
  | .link n => decide (n < 64)
  | .codec k e => decide (k < 4) && decide (e < 2)
  | .sluice k n => decide (k < 2) && decide (n < 4)
  | .collective k e => decide (k < 4) && decide (e < 4)
  | .sfuTables c => decide (c < 192)

/-- A port of R531. -/
def Port.wf : Port → Bool
  | .pf0 => true
  | .vf k => decide (1 ≤ k) && decide (k < 16)
  | .mgmt => true
  | .levee j => decide (j < 64)
  | .jtag => true

/-- Stacks and DDR channels (R1, R287). -/
def TrainResult.wf (r : TrainResult) : Bool :=
  r.badStacks.all (fun n => decide (n < 16)) && r.badChannels.all (fun j => decide (j < 8))

/-- The widths of a register access, in bytes (R498). -/
def widthOk (w : Nat) : Bool := decide (w = 1) || decide (w = 2) || decide (w = 4) || decide (w = 8)

/-- A command names things that the part has. -/
def Instr.wf : Instr → Bool
  | .add at_ _ _ => at_.wf
  | .sub at_ _ _ => at_.wf
  | .and at_ _ _ => at_.wf
  | .or at_ _ _ => at_.wf
  | .xor at_ _ _ => at_.wf
  | .sll at_ _ _ => at_.wf
  | .srl at_ _ _ => at_.wf
  | .sra at_ _ _ => at_.wf
  | .slt at_ _ _ => at_.wf
  | .sltu at_ _ _ => at_.wf
  | .min at_ _ _ => at_.wf
  | .max at_ _ _ => at_.wf
  | .mul at_ _ _ => at_.wf
  | .mulh at_ _ _ => at_.wf
  | .mulhu at_ _ _ => at_.wf
  | .div at_ _ _ => at_.wf
  | .divu at_ _ _ => at_.wf
  | .rem at_ _ _ => at_.wf
  | .remu at_ _ _ => at_.wf
  | .movi at_ _ => at_.wf
  | .movhi at_ _ => at_.wf
  | .movSd at_ _ => at_.wf
  | .movDs at_ _ => at_.wf
  | .movSa at_ _ => at_.wf
  | .movAs at_ _ => at_.wf
  | .movVs at_ _ => at_.wf
  | .movSv at_ _ => at_.wf
  | .movPs at_ _ => at_.wf
  | .movSp at_ _ => at_.wf
  | .info at_ _ _ => at_.wf
  | .scalarLoad at_ _ _ => at_.wf
  | .scalarStore at_ _ _ => at_.wf
  | .amoadd at_ _ => at_.wf
  | .amoswap at_ _ => at_.wf
  | .amocas at_ _ => at_.wf
  | .amomax at_ _ => at_.wf
  | .amomin at_ _ => at_.wf
  | .beq at_ _ => at_.wf
  | .bne at_ _ => at_.wf
  | .blt at_ _ => at_.wf
  | .bge at_ _ => at_.wf
  | .bltu at_ _ => at_.wf
  | .bgeu at_ _ => at_.wf
  | .jal at_ _ => at_.wf
  | .jalr at_ _ => at_.wf
  | .illegalOpcode at_ _ => at_.wf
  | .fadd at_ _ => at_.wf
  | .fsub at_ _ => at_.wf
  | .fmul at_ _ => at_.wf
  | .fma at_ _ => at_.wf
  | .fms at_ _ => at_.wf
  | .fnma at_ _ => at_.wf
  | .fmin at_ _ => at_.wf
  | .fmax at_ _ => at_.wf
  | .fabs at_ _ => at_.wf
  | .fneg at_ _ => at_.wf
  | .fcvtW at_ _ => at_.wf
  | .fcvtS at_ _ => at_.wf
  | .bpack at_ _ => at_.wf
  | .bunpkL at_ _ => at_.wf
  | .bunpkH at_ _ => at_.wf
  | .cmpEq at_ _ => at_.wf
  | .cmpNe at_ _ => at_.wf
  | .cmpLt at_ _ => at_.wf
  | .cmpLe at_ _ => at_.wf
  | .cmpUnord at_ _ => at_.wf
  | .cmpLtu at_ _ => at_.wf
  | .iadd at_ _ => at_.wf
  | .isub at_ _ => at_.wf
  | .imul at_ _ => at_.wf
  | .iand at_ _ => at_.wf
  | .ior at_ _ => at_.wf
  | .ixor at_ _ => at_.wf
  | .ishl at_ _ => at_.wf
  | .ishr at_ _ => at_.wf
  | .isar at_ _ => at_.wf
  | .imin at_ _ => at_.wf
  | .imax at_ _ => at_.wf
  | .iminu at_ _ => at_.wf
  | .imaxu at_ _ => at_.wf
  | .vbcast at_ _ => at_.wf
  | .vsel at_ _ => at_.wf
  | .viota at_ _ => at_.wf
  | .vmov at_ _ => at_.wf
  | .vld at_ _ => at_.wf
  | .vldW at_ _ => at_.wf
  | .vst at_ _ => at_.wf
  | .vstN at_ _ => at_.wf
  | .vperm at_ _ => at_.wf
  | .vrot at_ _ => at_.wf
  | .vzip at_ _ => at_.wf
  | .vunzip at_ _ => at_.wf
  | .vtrans32 at_ _ => at_.wf
  | .vgather at_ _ => at_.wf
  | .vscatter at_ _ => at_.wf
  | .pand at_ _ => at_.wf
  | .por at_ _ => at_.wf
  | .pxor at_ _ => at_.wf
  | .pandn at_ _ => at_.wf
  | .pnot at_ _ => at_.wf
  | .pset at_ _ => at_.wf
  | .pclr at_ _ => at_.wf
  | .pfirst at_ _ => at_.wf
  | .pcount at_ _ => at_.wf
  | .pany at_ _ => at_.wf
  | .rsum at_ _ => at_.wf
  | .rmax at_ _ => at_.wf
  | .rmin at_ _ => at_.wf
  | .rsumsq at_ _ => at_.wf
  | .irsum at_ _ => at_.wf
  | .argmax at_ _ => at_.wf
  | .argmin at_ _ => at_.wf
  | .dmaLd at_ _ => at_.wf
  | .dmaSt at_ _ => at_.wf
  | .dmaBb at_ _ => at_.wf
  | .cvt at_ _ => at_.wf
  | .mcopy at_ _ => at_.wf
  | .mfill at_ _ => at_.wf
  | .fence at_ _ => at_.wf
  | .semPost at_ _ => at_.wf
  | .semWait at_ _ => at_.wf
  | .semWaitge at_ _ => at_.wf
  | .semSet at_ _ => at_.wf
  | .semRead at_ _ => at_.wf
  | .semWaitTimeout at_ => at_.wf
  | .barSync at_ _ => at_.wf
  | .waitEng at_ _ => at_.wf
  | .nop at_ _ => at_.wf
  | .trap at_ _ => at_.wf
  | .cntRead at_ _ => at_.wf
  | .time at_ _ => at_.wf
  | .endTask at_ _ => at_.wf
  | .stest at_ _ => at_.wf
  | .tmm at_ _ _ => at_.wf
  | .tensorTileRun core _ => decide (core < 192)
  | .taccZero at_ _ _ => at_.wf
  | .taccSt at_ _ _ => at_.wf
  | .taccLd at_ _ _ => at_.wf
  | .taccVrd at_ _ _ => at_.wf
  | .taccVwr at_ _ _ => at_.wf
  | .exp at_ _ => at_.wf
  | .exp2 at_ _ => at_.wf
  | .log at_ _ => at_.wf
  | .log2 at_ _ => at_.wf
  | .rcp at_ _ => at_.wf
  | .rsqrt at_ _ => at_.wf
  | .sqrt at_ _ => at_.wf
  | .sin at_ _ => at_.wf
  | .cos at_ _ => at_.wf
  | .tanh at_ _ => at_.wf
  | .sigmoid at_ _ => at_.wf
  | .erf at_ _ => at_.wf
  | .gelu at_ _ => at_.wf
  | .geluT at_ _ => at_.wf
  | .silu at_ _ => at_.wf
  | .softplus at_ _ => at_.wf
  | .dgelu at_ _ => at_.wf
  | .dgeluT at_ _ => at_.wf
  | .dsoftplus at_ _ => at_.wf
  | .dsilu at_ _ => at_.wf
  | .gate at_ _ => at_.wf
  | .normFwd at_ _ => at_.wf
  | .smaxFwd at_ _ => at_.wf
  | .normBwd at_ _ => at_.wf
  | .smaxBwd at_ _ => at_.wf
  | .rowCommandRow at_ => at_.wf
  | .conv at_ _ _ => at_.wf
  | .maxpool at_ _ _ => at_.wf
  | .avgpool at_ _ _ => at_.wf
  | .dwconv at_ _ _ => at_.wf
  | .convPass at_ => at_.wf
  | .penumbraTimeout at_ => at_.wf
  | .attnFwd at_ _ _ => at_.wf
  | .attnBwdKv at_ _ _ => at_.wf
  | .attnBwdQ at_ _ _ => at_.wf
  | .attnMerge at_ _ _ => at_.wf
  | .attnStep at_ => at_.wf
  | .pageWrite at_ _ _ => at_.wf
  | .pageShare at_ _ _ => at_.wf
  | .pageDrop at_ _ _ => at_.wf
  | .pageSeal at_ _ _ => at_.wf
  | .frameFreeAfterWalk set _ => decide (set < 256)
  | .pageWalk at_ => at_.wf
  | .pageFetchDeadline at_ => at_.wf
  | .pageWaitLimit at_ => at_.wf
  | .tierUp at_ _ => at_.wf
  | .tierDown at_ _ => at_.wf
  | .tierWhere at_ _ => at_.wf
  | .collAllreduce at_ _ => at_.wf
  | .collRedscat at_ _ => at_.wf
  | .collAllgather at_ _ => at_.wf
  | .collAlltoall at_ _ => at_.wf
  | .collBcast at_ _ => at_.wf
  | .collComplete ctx group _ => decide (ctx < 4096) && decide (group < 1024)
  | .collJoinTimeout ctx group => decide (ctx < 4096) && decide (group < 1024)
  | .collAbortIn ctx group => decide (ctx < 4096) && decide (group < 1024)
  | .engineDispatch core _ => decide (core < 192)
  | .claimGrant core => decide (core < 192)
  | .icacheFill at_ => at_.wf
  | .completionPost at_ => at_.wf
  | .coreCtxIdWrite core slot _ start => decide (core < 192) && decide (slot < 4) && start.wf
  | .coreCtxAllotWrite core slot _ => decide (core < 192) && decide (slot < 4)
  | .registerWrite fn offset width _ => decide (fn < 16) && decide (offset < 2 ^ 25) && widthOk width
  | .rcRegisterRead fn offset width => decide (fn < 16) && decide (offset < 2 ^ 25) && widthOk width
  | .hubTimeLoRead fn width => decide (fn < 16) && widthOk width
  | .hubStackSplitWrite _ => true
  | .hubPkgIdWrite _ => true
  | .hubVfPolderWrite _ _ => true
  | .coreFenceCmd _ => true
  | .coreUnfenceCmd _ => true
  | .polderCtrlWrite _ _ => true
  | .polderSaltWrite _ _ _ => true
  | .dikeRegisterWrite _ _ _ _ => true
  | .dikeWindow _ _ => true
  | .linkEnableWrite link _ => decide (link < 64)
  | .linkRecalReq link => decide (link < 64)
  | .linkRecalDrained link => decide (link < 64)
  | .linkRetrainReq link => decide (link < 64)
  | .queueOwnerWrite q _ => decide (q < 4096)
  | .queueEnable fn q _ => decide (fn < 16) && decide (q < 4096)
  | .queueDisable fn q => decide (fn < 16) && decide (q < 4096)
  | .dbSqTail fn q _ => decide (fn < 16) && decide (q < 4096)
  | .dbCqHead fn q _ => decide (fn < 16) && decide (q < 4096)
  | .msixCoalesceTimer q => decide (q < 4096)
  | .eventSelectWrite _ => true
  | .eventCtrlWrite _ => true
  | .eventData7Read width => widthOk width
  | .pwrHostLimitWrite _ => true
  | .submit q => decide (q < 4096)
  | .suspend q => decide (q < 4096)
  | .suspendComplete kind ctx _ => decide (1 ≤ kind) && decide (kind ≤ 6) && decide (ctx < 4096)
  | .resume q => decide (q < 4096)
  | .cancel q => decide (q < 4096)
  | .progress q => decide (q < 4096)
  | .release q => decide (q < 4096)
  | .codeLoad q => decide (q < 4096)
  | .codeUnload q => decide (q < 4096)
  | .objCreate q => decide (q < 4096)
  | .objDestroy q => decide (q < 4096)
  | .move q => decide (q < 4096)
  | .biasSet q => decide (q < 4096)
  | .hostPoolAdd q => decide (q < 4096)
  | .cachesetCreate q => decide (q < 4096)
  | .cachesetDestroy q => decide (q < 4096)
  | .batchqCreate q => decide (q < 4096)
  | .batchqDestroy q => decide (q < 4096)
  | .encOpen q => decide (q < 4096)
  | .encClose q => decide (q < 4096)
  | .routeLoad q => decide (q < 4096)
  | .exportLoad q => decide (q < 4096)
  | .groupCreate q => decide (q < 4096)
  | .groupDestroy q => decide (q < 4096)
  | .selftest q => decide (q < 4096)
  | .tableReload q => decide (q < 4096)
  | .entryBad q => decide (q < 4096)
  | .sfuTableBankWrite region => decide (region < 16)
  | .sfuTableFlip core => decide (core < 192)
  | .taskPlace => true
  | .stripedStagePlace ctx stage => decide (ctx < 4096) && decide (stage < 256)
  | .stripedStageReserve ctx stage => decide (ctx < 4096) && decide (stage < 256)
  | .jobComplete ctx => decide (ctx < 4096)
  | .jobTeardown ctx => decide (ctx < 4096)
  | .taskMove at_ _ => at_.wf
  | .corePowerOff core => decide (core < 192)
  | .codecPowerOff media eng => decide (media < 4) && decide (eng < 2)
  | .refreshBegin ctx => decide (ctx < 4096)
  | .refreshBeginDurable ctx => decide (ctx < 4096)
  | .refreshStageFlip ctx stage => decide (ctx < 4096) && decide (stage < 256)
  | .refreshCommitDurable ctx => decide (ctx < 4096)
  | .refreshTimerExpiry ctx => decide (ctx < 4096)
  | .sluiceMark _ => true
  | .sluiceDrained _ => true
  | .sluiceCopyDone _ => true
  | .sluiceSourceFree _ => true
  | .sluiceCopy _ => true
  | .afterglowImageSwitch extent => decide (extent < 2 ^ 31)
  | .hotChannelWindow group _ _ _ => decide (group < 256)
  | .sampleRequestTake _ => true
  | .decodeStart _ _ => true
  | .codecFrame media eng => decide (media < 4) && decide (eng < 2)
  | .sampleComplete _ _ => true
  | .sampleDeadlineExpiry _ _ => true
  | .batchAssemble _ => true
  | .encFrameTake _ => true
  | .encodeFrame _ eng => decide (eng < 2)
  | .encodeCloseComplete _ => true
  | .hostMemRead _ fn _ _ => decide (fn < 16)
  | .hostMemWrite _ fn _ _ => decide (fn < 16)
  | .hdmDecoderCommit dec _ _ _ => decide (dec < 2)
  | .cxlLinkRetrain width _ => decide (width ≤ 16)
  | .hostAccessTimeout at_ => at_.wf
  | .vfFlr vf => decide (vf < 16)
  | .pfFlr => true
  | .perstAssert => true
  | .remoteAccessIn link _ _ => decide (link < 64)
  | .packetForward _ _ _ hops => decide (hops < 16)
  | .remoteRequestTimeout req => decide (req < 4096)
  | .flitCrcFail link => decide (link < 64)
  | .flitNakReceived link _ => decide (link < 64)
  | .linkTrain link obs => decide (link < 64) && obs.wf
  | .linkTrainAttemptTimeout link => decide (link < 64)
  | .linkIdentComplete link _ _ _ => decide (link < 64)
  | .laneLockLost link lane => decide (link < 64) && decide (lane < 4)
  | .fecRateWindow link _ _ => decide (link < 64)
  | .linkLossTimeout link => decide (link < 64)
  | .cablePresenceChange link _ => decide (link < 64)
  | .causewayCrcFail port _ => decide (port < 32)
  | .sramEccError place _ => place.wf
  | .memEccError place _ => place.wf
  | .patrolScrub => true
  | .fenceWindowExpiry core => decide (core < 192)
  | .coreTest core _ => decide (core < 192)
  | .unitTest unit _ => unit.wf
  | .lanternWatchdogExpiry lantern => decide (lantern < 40)
  | .lanternRestartDone lantern => decide (lantern < 40)
  | .hubHeartbeatTimeout => true
  | .pairOutputMismatch => true
  | .wardenPairRestartDone => true
  | .regionFirmwareSwitch region => decide (region < 16)
  | .dieFirmwareSwitch die => decide (die < 20)
  | .hubUpdateRestart => true
  | .firmwareRevert lantern => decide (lantern < 40)
  | .eventPost => true
  | .powerLoopTick _ => true
  | .overcurrentTrip _ => true
  | .thermalTermUpdate die _ _ => decide (die < 20)
  | .flowLowSustained => true
  | .thermalHoldExpiry die _ => decide (die < 20)
  | .sensorSample _ _ => true
  | .inputReversed _ => true
  | .inputUndervolt _ => true
  | .mainPowerLost _ => true
  | .inputOvervolt _ => true
  | .inputOvervoltTrip _ => true
  | .inputRecovered _ => true
  | .standbyLost => true
  | .dimmSupplyFault socket _ => decide (socket < 8)
  | .mgmtBusRecovered _ => true
  | .pllUnlock domain die region => decide (domain < 9) && decide (die < 20) && decide (region < 16)
  | .mgmtPowerLimit _ => true
  | .coreReset core => decide (core < 192)
  | .regionReset region => decide (region < 16)
  | .dieReset die => decide (die < 20)
  | .dieResetTimeout die => decide (die < 20)
  | .warmReset => true
  | .coldReset => true
  | .wardenStart => true
  | .railSequence => true
  | .slotVerify => true
  | .cxlReady _ width _ => decide (width ≤ 16)
  | .memoryTrain res => res.wf
  | .startupSelftest badCores badDies => badCores.all (fun c => decide (c < 192)) && badDies.all (fun d => decide (d < 20))
  | .startupLinkTrain => true
  | .jobManagerOpen => true
  | .getCerts port => port.wf
  | .attest port _ => port.wf
  | .spdmRequest port _ => port.wf
  | .slotStatus port => port.wf
  | .portStats port => port.wf
  | .slotWrite port _ _ _ => port.wf
  | .activate port _ _ _ => port.wf
  | .svnCommit port => port.wf
  | .debugChallenge port => port.wf
  | .debugUnlock port _ => port.wf
  | .debugUnlockExpiry => true
  | .jtagAccess die _ _ _ => decide (die < 20)
  | .decommission port _ => port.wf
  | .dikeTokenAccrual _ _ _ => true
  | .perstDeassert => true
  | .pmPowerStateWrite fn _ => decide (fn < 16)
  | .vfEnableSet => true
  | .cxlCacheSnoop _ _ => true
  | .dieBackInService die => decide (die < 20)
  | .regionBackInService region => decide (region < 16)

end Sys2Proof
end

