-- ==== Sys2Proof/Tests/Slice0.lean ====
section
/-!
SUPPORT. Tests: ill-formed commands, single steps with results worked out from the manual, and witnesses, which show for each
statement with hypotheses, clause by clause, a state and operands that meet them.
-/
namespace Sys2Proof.Tests
set_option Elab.async false
open Sys2Proof.Machine Host

/-! ### Small states -/

/-- A context slot that is resident and runs context 1, with a whole core as its allotment. -/
def run1 : Slot :=
  { id := { resident := true, state := 1, ctx := 1 }
    allot := { valid := true, bufCount := 48, accCount := 32 } }

/-- The same in the compatibility profile. -/
def runC : Slot := { run1 with id := { resident := true, state := 1, ctx := 1, profile := true } }

/-- The machine after reset with one slot, and two extents of memory that have homes in the stacks; the first is
resident. -/
def withSlot (sl : Slot) : State :=
  { State.reset with
    cores := [(0, { slots := [(0, sl)] })]
    hub := { running := true, phase := 7, jobOpen := true }
    mem := { home := [(0, { state := 2 }), (1, { state := 2, slice := 32 })] } }

def at0 : At := { core := 0, slot := 0 }

/-- Fields with dst, src1, src2, src3 and an immediate. -/
def fl (dst src1 src2 src3 : Nat) (imm : Nat := 0) : Fields :=
  { dst := BitVec.ofNat 5 dst, src1 := BitVec.ofNat 5 src1, src2 := BitVec.ofNat 5 src2, src3 := BitVec.ofNat 5 src3
    imm := BitVec.ofNat 32 imm }

/-- The format field of the immediate: INT32 lanes, and packed BF16. -/
def int32 : Nat := 0xD0000000
def bf16x2 : Nat := 0x10000000

/-! ### Witnesses: scalar instructions -/

def negMin : Slot := { run1 with s := [(1, 0x8000000000000000), (2, 0xFFFFFFFFFFFFFFFF)] }

theorem witness_StepRunsFront :
    ({ State.reset with pending := [.hubHeartbeatTimeout] } : State).pending = .hubHeartbeatTimeout :: [] ∧ State.reset.pending = [] :=
  ⟨rfl, rfl⟩

theorem witness_DivisionResult :
    ((withSlot runC).Ready at0 8 ∧ (withSlot runC).Legal at0 (aluUse .reg) (fl 3 1 2 0)
      ∧ ((withSlot runC).at_ at0).id.profile = true ∧ aluOperand ((withSlot runC).at_ at0) .reg (fl 3 1 2 0) = 0)
    ∧ ((withSlot run1).Ready at0 8 ∧ (withSlot run1).Legal at0 (aluUse .imm) (fl 3 1 0 0)
      ∧ ((withSlot run1).at_ at0).id.profile = false ∧ aluOperand ((withSlot run1).at_ at0) .imm (fl 3 1 0 0) = 0)
    ∧ ((withSlot negMin).Ready at0 8 ∧ (withSlot negMin).Legal at0 (aluUse .reg) (fl 31 1 2 0)
      ∧ (((withSlot negMin).at_ at0).rs 1).toInt = -2 ^ 63
      ∧ (aluOperand ((withSlot negMin).at_ at0) .reg (fl 31 1 2 0)).toInt = -1
      ∧ aluOperand ((withSlot negMin).at_ at0) .reg (fl 31 1 2 0) ≠ 0) := by decide

theorem witness_ScalarRegisterResult :
    (withSlot negMin).Ready at0 8
    ∧ (∀ k ∈ [(Kind.s, Kind.none_, [], fl 31 0 0 0 0xFFFFFFFF), (.d, .s, [(0, 32)], fl 15 1 0 0), (.s, .d, [(0, 32)], fl 3 15 0 0),
        (.a, .s, [(0, 32)], fl 15 1 0 0), (.s, .a, [(0, 32)], fl 3 15 0 0), (.v, .s, [(10, 22)], fl 31 1 0 0 1023),
        (.s, .v, [(10, 22)], fl 3 31 0 0 1023), (.p, .s, [(4, 28)], fl 7 1 0 0 15), (.s, .p, [(4, 28)], fl 3 7 0 0 15),
        (.s, .none_, [(0, 32)], fl 3 0 0 0)],
      (withSlot negMin).Legal at0 { dst := k.1, src1 := k.2.1, src2 := .none_, src3 := .none_, imm := k.2.2.1 } k.2.2.2)
    ∧ ((withSlot negMin).at_ at0).qVec = [] ∧ (6 : BitVec 6).toNat ≤ 6 := by decide

/-- The last 8 bytes of the allotment, one byte more, and a word of memory. -/
def bufEnd : Slot := { run1 with s := [(1, BitVec.ofNat 64 (48 * 262144 - 8)), (2, BitVec.ofNat 64 (48 * 262144)), (4, 0x1FFFF8)] }

theorem witness_ScalarMemory :
    let s := withSlot bufEnd
    s.Ready at0 8 ∧ s.Legal at0 siUse (fl 3 1 0 0) ∧ s.Legal at0 siUse (fl 3 2 0 0) ∧ s.Legal at0 siUse (fl 3 4 0 0)
    ∧ (s.at_ at0).id.profile = false
    ∧ ((s.at_ at0).rs 1).toNat % 8 = 0 ∧ ((s.at_ at0).rs 1).toNat + 8 ≤ (s.at_ at0).allot.bufLen
    ∧ hazard (s.at_ at0) [{ acc := false, write := true, base := 48 * 262144 - 8, len := 8 }] = false
    ∧ hazard (s.at_ at0) [{ acc := false, write := false, base := 48 * 262144 - 8, len := 8 }] = false
    ∧ ((s.at_ at0).rs 2).toNat % 1 = 0 ∧ ((s.at_ at0).rs 2).toNat + 1 > (s.at_ at0).allot.bufLen
    ∧ s.devStop (s.whoAt at0) false 0x1FFFF8 8 = none ∧ s.devStop (s.whoAt at0) true 0x1FFFF8 8 = none
    ∧ (0x1FFFF8 + 4) % 8 ≠ 0 := by decide

theorem witness_AtomicResult :
    let s := withSlot bufEnd
    s.Ready at0 8 ∧ s.Legal at0 amoUse (fl 3 4 5 0) ∧ s.Legal at0 { amoUse with src3 := .s } (fl 3 4 5 6)
    ∧ ((s.at_ at0).rs 4).toNat % 8 = 0 ∧ s.devStop (s.whoAt at0) true 0x1FFFF8 8 = none
    ∧ s.devStop (s.whoAt at0) false 0x1FFFF8 8 = none
    ∧ (∀ e ∈ blocksOf extentBytes (0x1FFFF8 % 2 ^ 52) 8, (s.home e).state ≠ 3) := by decide

/-- A slot that runs a code object of two instructions, both lines in the instruction cache. -/
def inCode : State :=
  { withSlot negMin with
    cores := [(0, { slots := [(0, { negMin with code := 1 })], icache := [(1, 0)] })]
    codes := [(1, { codeBytes := 16 })]
    jobs := [(1, { live := true })] }

theorem witness_ControlFlow :
    inCode.Ready at0 8 ∧ inCode.Legal at0 branchUse (fl 0 1 2 0 1) ∧ inCode.Legal at0 branchUse (fl 0 1 2 0 2)
    ∧ ((inCode.at_ at0).rs 1 ≠ (inCode.at_ at0).rs 2 ∧ (inCode.at_ at0).rs 1 = (inCode.at_ at0).rs 1)
    ∧ ((BitVec.ofNat 64 0 + 8 * (1 : BitVec 32).signExtend 64).toNat < (inCode.code 1).codeBytes)
    ∧ ((inCode.code 1).codeBytes ≤ (BitVec.ofNat 64 0 + 8 * (2 : BitVec 32).signExtend 64).toNat ∧ (inCode.at_ at0).code ≠ 0)
    ∧ inCode.Legal at0 { dst := .s, src1 := .none_, src2 := .none_, src3 := .none_, imm := [] } (fl 31 0 0 0 1)
    ∧ inCode.Legal at0 { dst := .s, src1 := .s, src2 := .none_, src3 := .none_, imm := [] } (fl 31 5 0 0 1)
    ∧ ((inCode.at_ at0).rs 5 + 8 * (1 : BitVec 32).signExtend 64).toNat % 8 = 0
    ∧ (inCode.at_ at0).id.profile = false ∧ inCode.hub.running = true
    ∧ opcodeAssigned 0x3F 0 = false ∧ opcodeAssigned 0x00 0x0F = false
    ∧ (inCode.at_ at0).id.ctx ≠ 0 ∧ (inCode.job 1).live = true ∧ (inCode.job 1).faulted = false ∧ (inCode.job 1).state < 3 := by
  decide

theorem witness_ScalarFrames :
    (∃ form : AluForm, Instr.add at0 form (fl 3 1 2 0) ∈ [Instr.add at0 form (fl 3 1 2 0)])
    ∧ (∃ t, exec (.add at0 .reg (fl 3 1 2 0)) (withSlot negMin) = .next t)
    ∧ (∃ t, exec (.scalarStore at0 0x13 (fl 3 1 0 0)) (withSlot bufEnd) = .next t)
    ∧ (∃ t, exec (.scalarStore at0 0x03 (fl 3 4 0 0)) (withSlot bufEnd) = .next t)
    ∧ (∃ t, exec (.amocas at0 (fl 3 4 5 6)) (withSlot bufEnd) = .next t)
    ∧ (∃ x, (x < 0x1FFFF8 ∨ 0x1FFFF8 + 8 ≤ x)) :=
  ⟨⟨.reg, List.mem_singleton.mpr rfl⟩, ⟨_, rfl⟩, ⟨_, rfl⟩, ⟨_, rfl⟩, ⟨_, rfl⟩, ⟨0, by decide⟩⟩

/-! ### Witnesses: vector instructions, data movement and synchronisation -/

theorem witness_VectorFloatResult :
    let s := withSlot run1
    s.Ready at0 8 ∧ (s.at_ at0).qVec = [] ∧ at0.upset = .ok
    ∧ (∀ k ∈ [(Kind.v, Kind.none_, fl 31 1 2 0 bf16x2, [0, 1]), (.v, .v, fl 31 1 2 3, [0, 1]), (.none_, .none_, fl 31 1 0 0 bf16x2, [0, 1]),
        (.none_, .none_, fl 31 1 0 0, [0]), (.v, .none_, fl 31 1 2 0, [0])],
      s.Legal at0 (vUse .v .v k.1 k.2.1) k.2.2.1 ∧ k.2.2.1.fmt ∈ k.2.2.2) := by decide

theorem witness_VectorCompareResult :
    let s := withSlot run1
    s.Ready at0 8 ∧ (s.at_ at0).qVec = []
    ∧ (s.Legal at0 (vUse .p .v .v .none_) (fl 7 1 2 0 int32) ∧ (fl 7 1 2 0 int32).fmt = 0xD)
    ∧ (s.Legal at0 (vUse .p .v .v .none_) (fl 7 1 2 0) ∧ (fl 7 1 2 0).fmt = 0) := by decide

theorem witness_VectorIntegerResult :
    let s := withSlot run1
    s.Ready at0 8 ∧ (s.at_ at0).qVec = [] ∧ s.Legal at0 (vUse .v .v .v .none_) (fl 31 1 1 0 int32)
    ∧ (fl 31 1 1 0 int32).fmt = 0xD := by decide

theorem witness_PermuteAndPredicate :
    let s := withSlot run1
    s.Ready at0 8 ∧ (s.at_ at0).qVec = []
    ∧ (∀ k ∈ [(vUse .v .s .none_ .none_, fl 31 1 0 0 int32, [0, 0xD]), (vUse .v .v .v .p, fl 31 1 2 7 int32, [0, 0xD]),
        (vUse .v .none_ .none_ .none_, fl 31 0 0 0 int32, [0xD]), (vUse .v .v .none_ .none_, fl 31 1 0 0, [0, 0xD]),
        (vUse .v .v .v .none_, fl 31 1 2 0 bf16x2, [0, 1, 0xD]), (vUse .v .v .none_ .s, fl 31 1 0 31, [0, 1, 0xD]),
        (vUse .v .v .none_ .none_, fl 31 1 0 0 bf16x2, [0, 1, 0xD])],
      s.Legal at0 k.1 k.2.1 ∧ k.2.1.fmt ∈ k.2.2)
    ∧ (∀ k ∈ [(pUse .p .p .p, fl 7 1 2 0), (pUse .p .p .none_, fl 7 1 0 0), (pUse .p .none_ .none_, fl 7 0 0 0),
        (pUse .p .s .none_, fl 7 31 0 0), (pUse .s .p .none_, fl 31 7 0 0)], s.Legal at0 k.1 k.2) := by decide

/-- Descriptors: 4,096 bytes in FP32 lanes, the same in FP8, 16 bytes of FP32, and a block of 64 bytes of INT32. -/
def descs : Slot :=
  { run1 with d := [(1, 0x0000001000000000), (2, 0x0003000400001000), (3, 0x0000000010002000), (4, 0x0000000010003000)]
              s := [(1, 0x3F800000), (4, 0), (5, 0x200000), (6, 16)] }

theorem witness_VectorMemoryResult :
    let s := withSlot descs
    s.Ready at0 8 ∧ (s.at_ at0).id.profile = false
    ∧ vldStop false false (fl 31 1 0 0) s at0 = none ∧ vldStop true false (fl 31 2 0 1) s at0 = none
    ∧ gatherStop false (fl 31 1 3 0) s at0 = none ∧ vldStop false true (fl 31 1 0 0) s at0 = none
    ∧ vldStop true true (fl 31 2 0 1) s at0 = none ∧ gatherStop true (fl 31 1 3 0) s at0 = none := by decide +kernel

theorem witness_ReductionResult :
    let s := withSlot run1
    s.Ready at0 8 ∧ (s.at_ at0).qVec = [] ∧ at0.upset = .ok
    ∧ (s.Legal at0 reduceUse (fl 31 1 0 0 10) ∧ reduceG (fl 31 1 0 0 10) = 10 ∧ (fl 31 1 0 0 10).fmt = 0)
    ∧ (s.Legal at0 reduceUse (fl 31 1 0 0 int32) ∧ reduceG (fl 31 1 0 0 int32) = 0 ∧ (fl 31 1 0 0 int32).fmt = 0xD)
    ∧ (∀ j < 1, ∃ x ∈ segment (s.at_ at0) (fl 31 1 0 0 10) 10 j, x ≠ none) := by decide +kernel

theorem witness_DataMovement :
    let s := withSlot descs
    s.Ready at0 8 ∧ (s.at_ at0).qDma = [] ∧ (s.at_ at0).id.profile = false
    ∧ dmaBbStop (fl 3 4 0 0) s at0 = none
    ∧ (dmaStop false (fl 3 4 0 0) s at0 = none ∧ shapeRows ((s.at_ at0).rs 0) = 1 ∧ descLen ((s.at_ at0).rd 3) ≠ 0
      ∧ s.devStop (s.whoAt at0) false 0 (descLen ((s.at_ at0).rd 3)) = none)
    ∧ (dmaStop true (fl 3 5 0 0) s at0 = none ∧ s.devStop (s.whoAt at0) true 0x200000 (descLen ((s.at_ at0).rd 3)) = none)
    ∧ (s.Legal at0 (mUse .s .s .s .none_) (fl 5 4 6 0) ∧ s.devStop (s.whoAt at0) false 0 16 = none
      ∧ s.devStop (s.whoAt at0) true 0x200000 16 = none)
    ∧ s.Legal at0 (mUse .s .none_ .s .s) (fl 5 0 6 1)
    ∧ cvtStop (fl 2 1 0 0) s at0 = none := by decide +kernel

/-- A slot at a semaphore of value 5 with a count of 5, and one at its largest value. -/
def semState (value : Nat) : State :=
  { withSlot { run1 with s := [(1, 0xFFFF), (2, 5), (3, 100)] } with
    sems := [(semKey 1 0xFFFF, { value := value })] }

theorem witness_Semaphores :
    (∀ v ∈ [0, 4, 5, 0xFFFFFFFA], (semState v).Ready at0 8 ∧ ((semState v).sem 1 0xFFFF).poison = false
      ∧ ((semState v).sem 1 0xFFFF).value = v ∧ ((semState v).sem 1 0xFFFF).waiters = [] ∧ (semState v).outstanding at0 = false)
    ∧ (semState 5).Legal at0 (semUse .none_ .s .none_) (fl 0 1 2 0) ∧ (semState 5).Legal at0 (semUse .s .none_ .none_) (fl 3 1 0 0)
    ∧ (semState 5).Legal at0 (semUse .s .s .s) (fl 4 1 2 3)
    ∧ (((withSlot { run1 with wait := some (.sem 0xFFFF 5 3 true 1) }).at_ at0).wait = some (.sem 0xFFFF 5 3 true 1)) := by decide

theorem witness_BarrierResult :
    (withSlot run1).Ready at0 8
    ∧ (withSlot run1).Legal at0 { dst := .none_, src1 := .none_, src2 := .none_, src3 := .none_, imm := [(16, 16), (8, 8)] }
      (fl 0 0 0 0 255) := by decide

/-- A job with a stage of one task, which runs in slot 0. -/
def oneTask : Job := { live := true, stages := [{ code := 1, tasks := 1 }], tasks := [(0, { state := 1 })] }

theorem witness_SystemInstructions :
    let s := { withSlot run1 with jobs := [(1, oneTask)] }
    s.Ready at0 8 ∧ s.outstanding at0 = false ∧ s.engBusy at0 63 = false ∧ (s.job (s.at_ at0).id.ctx).live = true
    ∧ s.Legal at0 (xUse .none_ [(0, 32)]) (fl 0 0 0 0) ∧ s.Legal at0 (xUse .none_ [(2, 30)]) (fl 0 0 0 0 2)
    ∧ s.Legal at0 { dst := .none_, src1 := .none_, src2 := .none_, src3 := .none_, imm := [(16, 16), (6, 10)] } (fl 0 0 0 0 63)
    ∧ s.Legal at0 (xUse .s [(8, 24)]) (fl 31 0 0 0 0x18) ∧ counterValue (s.at_ at0) s.freeCtr 0x18 = some 0
    ∧ s.Legal at0 (xUse .s [(0, 32)]) (fl 31 0 0 0) ∧ s.Legal at0 (xUse .none_ [(16, 16)]) (fl 0 0 0 0 0xFFFF)
    ∧ (s.at_ at0).id.ctx ≠ 0
    ∧ ((withSlot { run1 with id := { resident := true, state := 1 } }).at_ at0).id.ctx = 0
    ∧ s.variant ≠ .tbx20d ∧ tierStop false (fl 3 0 1 0) s at0 = none ∧ tierStop true (fl 3 0 0 0) s at0 = none := by decide

/-! ### Witnesses: slots, engines, tensor and row commands -/

/-- Bytes of memory from fields, as address, length and value. -/
def memOf (fs : List (Nat × Nat × Nat)) : List (Nat × Byte) := fs.foldl (fun m f => mapPut 0 m f.1 (toBytes f.2.1 f.2.2)) []

def withMem (s : State) (fs : List (Nat × Nat × Nat)) : State := { s with mem := { s.mem with bytes := memOf fs } }

/-- A state of core 0 around one slot. -/
def coreOf (c : Machine.Core) : State := { withSlot run1 with cores := [(0, c)] }

/-- The slot waits for its line of instructions. -/
def missState : State :=
  { coreOf { slots := [(0, { run1 with code := 1, held := some .icacheMiss })] } with codes := [(1, { codeBytes := 256 })] }

def gateRun : RowRun :=
  { op := .gate, act := 0, dout := 0x0000000040000080, din := 0x0000000040000000, dthird := 0x0000000040000040, fromAcc := false
    params := [], width := 16, rows := 1, qmode := false, scale := 0x3F800000, row := 0, bank := false, gen := 1, ref := false
    counted := {} }

def gateQ (granted : Bool) : Queued :=
  { pc := 0, major := 0x29, flight := .row gateRun, spans := [], claims := [.sfu, .vector], granted := granted, post := none }

def tmmRun : TmmRun :=
  { table := [], handle := 0, dstage := 0, offA := 0, offB := 0, offC := 0, tile := 0, banks := [], heldA := [], heldB := [] }

def tmmQ : Queued := { pc := 0, major := 0x20, flight := .tmm tmmRun, spans := [], claims := [], granted := false, post := none }

theorem witness_SlotsAndEngines :
    ((∃ i rest, ((withSlot { run1 with posts := [7, 8] }).at_ at0).posts = i :: rest)
      ∧ (withSlot { run1 with posts := [7, 8] }).writesHeld 1 = false)
    ∧ ((missState.at_ at0).held = some .icacheMiss ∧ (missState.at_ at0).id.resident = true ∧ (missState.at_ at0).code ≠ 0
      ∧ (missState.core 0).icache.contains (1, 0) = false
      ∧ missState.devStop (missState.whoAt at0) false ((missState.code 1).addr + 256 + 0) 256 = none)
    ∧ (coreOf { slots := [(3, { run1 with qTa := [tmmQ] })], last := [(engNum .tensor, 2)] }).turn 0 .tensor (fun _ => true) = some 3
    ∧ (let s := coreOf { slots := [(0, { run1 with qSfu := [gateQ false] })], claims := [engNum .sfu] }
      s.firstClaim 0 [] (s.core 0).claims = some (engNum .sfu) ∧ (s.slot 0 (engNum .sfu / 8)).queueOf (engOf (engNum .sfu % 8)) = [gateQ false]) :=
  ⟨⟨⟨7, [8], by decide⟩, by decide⟩, by decide, by decide, by decide⟩

/-- A table of one tile of 1 × 1 × 1 in BF16, both operands in the operand buffer, at address 0x100. -/
def tmmState : State :=
  withMem (withSlot { run1 with s := [(1, 0x100)], a := [(0, BitVec.ofNat 64 (2 ^ 19 + 2 ^ 28))] })
    [(0x100, 2, 0x1111), (0x104, 4, 0x00010301), (0x108, 8, 0x0000000100000001), (0x118, 8, 0x1000), (0x128, 8, 0x0000000100000001)
    , (0x134, 8, 0x3F8000003F800000), (0x140, 4, 1), (0x150, 4, 0x100)]

theorem witness_TmmIssueAndTile :
    (tmmState.Ready at0 16 ∧ tmmStop (fl 0 1 0 0) 0xFC00000000000000 tmmState at0 = none
      ∧ queueStop (tmmState.at_ at0) .tensor
        (tmmSpans (tmmState.tableAt at0 (fl 0 1 0 0)) ((tmmState.at_ at0).ra 0) ((tmmState.at_ at0).rd 0)) = none)
    ∧ (let s := coreOf { slots := [(3, { run1 with qTa := [tmmQ] })] }
      s.turn 0 .tensor isTmm = some 3 ∧ (s.slot 0 3).qTa = tmmQ :: [] ∧ tmmQ.flight = .tmm tmmRun) := by decide +kernel

/-- A tile of 33 × 32 entries, one more row than a chunk holds, and a descriptor of 8,192 bytes. -/
def accState : State :=
  withSlot { run1 with a := [(1, BitVec.ofNat 64 (33 * 2 ^ 19 + 32 * 2 ^ 28))], d := [(1, 0x0000002000000000)] }

def word2 : Word := 0xFC00000000000000

theorem witness_AccumulatorResult :
    accState.Ready at0 16 ∧ (accState.at_ at0).id.profile = false
    ∧ (accState.Legal at0 { dst := .a, src1 := .none_, src2 := .none_, src3 := .none_, imm := [(0, 32)] } (fl 1 0 0 0)
      ∧ badWord2 false word2 [(0, 58)] = none ∧ badHandle (accState.at_ at0) 0 47 1 = none
      ∧ mustWait (accState.at_ at0) (some .tensor) [handleSpan ((accState.at_ at0).ra 1)] = none)
    ∧ chunkStop (fl 31 1 0 0 1) word2 accState at0 = none
    ∧ (let f := fl 1 0 1 0 0x40000000
      taccStop false (taccFmt f) [0, 1, 2] f word2 accState at0 = none ∧ taccToBuf f = true ∧ taccFmt f ≠ 15
        ∧ accState.rowsStop at0 true (taccFmt f) ((accState.at_ at0).rs f.src1).toNat 0
          (taccPitch (taccFmt f) ((accState.at_ at0).rs f.src3).toNat 32) 33 32 = none)
    ∧ (let f := fl 1 0 1 0 0x40C00000
      taccStop true (taccFmt f) allFmts f 0xFC00000000000000 (withSlot { accState.at_ at0 with s := [] }) at0 = none
        ∧ taccToBuf f = true ∧ taccFmt f = 12) := by decide +kernel

theorem witness_SpecialFunctionResult :
    let s := withSlot run1
    s.Ready at0 8 ∧ at0.upset = .ok ∧ sfuStop .exp false (fl 31 1 0 0 (bf16x2 + 1)) s at0 = none
    ∧ sfuStop .rcp false (fl 31 1 0 0 4) s at0 = none ∧ sfuStop .dsilu true (fl 31 1 2 3 8) s at0 = none
    ∧ sfuStop .dgelu true (fl 31 1 0 0) s at0 = none := by decide +kernel

/-- Rows of 16 FP32 values: descriptors of 64 bytes each, and blocks of NORM.FWD, NORM.BWD, SMAX.BWD and SMAX.FWD. -/
def rowState : State :=
  withMem
    (withSlot { run1 with d := [(1, 0x0000000040000000), (2, 0x0000000040000040), (3, 0x0000000040000080)]
                          s := [(1, 0x40), (2, 0x80), (3, 0xC0), (4, 0x100), (5, 1), (7, 0x100000010)] })
    [(0x40, 8, 0x100000010), (0x80, 8, 0x100000010), (0x8C, 4, 1), (0xA4, 4, 0x100), (0xC0, 8, 0x100000010), (0x100, 4, 16)]

theorem witness_RowCommands :
    rowState.Ready at0 8
    ∧ (rowState.Legal at0 gateUse (fl 3 1 2 7 0x18000000) ∧ descReserved (rowState.at_ at0) (gateCmd (rowState.at_ at0) (fl 3 1 2 7 0x18000000)).descs = none
      ∧ (gateCmd (rowState.at_ at0) (fl 3 1 2 7 0x18000000)).stop (rowState.at_ at0) = none
      ∧ (gateCmd (rowState.at_ at0) (fl 3 1 2 7 0x18000000)).rows ≠ 0)
    ∧ (∀ k ∈ [(fwdUse, fl 3 1 1 5, 0x40, fwdCmd .norm (fl 3 1 1 5) (rowState.at_ at0) (rowState.paramBlock 0x40)),
        (fwdUse, fl 3 1 4 5, 0x100, fwdCmd .smax (fl 3 1 4 5) (rowState.at_ at0) (rowState.paramBlock 0x100)),
        (bwdUse false, fl 3 1 2 2, 0x80, bwdCmd .normBwd (fl 3 1 2 2) (rowState.at_ at0) (rowState.paramBlock 0x80)),
        (bwdUse false, fl 3 1 2 3, 0xC0, bwdCmd .smaxBwd (fl 3 1 2 3) (rowState.at_ at0) (rowState.paramBlock 0xC0))],
      rowState.Legal at0 k.1 k.2.1 ∧ rowState.blockAddr at0 k.2.2.1 = none ∧ descReserved (rowState.at_ at0) k.2.2.2.descs = none
        ∧ blockReserved k.2.2.2.op k.2.2.2.fromAcc (rowState.paramBlock k.2.2.1) = none ∧ k.2.2.2.stop (rowState.at_ at0) = none)
    ∧ (coreOf { slots := [(0, { run1 with qSfu := [gateQ true] })] }).rowHead at0 = some (gateQ true, gateRun)
    ∧ (let s := { withSlot run1 with regions := [(0, { tblStep := 2, tblGen := 2 })] }
      (s.region 0).tblStep = 2 ∧ ∀ c ∈ coresOf 0, (s.core c).heldInactive = 0)
    ∧ ((coreOf { tables := { flipDue := true } }).core 0).tables.flipDue = true := by decide +kernel

/-! ### Witnesses: convolution, attention and pages -/

/-- A record of `n` bytes from fields. -/
def recOf (n : Nat) (fs : List (Nat × Nat × Nat)) : List Byte := mapSlice 0 (memOf fs) 0 n

/-- A kernel of 1 × 1 × 1 over one position of 8 channels in BF16, with an FP32 result. -/
def convFields (at_ flags : Nat) : List (Nat × Nat × Nat) :=
  [(0, 4, 0x00000111 + flags * 2 ^ 24), (4, 8, 0x0101010101010101), (12, 1, 1), (16, 8, 0x0008000100010001), (24, 8, 0x0001000800080008)
  , (32, 8, 0x1000), (40, 8, 0x2000), (48, 8, 0x3000), (56, 8, 0x3F8000003F800000), (68, 4, 0x10001), (74, 4, 0x18000), (84, 2, 1)].map (fun f => (at_ + f.1, f.2))

def convState (profile : Bool) : State :=
  withMem
    (withSlot { (if profile then runC else run1) with
                  d := [(2, 0x0000000040000000), (3, 0x0000000400000040)], s := [(1, 0x400)], a := [(0, BitVec.ofNat 64 (2 ^ 19 + 8 * 2 ^ 28))] })
    (convFields 0x400 0)

def convR (flags : Nat) : ConvRun :=
  { op := .conv, desc := recOf 128 (convFields 0 flags), handle := 0, dline := 0, dwst := 0, stripe := 0, offx := 0, offy := 0, tileP := 1
    t := 0, y := 0, g := 0, block := 0, seg := 0, bank := false, unposted := 0, record := none }

def convQ (flags : Nat) : Queued :=
  { pc := 0, major := 0x30, flight := .conv (convR flags), spans := [], claims := [.conv, .tensor], granted := true, post := none }

def convRunning (flags : Nat) : State := coreOf { slots := [(0, { run1 with qCe := [convQ flags] })] }

theorem witness_Convolution :
    (∀ p ∈ [true, false], (convState p).Ready at0 16 ∧ ((convState p).at_ at0).id.profile = p
      ∧ (convState p).convAddr at0 0x400 = none ∧ badWord2 p word2 [(0, 43)] = none
      ∧ ∀ k ∈ [(ConvOp.conv, fl 0 1 2 3), (.dwconv, fl 0 1 2 3), (.maxpool, fl 0 1 2 0), (.avgpool, fl 0 1 2 0)],
        let r := convCmd k.1 k.2 word2 ((convState p).at_ at0) ((convState p).convDesc 0x400)
        (convState p).Legal at0 (convUse k.1) k.2 ∧ (convState p).convStop at0 r = none ∧ convReserved r.desc = none
          ∧ queueStop ((convState p).at_ at0) .conv (r.spans ((convState p).at_ at0)) = none)
    ∧ fieldOf (((convState false).at_ at0).ra 0).toNat 38 26 = 0 ∧ fieldOf (((convState false).at_ at0).rd 2).toNat 52 12 = 0
    ∧ fieldOf (((convState false).at_ at0).rd 3).toNat 52 12 = 0
    ∧ (((convState false).at_ at0).rs (word2.extractLsb' 53 5)).toNat < 65536 := by decide +kernel

theorem witness_Convolution_passes :
    at0.upset = .ok
    ∧ (convRunning 0).convHead at0 = some (convQ 0, convR 0) ∧ (convRunning 0).convWait 1 (convR 0) = none
    ∧ (convRunning 2).convHead at0 = some (convQ 2, convR 2) ∧ (convRunning 2).convWait 1 (convR 2) = some (0x8000, 1)
    ∧ ((convRunning 2).sem 1 0x8000).poison = false
    ∧ ({ convRunning 2 with sems := [(semKey 1 0x8000, { poison := true })] } : State).convWait 1 (convR 2) = some (0x8000, 1)
    ∧ (({ convRunning 2 with sems := [(semKey 1 0x8000, { poison := true })] } : State).sem 1 0x8000).poison = true := by
  decide +kernel

/-- An attention descriptor of one head of 64, tiles of 16 rows, BF16, with the format of the weights and the flags given. -/
def attnFields (at_ p flags : Nat) : List (Nat × Nat × Nat) :=
  [(0, 4, 0x00000111 + p * 2 ^ 24), (4, 1, flags), (8, 8, 0x3F80000000100001), (16, 4, 1), (96, 8, 0x10000000080), (104, 8, 0x3F80000000000080)
  , (112, 8, 0x3F8000003F800000), (120, 4, 0x3F800000)].map
    (fun f => (at_ + f.1, f.2))

def word2A : Word := BitVec.ofNat 64 (0x3F * 2 ^ 58 + 8 * 2 ^ 53 + 9 * 2 ^ 48 + 10 * 2 ^ 43)

def attnState : State :=
  withMem
    (withSlot { run1 with d := [(4, 0x0000100000000000)], s := [(1, 0x400), (2, 0x480), (8, 0x100000000), (9, 0x10000), (10, 0x100000000)]
                          a := [(2, BitVec.ofNat 64 (16 * 2 ^ 19 + 64 * 2 ^ 28))] })
    (attnFields 0x400 1 0 ++ attnFields 0x480 0 0)

def attnR (late : Bool) : AttnRun :=
  { op := .fwd, desc := recOf 128 (attnFields 0 1 1), handle := 0, dwork := 0, q0 := 0, qRows := 1, h0 := 0, heads := 1, k0 := 0, kCount := 1
    qTile := 16, bank := false, gen := 1, ref := false, started := true, waitFrom := some 0, late := late
    queue := [{ pending := true, ringSlot := some 0, silOk := true }] }

def attnQ (late : Bool) : Queued :=
  { pc := 0, major := 0x32, flight := .attn (attnR late), spans := [], claims := [.tensor, .vector], granted := true, post := none }

/-- An attention command in its place, with its context's silhouettes on or off, that waits for a page. -/
def attnRunning (late sil : Bool) : State :=
  { coreOf { slots := [(0, { run1 with attn := { silOnDeadline := sil }, qTa := [attnQ late] })] } with
    sets := [(0, { live := true, ctx := 1, ring := [(0, { frame := 1, pending := true })] })] }

theorem witness_Attention :
    attnState.Ready at0 16
    ∧ (∀ k ∈ [(AttnOp.fwd, fl 2 1 4 0, 0x400), (.bwdKv, fl 2 2 4 0, 0x480), (.bwdQ, fl 2 2 4 0, 0x480), (.merge, fl 0 2 4 0, 0x480)],
        let r := attnCmd k.1 k.2.1 word2A (attnState.at_ at0) (attnState.convDesc k.2.2)
        attnState.attnAddr at0 k.2.2 = none ∧ attnState.Legal at0 (attnUse k.1) k.2.1 ∧ badWord2 false word2A [(0, 43)] = none
          ∧ fieldOf ((attnState.at_ at0).ra r.acc).toNat 38 26 = 0 ∧ fieldOf ((attnState.at_ at0).rd r.dwork).toNat 52 12 = 0
          ∧ ((attnState.at_ at0).rs (word2A.extractLsb' 48 5)).toNat < 2 ^ 32 ∧ attnReserved k.1 r.desc = none
          ∧ attnState.attnStop at0 r = none
          ∧ queueStop (attnState.at_ at0) .tensor (r.spans (attnState.at_ at0) (atQTile r.desc)) = none) := by decide +kernel

theorem witness_Attention_steps :
    (∀ l ∈ [true, false], ∀ sil ∈ [true, false], (attnRunning l sil).attnHead at0 = some (attnQ l, attnR l)
      ∧ ((attnRunning l sil).claimRuns at0 .tensor).isSome = true
      ∧ (attnRunning l sil).pageWait at0 = some (attnQ l, attnR l, { pending := true, ringSlot := some 0, silOk := true })
      ∧ (attnR l).late = l ∧ ((attnRunning l sil).at_ at0).attn.silOnDeadline = sil)
    ∧ (attnR false).op = .fwd ∧ atWalk (attnR false).desc = true ∧ (attnR false).started = true ∧ (attnR false).walkDone = false
    ∧ ((attnRunning false false).at_ at0).goes = true ∧ (attnRunning false false).lanternDown 0 = false := by decide +kernel

/-- A cache set of one sequence, block, slot and head of 64 in BF16. -/
def csd1 : List Byte := recOf 80 [(8, 4, 1), (12, 8, 0x0001000100010001), (48, 4, 1)]

def pageState : State :=
  { withSlot { run1 with d := [(1, 0x0000001000000000)], s := [(12, 0x100000000)] } with sets := [(0, { live := true, ctx := 1, csd := csd1 })] }

def word2P : Word := BitVec.ofNat 64 (0x3F * 2 ^ 58 + 12 * 2 ^ 53)

theorem witness_PageOperations :
    pageState.Ready at0 16 ∧ (pageState.at_ at0).qDma = []
    ∧ (pageStop (pageUse .s .none_ false) true true (fl 3 1 0 0) word2P pageState at0 = none
      ∧ ((pageState.at_ at0).rs 1).toNat % 1024 < csSeqs (pageState.set (pgSet (pgLoc (pageState.at_ at0) (fl 3 1 0 0)))).csd)
    ∧ pageStop (pageUse .none_ .none_ true) true true (fl 3 0 0 0) word2P pageState at0 = none
    ∧ pageStop (pageUse .none_ .none_ false) true true (fl 3 0 0 0) word2P pageState at0 = none
    ∧ (pageStop (pageUse .d .d false) false false (fl 3 1 1 0) word2P pageState at0 = none
      ∧ badDesc (pageState.at_ at0) 0 42 1 = none ∧ badDesc (pageState.at_ at0) 0 37 1 = none
      ∧ 1 * csHeads csd1 * csHd csd1 * csElem csd1 ≤ descLen ((pageState.at_ at0).rd 1)
      ∧ hazard (pageState.at_ at0) [descSpan ((pageState.at_ at0).rd 1) false, descSpan ((pageState.at_ at0).rd 1) false] = false)
    ∧ (let s : State := { withSlot run1 with sets := [(255, { deferred := [(3, [7])] })] }
      (s.set 255).deferred.find? (fun d => decide (d.1 = 3)) = some (3, [7]) ∧ ∀ w ∈ [7], w ∉ s.walksOf 255) := by decide +kernel

/-! ### Witnesses: links, collectives, queues, events, placement, refresh -/

/-- The machine in service: start-up is complete, and the host link runs. -/
def up : State :=
  { withSlot run1 with
    host := { perst := false, retry := false, speed := 5, width := 16, cxlMode := true, vfEnable := true }
    boot := { done := 255 } }

def withLinks (ls : List (Nat × Link)) : State := { up with hub := { up.hub with pkgAssigned := true, pkgId := 5 }, levee := { links := ls } }

def obs (l : LaneObs) : LinkObs :=
  { lane0 := l, lane1 := .open_, lane2 := .open_, lane3 := .open_, reversed := false, txToTx := false, loopback := false, farWidth := 3 }

def routed : State :=
  { withLinks [(63, { state := 3 }), (0, { state := 4 })] with
    levee := { links := [(0, { state := 4 }), (63, { state := 3 })], routes := [(7, { mask := 1, valid := true, hopLimit := 1 })] } }

theorem witness_LinkBringUp :
    (∀ j ∈ [0, 63], ∀ st ∈ [0, 2],
      let s := withLinks [(j, { state := st, minWidth := 2 })]
      s.linkFitted j = true ∧ s.lanternDown (24 + j / 16) = false ∧ 3 ≤ s.hub.phase ∧ s.boot.recovery = false ∧ (s.link j).enable = true
        ∧ (s.link j).cable = true ∧ (s.link j).state ≤ 2 ∧ (s.link j).droppedLanes = 0)
    ∧ ({ obs .good with txToTx := true }.txToTx = true ∨ (obs .good).loopback = true)
    ∧ ([LaneObs.shorted, .open_, .open_, .open_].filter laneGood).length = 0
    ∧ ([LaneObs.inverted, .open_, .open_, .open_].filter laneGood).length ≠ 0
    ∧ min (widthCode 1) (widthCode 3) < max 1 2 ∧ ¬ min (widthCode 2) (widthCode 3) < max 1 2
    ∧ ((routed.link 63).state = 3 ∧ routed.hub.pkgAssigned = true ∧ (5 : BitVec 12).toNat = routed.hub.pkgId
      ∧ (7 : BitVec 12).toNat ≠ routed.hub.pkgId ∧ routed.routedElsewhere 63 7 = true ∧ routed.routedElsewhere 63 4095 = false) := by
  decide +kernel

theorem witness_LinksInUse :
    ((withLinks [(0, { state := 2 })]).link 0).state = 2
    ∧ (((withLinks [(63, { state := 4, weakLanes := 8 })]).link 63).state = 4 ∧ (8 : Nat).testBit 3 = true ∧ (8 : Nat).testBit 0 = false)
    ∧ (0 < 1 * 1000000 ∧ ¬ 1000000 < 1 * 1000000)
    ∧ (((withLinks [(0, { state := 4, nakCount := 16, nakSeq := 4095 })]).link 0).nakCount = 16
      ∧ ((withLinks [(0, { state := 4, nakCount := 16, nakSeq := 4095 })]).link 0).nakSeq = (4095 : BitVec 12).toNat
      ∧ ((withLinks [(0, { state := 5, nakCount := 15 })]).link 0).nakCount < 16)
    ∧ (((withLinks [(0, { state := 6, lost := true })]).link 0).lost = true ∧ ((withLinks [(0, { state := 6, lost := true })]).link 0).state ≠ 4)
    ∧ ((withLinks []).linkFitted 0 = true ∧ ((withLinks []).link 0).cable ≠ false ∧ ((withLinks []).link 0).state ≠ 7)
    ∧ ((withLinks []).serves 0 = true ∧ (0 : Lane).toNat.testBit 31 = false ∧ (0 : Lane).toNat.testBit 30 = false
      ∧ (0 : Lane).toNat.testBit 29 = false)
    ∧ ((routed.link 0).state = 4 ∧ routed.linkFitted 0 = true ∧ routed.serves 0 = true ∧ routed.dieRecal 0 = false
      ∧ (routed.link 0).recalForce = false ∧ routed.alternates 0 = false)
    ∧ (withLinks [(0, { state := 4, recalForce := true })]).alternates 0 = true
    ∧ ((withLinks [(0, { state := 5 })]).link 0).state = 5 ∧ ((withLinks []).link 0).enable = true
    ∧ (∀ i < 64, ((withLinks [(63, { state := 3 })]).link i).state = 0 ∨ ((withLinks [(63, { state := 3 })]).link i).state = 3)
    ∧ (∃ i < 64, ((withLinks [(63, { state := 1 })]).link i).state ≠ 0 ∧ ((withLinks [(63, { state := 1 })]).link i).state ≠ 3) := by
  decide +kernel

theorem witness_RemoteTraffic :
    (routed.hub.pkgAssigned = true ∧ (7 : BitVec 12).toNat ≠ routed.hub.pkgId)
    ∧ (routed.reaches 7 1 = true ∧ 0 + 1 ≤ (routed.routeTo 7).limit ∧ ¬ 1 + 1 ≤ (routed.routeTo 7).limit)
    ∧ ((routed.link 0).state = 4 ∧ routed.windowFor 7 0 8 0 = none)
    ∧ (let s : State := { routed with levee := { routed.levee with windows := [(255, { count := 1, access := 1, valid := true, source := 7 })] } }
      (s.link 0).state = 4 ∧ (s.windowFor 7 0x1FFFF8 8 0).isSome = true ∧ s.windowFor 7 0x1FFFF9 8 0 = none)
    ∧ (mapGet {} ({ routed.levee with requests := [(4095, { live := true })] } : Levee).requests 4095 : RemoteReq).live = true := by
  decide +kernel

def collBlock : List (Nat × Nat × Nat) :=
  [(0x100, 8, 0x0000000000000001), (0x108, 8, 0x1000), (0x110, 8, 0x2000), (0x118, 8, 0x1000000001), (0x120, 8, 0x1000000010)]

/-- A group of two members, and a collective of one row of 16 bytes that this member has issued. -/
def collRun1 : CollRun :=
  { minor := 2, core := 0, slot := 0, stage := 0, task := 0, group := 1, ctx := 1, polder := 0, seq := 0
    block := recOf 64 (collBlock.map (fun f => (f.1 - 0x100, f.2))), post := none }

def collState : State :=
  { withMem (withSlot { run1 with s := [(1, 0x100)] }) collBlock with
    hub := { up.hub with pkgAssigned := true, pkgId := 5 }
    levee := { links := [(0, { state := 4 })], routes := [(7, { mask := 1, valid := true })]
               groups := [(1, { live := true, members := [5, 7], ctx := 1 })], colls := [collRun1] } }

def peer (rows : Nat) : PeerJoin := { minor := 2, dataFmt := 0, wireFmt := 0, red := 0, rows := rows, rowBytes := 16, data := [] }

/-- With one link up, whatever the hash is, a flow takes it. -/
theorem collState_flow : collState.flowLink 5 7 1 = 0 := by
  have h : collState.upLinks (collState.routeMask 7 1) = [0] := by decide +kernel
  simp only [State.flowLink, h, List.length_singleton, Nat.mod_one, List.getD_cons_zero]

theorem collState_who : collState.collWho collRun1 (collState.group 1) =
    { ctx := 1, polder := 0, die := linkDie (collState.flowLink 5 7 1), cls := 3, index := collState.flowLink 5 7 1, profile := false } :=
  rfl

theorem witness_Collectives :
    (collState.Ready at0 8 ∧ (∀ m ∈ [0, 1, 2, 3, 4], m < 5 ∧ collState.collStop at0 (fl 0 1 0 0) m = none)
      ∧ collState.oldestColl 1 1 = some collRun1 ∧ [peer 1].length + 1 = (collState.group 1).members.length)
    ∧ (collState.collGoes (collState.collWho collRun1 (collState.group 1)).die = true
      ∧ (∀ x ∈ collRun1.srcRows 2, collState.checkRange (collState.collWho collRun1 (collState.group 1)) false x 16 = none
        ∧ collState.heldOver x 16 = false))
    ∧ ((∃ p ∈ [peer 2], PeerJoin.agrees p collRun1 = false) ∧ (∀ p ∈ [peer 1], PeerJoin.agrees p collRun1 = true)) := by
  rw [collState_who, collState_flow]
  decide +kernel

/-- A queue of 16 entries on each ring that runs. -/
def ring16 : Queue :=
  { enable := true, sqLog2 := 4, cqLog2 := 4, running := true, sqHi := 0x80000000, cqHi := 0x80000000, cqLo := 0x1000, unsignalled := 1
    written := 15, tail := 1 }

def withQueue (v : Queue) : State :=
  { up with host := { up.host with queues := [(4095, v)] }, objs := [(1, { extents := 2, pin := true })]
            mem := { home := [(0, { state := 2, object := 1 }), (1, { state := 2, slice := 32, object := 1 })] } }

theorem witness_QueueControl :
    ((withQueue {}).serves 0 = true ∧ 4095 < 4096 ∧ ((withQueue {}).queue 4095).enable = false ∧ (0xFFF : Lane).toNat % 16 ≠ 0
      ∧ (∀ e ∈ (withQueue {}).host.queues, e.1 ≠ 4095 → ¬ (e.2.fn = 15 ∧ e.2.localIx = 255)))
    ∧ ((withQueue ring16).queue 4095).enable = true
    ∧ (let v : Queue := { sqHi := 0x80000000, cqHi := 0x80000000, cqLo := 0x1000 }
      let s := withQueue v
      let u (x : Nat) : Queue := { v with enable := true, kind := x.testBit 30, sqLog2 := x / 2 ^ 25 % 32, cqLog2 := x / 2 ^ 20 % 32,
                                          irqEn := x.testBit 19, vector := x % 2048 }
      s.serves 0 = true ∧ s.queueOf 0 4095 = some 4095 ∧ (s.queue 4095).fn = 0 ∧ (s.queue 4095).running = false
        ∧ (s.setQueue 4095 (u (4 * 2 ^ 25 + 16 * 2 ^ 20))).enableError 4095 (u (4 * 2 ^ 25 + 16 * 2 ^ 20)) = 0
        ∧ (s.setQueue 4095 (u (3 * 2 ^ 25 + 4 * 2 ^ 20))).enableError 4095 (u (3 * 2 ^ 25 + 4 * 2 ^ 20)) ≠ 0)
    ∧ (let s := withQueue ring16
      s.queueOf 0 4095 = some 4095 ∧ (s.queue 4095).fn = 0 ∧ (s.queue 4095).running = true ∧ (s.queue 4095).stopping = false
        ∧ (s.queue 4095).kind = false ∧ (15 : Lane).toNat % 65536 < (s.queue 4095).sqSize ∧ (s.queue 4095).sqSize ≤ (16 : Lane).toNat % 65536
        ∧ 15 < (s.queue 4095).cqSize ∧ (s.queue 4095).read + 15 ≤ (s.queue 4095).written
        ∧ (15 : Lane).toNat % 65536 = ((s.queue 4095).read + 15) % (s.queue 4095).cqSize ∧ (s.queue 4095).unsignalled ≠ 0
        ∧ s.Takes 4095 (recField (List.replicate 64 (0 : Byte)) 0 1) 1 (List.replicate 64 0) ∧ recField (List.replicate 64 (0 : Byte)) 0 1 ∉ opcodes)
    ∧ (let s := withQueue ring16
      let s := { s with hub := { s.hub with jobOpen := false } }
      s.front 4095 = .entry (List.replicate 64 0) ∧ s.hub.jobOpen = false
        ∧ 1 ≤ (s.queue 4095).cqSize - ((s.queue 4095).written - (s.queue 4095).read) - (s.queue 4095).owed)
    ∧ (let s := withQueue { ring16 with held := [(0, List.replicate 64 0)] }
      (s.queue 4095).held = (0, List.replicate 64 0) :: [] ∧ s.hub.jobOpen = true ∧ s.hub.running = true
        ∧ s.lanternDown 32 = false ∧ s.lanternDown 33 = false ∧ (recField (List.replicate 64 (0 : Byte)) 1 1).testBit 0 = false) := by
  decide +kernel

theorem witness_EventLog :
    (∀ sev ∈ [1, 2], let s := up.setEv { detected := [{ sev := sev }], next := 0xFFFFFFFE }
      (∃ e rest, s.ev.detected = e :: rest ∧ e.sev = sev) ∧ s.hub.running = true ∧ s.lanternDown 34 = false ∧ s.ev.next < 0xFFFFFFFF
        ∧ s.ev.halted = false ∧ s.ev.journal.length < 8192)
    ∧ up.fnOpen 0 = true ∧ up.ev.source ≠ (0x80000000 : Lane).toNat.testBit 31 ∧ up.ev.source = (0 : Lane).toNat.testBit 31 := by
  constructor
  · intro sev h
    simp only [List.mem_cons, List.not_mem_nil, or_false] at h
    obtain rfl | rfl := h <;> exact ⟨⟨_, _, rfl, rfl⟩, by decide⟩
  · decide

/-- A job with a stage of one task and a striped stage of two, which waits; and one whose first stage is complete. -/
def twoStages : Job :=
  { live := true, stages := [{ code := 1, tasks := 1, dieMask := 255, buf := 48, acc := 32 }, { code := 1, tasks := 2, striped := true, dieMask := 1 }] }

def jobUp (j : Job) : State :=
  { up with cores := [], jobs := [(1, j)], codes := [(1, { addr := 0x200000, codeBytes := 256, entries := [(0, 0, 0)] })] }

def placed : Job := { twoStages with tasks := [(0, { state := 4 })] }

def fencedCore : State :=
  { jobUp { twoStages with savePools := [(0, 65536)] } with cores := [(0, { slots := [(0, run1)], health := { fenced := true } })] }

theorem witness_Placement :
    ((jobUp twoStages).jobManagerUp = true
      ∧ (jobUp twoStages).batches = [{ ctx := 1, stage := 0, tasks := [0], striped := false }, { ctx := 1, stage := 1, tasks := [0, 1], striped := true }]
      ∧ ((jobUp twoStages).placeBatch { ctx := 1, stage := 0, tasks := [0], striped := false }).isSome = true)
    ∧ ((jobUp placed).batches = [{ ctx := 1, stage := 1, tasks := [0, 1], striped := true }]
      ∧ ((jobUp placed).placeBatch { ctx := 1, stage := 1, tasks := [0, 1], striped := true }).isSome = true)
    ∧ ((fencedCore.core 0).health.fenced = true ∧ (fencedCore.at_ at0).id.resident = true ∧ (fencedCore.at_ at0).faulted = false
      ∧ (fencedCore.job 1).moves = true ∧ fencedCore.writesHeld 1 = false ∧ (fencedCore.job 1).state = 0 ∧ fencedCore.poolFail 1 0 = none
      ∧ (fencedCore.at_ at0).stripe = none ∧ ((fencedCore.job 1).stage (fencedCore.at_ at0).stage).restartable = false)
    ∧ ((convRunning 2).slotWait 0 0 = some (convR 2, 0x8000) ∧ ((convRunning 2).at_ at0).goes = true ∧ (convRunning 2).lanternDown 0 = false
      ∧ (convRunning 2).producer 1 0x8000 = none) := by decide +kernel

def weights1 : WeightSet := { rcb := 0x1000, beginSem := 3, timeoutMs := 1, entries := [{ word := 0x2000, readySem := 4, readyCount := 1 }] }

/-- A refresh at a step, of a job whose only task stands at the flip barrier. -/
def refreshAt (f : Option Refresh) : State :=
  { jobUp { live := true, weights := some weights1, refresh := f, stages := [{ tasks := 1 }], barriers := [(0, { arrived := [0] })] } with
    sems := [(semKey 1 3, { value := 1 }), (semKey 1 4, { value := 1 })] }

theorem witness_WeightRefresh :
    (((refreshAt none).job 1).weights = some weights1 ∧ (refreshAt none).jobManagerUp = true ∧ ((refreshAt none).job 1).live = true
      ∧ ((refreshAt none).job 1).faulted = false ∧ ((refreshAt none).job 1).state = 0 ∧ ((refreshAt none).job 1).refresh = none
      ∧ ((refreshAt none).sem 1 3).value ≠ 0)
    ∧ (((refreshAt (some { step := 2 })).job 1).refresh = some { step := 2 } ∧ (refreshAt (some { step := 2 })).ev.halted = false)
    ∧ (((refreshAt (some { step := 3 })).job 1).refresh = some { step := 3 } ∧ (refreshAt (some { step := 3 })).jobManagerUp = true
      ∧ ((refreshAt (some { step := 3 })).job 1).faulted = false ∧ (refreshAt (some { step := 3 })).flippable 1 0 = true)
    ∧ (((refreshAt (some { step := 6 })).job 1).refresh = some { step := 6 } ∧ (refreshAt (some { step := 6 })).jobManagerUp = true
      ∧ (refreshAt (some { step := 6 })).ev.halted = false ∧ weights1.timeoutMs ≠ 0) := by decide +kernel

/-! ### Witnesses: tables, objects, moves, afterglow, host accesses -/

/-- An SQ entry at its queue's head, in device memory: opcode, target, descriptor, arguments. -/
def sqe (op target desc arg0 arg1 : Nat) : List (Nat × Nat × Nat) :=
  [(0, 1, op), (4, 2, target), (8, 8, desc), (16, 8, arg0), (24, 8, arg1)]

/-- A state in which queue 0 holds an entry, with a descriptor in memory. -/
def cmd (s : State) (e : List (Nat × Nat × Nat)) (fs : List (Nat × Nat × Nat) := []) : State :=
  { s with mem := { s.mem with bytes := memOf (e ++ fs) }
           host := { s.host with queues := [(0, { ring16 with written := 0, unsignalled := 0 })] } }

/-- The entry as it is read. -/
def bytesOf (e : List (Nat × Nat × Nat)) : List Byte := recOf 64 e

/-- An unused ID is found at once where none is in use. -/
theorem nextUnused_free {used : Nat → Bool} (h : ∀ i, used i = false) (lo hi k x : Nat) :
    nextUnused used lo hi (k + 1) x = some x := by
  simp [nextUnused, h]

theorem pickId_free (s : State) {used : Nat → Bool} (h : ∀ i, used i = false) (lo hi n : Nat) :
    ∃ i, s.pickId used lo hi n = some i := by
  obtain ⟨k, hk⟩ : ∃ k, min (hi - lo + 1) (n + 1) = k + 1 := ⟨min (hi - lo) n, by omega⟩
  exact ⟨_, by rw [State.pickId, hk]; exact nextUnused_free h ..⟩

/-- A run of slices is found in an empty tier of 32 slices, wherever the search begins. -/
theorem findRun_free {k p n : Nat} (hk : k ≤ 32) (hp : p < 32) : ∃ q, findRun [] 0 32 k (n + 2) p = some q := by
  by_cases h : p + k > 32
  · exact ⟨0, by simp [findRun, h, Nat.not_lt.mpr hk]⟩
  · exact ⟨p, by simp [findRun, h, Nat.mod_eq_of_lt hp]⟩

def header : List (Nat × Nat × Nat) := [(0x1000, 4, 0x32525448), (0x1004, 4, 0x10001), (0x1008, 8, 8), (0x1018, 4, 1), (0x1044, 1, 1)]

def codeCmd : State := cmd { up with codes := [] } (sqe 0x10 0 0x1000 0 0) header

/-- The digest function is not the manual's to describe: the header is accepted where it gives what the header holds. -/
theorem witness_TablesAndRoutes_code (hd : Config.shake256 (List.replicate 8 0) 32 = List.replicate 32 0) :
    codeCmd.Takes 0 0x10 1 (bytesOf (sqe 0x10 0 0x1000 0 0))
    ∧ ∃ h d i, (sqeOf (bytesOf (sqe 0x10 0 0x1000 0 0))).desc % 4096 = 0 ∧ (codeCmd.taken 0 1).readDesc 0x1000 256 = some h
      ∧ headBad h = none ∧ (codeCmd.taken 0 1).sections 0x1000 h = some d ∧ Config.shake256 d 32 = (h.drop 32).take 32
      ∧ (recField h 4 2 = 1 → recField h 6 1 ≠ 0)
      ∧ (codeCmd.taken 0 1).pickId (fun i => decide (((codeCmd.taken 0 1).code i).version ≠ 0)) 1 65535 (codeCmd.taken 0 1).codes.length
        = some i := by
  obtain ⟨i, hi⟩ := pickId_free (codeCmd.taken 0 1) (used := fun i => decide (((codeCmd.taken 0 1).code i).version ≠ 0))
    (fun _ => rfl) 1 65535 (codeCmd.taken 0 1).codes.length
  refine ⟨by decide +kernel, recOf 256 (header.map (fun f => (f.1 - 0x1000, f.2))), List.replicate 8 0, i,
    by decide +kernel, by decide +kernel, by decide +kernel, by decide +kernel, ?_, by decide +kernel, hi⟩
  rw [hd]
  decide +kernel

theorem witness_TablesAndRoutes_memory :
    (let s := cmd up (sqe 0x11 0 0 0 1)
      ∀ named ∈ [false, true],
        let t := { s with codes := [(1, { version := 1 })], jobs := if named then [(1, twoStages)] else [] }
        t.Takes 0 0x11 1 (bytesOf (sqe 0x11 0 0 0 1)) ∧ ((t.taken 0 1).code 1).version ≠ 0 ∧ (t.replyOf 0 (bytesOf (sqe 0x11 0 0 0 1))).fn = 0
          ∧ (t.taken 0 1).codeNamed 1 = named)
    ∧ (let s := cmd up (sqe 0x1B 0 0 0x200000 (2 ^ 32 + 1))
      s.Takes 0 0x1B 1 (bytesOf (sqe 0x1B 0 0 0x200000 (2 ^ 32 + 1))) ∧ biasExtents 0x200000 ((2 ^ 32 + 1) % 2 ^ 32) = [1]
        ∧ ∀ x ∈ [1], ((s.taken 0 1).home x).state ≠ 3)
    ∧ (let s := cmd up (sqe 0x1C 0 0 0x200000 (4 * 2 ^ 40))
      s.Takes 0 0x1C 1 (bytesOf (sqe 0x1C 0 0 0x200000 (4 * 2 ^ 40))) ∧ (0x200000 ≠ 0 ∧ 0x200000 % extentBytes = 0 ∧ 4 * 2 ^ 40 % extentBytes = 0)
        ∧ (s.taken 0 1).host.pool = [] ∧ ((s.taken 0 1).host.pool.map (·.2)).sum + 4 * 2 ^ 40 ≤ 4 * 2 ^ 40)
    ∧ (cmd up (sqe 0x48 0 0 0x8001 0)).Takes 0 0x48 1 (bytesOf (sqe 0x48 0 0 0x8001 0)) := 
  ⟨by decide +kernel, by decide +kernel, by decide +kernel, by decide +kernel⟩

def vfQueue (s : State) : State :=
  { s with host := { s.host with queues := [(0, { ring16 with written := 0, unsignalled := 0, fn := 1 })] } }

def groupFields : List (Nat × Nat × Nat) := [(0x1008, 8, 0x0001000100020001), (0x1010, 2, 1), (0x1020, 4, 0x00050007)]

def groupCmd : State :=
  cmd { collState with host := up.host, boot := up.boot, jobs := [(1, oneTask)], levee := { collState.levee with groups := [], colls := [] } }
    (sqe 0x3A 1 0x1000 0 0) groupFields

theorem witness_TablesAndRoutes_levee :
    (let s := cmd up (sqe 0x38 0 0x1000 4095 1)
     s.Takes 0 0x38 1 (bytesOf (sqe 0x38 0 0x1000 4095 1)) ∧ 4095 + 1 ≤ 4096 ∧ ((s.taken 0 1).readDesc 0x1000 (16 * 1)).isSome = true
        ∧ (vfQueue s).Takes 0 0x38 1 (bytesOf (sqe 0x38 0 0x1000 4095 1)) ∧ ((vfQueue s).replyOf 0 (bytesOf (sqe 0x38 0 0x1000 4095 1))).fn ≠ 0)
    ∧ (let s := cmd up (sqe 0x39 0 0x1000 255 1) [(0x1008, 8, 0x0100070000000001)]
      s.Takes 0 0x39 1 (bytesOf (sqe 0x39 0 0x1000 255 1)) ∧ 255 + 1 ≤ 256
        ∧ ∃ b, (s.taken 0 1).readDesc 0x1000 (32 * 1) = some b ∧ windowsBad b 1 = none)
    ∧ (groupCmd.Takes 0 0x3A 1 (bytesOf (sqe 0x3A 1 0x1000 0 0))
      ∧ ∃ b l, (groupCmd.taken 0 1).readDesc 0x1000 32 = some b ∧ recField b 16 2 % 4096 = 1 ∧ recField b 10 2 = 2 ∧ recField b 12 2 = 1
        ∧ recField b 14 1 = 1 ∧ recField b 8 2 % 1024 = 1 ∧ (groupCmd.taken 0 1).targetBad 0 1 = none
        ∧ (groupCmd.taken 0 1).readDesc (0x1000 + 32) (2 * 2) = some l
        ∧ (groupCmd.taken 0 1).memberBad ((List.range 2).map (fun i => recField l (2 * i) 2)) 1 = none)
    ∧ ((groupCmd.taken 0 1).group 1).live = false
    ∧ (let s := cmd { collState with host := up.host, boot := up.boot, levee := { collState.levee with colls := [] } } (sqe 0x3B 0 0 0 1)
      s.Takes 0 0x3B 1 (bytesOf (sqe 0x3B 0 0 0 1)) ∧ ((s.taken 0 1).group 1).live = true ∧ ∀ c ∈ (s.taken 0 1).levee.colls, c.group ≠ 1) := by
  refine ⟨by decide +kernel, ⟨by decide +kernel, by decide +kernel, ⟨_, rfl, by decide +kernel⟩⟩, ?_, by decide +kernel, by decide +kernel⟩
  exact ⟨by decide +kernel, recOf 32 (groupFields.map (fun f => (f.1 - 0x1000, f.2))), recOf 4 [(0, 4, 0x00050007)], by decide +kernel⟩

/-! ### Witnesses: objects, moves, afterglow, host accesses -/

/-- An object of one extent at the second free extent, package-wide in the stacks, under afterglow. -/
def objFields (tier glow : Nat) : List (Nat × Nat × Nat) :=
  [(0x1000, 8, 14 * 0x200000), (0x1008, 4, 1), (0x100C, 1, tier), (0x1010, 1, glow), (0x101C, 4, 0x10001), (0x1020, 4, 1)]

/-- A host pool of one extent. -/
def pooled (s : State) : State := { s with host := { s.host with pool := [(0x10000000, 0x200000)] } }

def objCmd (tier glow : Nat) : State := pooled (cmd up (sqe 0x18 0 0x1000 0 0) (objFields tier glow))

theorem witness_ObjectCommands_create :
    (∀ k ∈ [(0, 1), (2, 0)], let s := objCmd k.1 k.2
      s.Takes 0 0x18 1 (bytesOf (sqe 0x18 0 0x1000 0 0)) ∧ ∃ b, (s.taken 0 1).readDesc 0x1000 64 = some b
        ∧ (s.taken 0 1).objAbsent b = false ∧ (s.taken 0 1).objBad b = none ∧ (s.taken 0 1).fnMayUse 0 (odPolder b) = true ∧ odGlow b = k.2)
    ∧ (∃ id, ((objCmd 2 0).taken 0 1).pickId (fun i => decide ((((objCmd 2 0).taken 0 1).obj i).extents ≠ 0)) 1 1048575
      ((objCmd 2 0).taken 0 1).objs.length = some id)
    ∧ (∃ u, ((objCmd 2 0).taken 0 1).tick.takeHomes 1 { nameBase := 14 * 0x200000, extents := 1, homeTier := 2 } 14 1 = some u) := by
  refine ⟨?_, pickId_free _ (fun _ => rfl) .., ?_⟩
  · intro k hk
    simp only [List.mem_cons, List.not_mem_nil, or_false] at hk
    obtain rfl | rfl := hk
    · exact ⟨by decide +kernel, recOf 64 ((objFields 0 1).map (fun f => (f.1 - 0x1000, f.2))), by decide +kernel⟩
    · exact ⟨by decide +kernel, recOf 64 ((objFields 2 0).map (fun f => (f.1 - 0x1000, f.2))), by decide +kernel⟩
  · have hu : (((objCmd 2 0).taken 0 1).tick).slicesUsed 2 = [] := by decide +kernel
    have hp : (((objCmd 2 0).taken 0 1).tick).slicePart { nameBase := 14 * 0x200000, extents := 1, homeTier := 2 } 2 = (0, 32) := by
      decide +kernel
    obtain ⟨q, hq⟩ := findRun_free (k := 32) (n := 62) (Nat.le_refl 32)
      (Nat.mod_lt (Config.freeNat ((objCmd 2 0).taken 0 1).tick.freeCtr) (by decide : 0 < 32))
    have hf : (((objCmd 2 0).taken 0 1).tick).freeSlices { nameBase := 14 * 0x200000, extents := 1, homeTier := 2 } 2 32 = some q := by
      simp only [State.freeSlices, hp, hu, Nat.zero_add, Nat.sub_zero, List.length_nil, Nat.mul_zero]
      exact hq
    simp [State.takeHomes, hf]

/-- An object of a job whose quarantine is left, one that moves, and one that rests. -/
def owned (st job : Nat) : State :=
  { up with objs := [(9, { nameBase := 0x200000, extents := 1, job := job })]
            jobs := if job = 0 then [] else [(job, { live := true, state := 4 })]
            mem := { home := [(0, { state := 2 }), (1, { state := st, slice := 32, slicesM1 := 31, object := 9 })] } }

def csdFields : List (Nat × Nat × Nat) :=
  [(0x1000, 8, 0x200000), (0x1008, 8, 0x0001000100000001), (0x1010, 8, 0x3F80000000010001), (0x1018, 4, 0x3F800000)
  , (0x1020, 8, 0x2000), (0x1028, 8, 0x3000), (0x1030, 4, 1), (0x1038, 8, 0x4000), (0x1040, 8, 0x8000), (0x1048, 4, 1)]

def moveFields (copy tier : Nat) : List (Nat × Nat × Nat) :=
  [(0x1000, 8, if copy = 1 then 0x100000 else 0x200000), (0x1008, 4, if copy = 1 then 16 else 1), (0x100C, 2, copy + 256 * tier), (0x1010, 8, if copy = 1 then 0x180000 else 0)]

theorem witness_ObjectCommands_destroy :
    (∀ k ∈ [(2, false), (3, true)], let s := cmd (owned k.1 0) (sqe 0x19 0 0 0 9)
      s.Takes 0 0x19 1 (bytesOf (sqe 0x19 0 0 0 9)) ∧ ((s.taken 0 1).obj 9).extents ≠ 0 ∧ (s.taken 0 1).objMoving ((s.taken 0 1).obj 9) = k.2
        ∧ (s.taken 0 1).objHoldsCode ((s.taken 0 1).obj 9) = false)
    ∧ (∀ arg1 ∈ [0, 1], let s := cmd (owned 4 4095) (sqe 0x06 0 0 9 arg1)
      s.Takes 0 0x06 1 (bytesOf (sqe 0x06 0 0 9 arg1)) ∧ ((s.taken 0 1).obj 9).job ≠ 0 ∧ ((s.taken 0 1).job 4095).state = 4
        ∧ ((s.taken 0 1).returnAll ((s.taken 0 1).obj 9) ((s.taken 0 1).obj 9).span).isSome = true)
    ∧ (let s := cmd { pageState with host := up.host } (sqe 0x21 0 0 0 0)
      s.Takes 0 0x21 1 (bytesOf (sqe 0x21 0 0 0 0)) ∧ ((s.taken 0 1).set 0).live = true ∧ (s.taken 0 1).setBusy 0 = false)
    ∧ (let s := cmd up (sqe 0x1A 0 0x1000 0 0) (moveFields 0 1)
      s.Takes 0 0x1A 1 (bytesOf (sqe 0x1A 0 0x1000 0 0)) ∧ s.Takes 0 0x1A 2 (bytesOf (sqe 0x1A 0 0x1000 0 0))
        ∧ ∃ b, (s.taken 0 2).readDesc 0x1000 32 = some b ∧ moveBad b = none ∧ (s.taken 0 2).mayMove 0 { cmd := b } = true
          ∧ (s.taken 0 2).targetBad 0 (slCtx { cmd := b }) = none ∧ (s.taken 0 2).tierUp = true) := by
  refine ⟨by decide +kernel, by decide +kernel, by decide +kernel, by decide +kernel, by decide +kernel, ?_⟩
  exact ⟨recOf 32 ((moveFields 0 1).map (fun f => (f.1 - 0x1000, f.2))), by decide +kernel⟩

def setCmd : State := cmd { up with jobs := [(1, { live := true })] } (sqe 0x20 1 0x1000 0 0) csdFields

def csd2 : List Byte := recOf 128 (csdFields.map (fun f => (f.1 - 0x1000, f.2)))

theorem witness_ObjectCommands_set :
    (setCmd.Takes 0 0x20 1 (bytesOf (sqe 0x20 1 0x1000 0 0)) ∧ (setCmd.taken 0 1).targetBad 0 1 = none)
    ∧ (∃ i, (setCmd.taken 0 1).pickId (fun i => ((setCmd.taken 0 1).set i).live) 0 255 (setCmd.taken 0 1).sets.length = some i)
    ∧ ((setCmd.taken 0 1).tick.readDesc 0x1000 128 = some csd2 ∧ csdBad csd2 = none ∧ (setCmd.taken 0 1).tick.csdUnmapped csd2 = none) := by
  have h : (setCmd.taken 0 1).sets = [] := by decide +kernel
  exact ⟨by decide +kernel, pickId_free _ (fun i => by simp only [State.set, h]; rfl) .., by decide +kernel⟩

/-- A sluice command at a phase, of an extent in a state. -/
def sluiceAt (phase st pin copy tier : Nat) : State :=
  { pooled up with
    sluices := [(1, { cmd := recOf 32 ((moveFields copy tier).map (fun f => (f.1 - 0x1000, f.2))), phase := phase, srcSlicesM1 := if phase = 3 then 0 else 31 })]
    objs := [(9, { nameBase := 0x200000, extents := 1, pin := pin = 1 })]
    mem := { home := [(0, { state := 2 }), (1, { state := st, slice := 512, slicesM1 := 31, object := 9, destSlicesM1 := 31 })] } }

/-- An extent of one slice that moves to a pool of one slice, with a dike of the tier die open or shut. -/
def smallMove (rate : Nat) : State :=
  let s := sluiceAt 1 2 0 0 2
  { s with host := { s.host with pool := [(0x10000000, 65536)] }, polders := [(0, { dikes := [(0x36, { rate := rate })] })]
           mem := { home := [(0, { state := 2 }), (1, { state := 2, slice := 512, object := 9 })] } }

theorem witness_SluiceMove :
    (∀ rate ∈ [0, 0xFFFFFF], let s := smallMove rate;
      ((s.sluice 1).waits = true ∧ slCopy (s.sluice 1) = false ∧ s.tierLantern 1 = true ∧ s.sluiceTurn 1 = true ∧ (s.sluice 1).extent = 1
        ∧ (s.home 1).state = 2 ∧ (s.obj 9).pin = false ∧ s.objHoldsCode (s.obj 9) = false ∧ (s.home 1).tier ≠ slTier (s.sluice 1)
        ∧ (s.obj 9).glowMode = 0) ∧ s.freeSlices (s.obj 9) 2 1 = some 0)
    ∧ (let s := smallMove 0xFFFFFF
      let u := s.markExtent 1 (s.sluice 1) 0
      s.firstShut 0 (u.moveUses 1 (u.sluice 1)) = none)
    ∧ (let u := (smallMove 0).markExtent 1 ((smallMove 0).sluice 1) 0
      (smallMove 0).firstShut 0 (u.moveUses 1 (u.sluice 1)) = some 0x36)
    ∧ ((sluiceAt 1 2 1 0 2).obj 9).pin = true
    ∧ (((sluiceAt 3 3 0 0 2).sluice 1).live = true ∧ ((sluiceAt 3 3 0 0 2).sluice 1).phase = 3)
    ∧ (((sluiceAt 4 3 0 0 2).sluice 1).phase = 4 ∧ (sluiceAt 4 3 0 0 2).mem.held = [] ∧ (sluiceAt 4 3 0 0 2).host.flips = []
      ∧ (sluiceAt 4 3 0 0 2).mem.wf = true)
    ∧ (((sluiceAt 6 2 0 0 2).sluice 1).live = true ∧ ((sluiceAt 6 2 0 0 2).sluice 1).phase = 6)
    ∧ (let s := sluiceAt 1 2 0 1 0
      (s.sluice 1).waits = true ∧ slCopy (s.sluice 1) = true ∧ s.sluiceTurn 1 = true ∧ s.tierLantern 1 = true
        ∧ s.copyWaits (s.sluiceWho 1 (s.sluice 1)) (slSrc (s.sluice 1)) (slDest (s.sluice 1)) (slCount (s.sluice 1)) = false) := by
  refine ⟨fun r hr => ⟨?_, ?_⟩, by decide +kernel, by decide +kernel, by decide +kernel, by decide +kernel, by decide +kernel,
    by decide +kernel, by decide +kernel⟩
  · simp only [List.mem_cons, List.not_mem_nil, or_false] at hr
    obtain rfl | rfl := hr <;> decide +kernel
  · have hu : (smallMove r).slicesUsed 2 = [] := rfl
    have hp : (smallMove r).slicePart ((smallMove r).obj 9) 2 = (0, 1) := rfl
    simp [State.freeSlices, hp, hu, Nat.mod_one, findRun]

/-- An empty extent in the DDR tier, with writes collected; the tier has room for one extent, or none. -/
def glowAt (ddr : Nat) : State :=
  { up with ddrBytes := ddr, objs := [(9, { nameBase := 0x200000, extents := 1, homeTier := 1, glowMode := 1 })]
            mem := { home := [(1, { state := 1, slicesM1 := 32, tier := 1, object := 9 })], glow := [(1, 2)] } }

theorem witness_AfterglowAndHotChannels :
    ((mapGet 0 (glowAt 0).mem.glow 1 ≠ 0 ∧ ((glowAt 0).home 1).state = 1) ∧ ((glowAt 0x200000).obj 9).glowMode ≠ 2)
    ∧ (glowAt 0).tick.freeSlices ((glowAt 0).obj 9) 1 (1 + Config.freeNat (glowAt 0).freeCtr % 32) = none
    ∧ (∃ a, (glowAt 0x200000).tick.freeSlices ((glowAt 0x200000).obj 9) 1 (1 + Config.freeNat (glowAt 0x200000).freeCtr % 32) = some a)
    ∧ (([5, 1, 1, 1, 1, 1, 1, 1] : List Nat).foldl max 0 * 8 ≤ 4 * ([5, 1, 1, 1, 1, 1, 1, 1] : List Nat).sum)
    ∧ (4 * ([8, 1, 1, 1, 1, 1, 1, 1] : List Nat).sum < ([8, 1, 1, 1, 1, 1, 1, 1] : List Nat).foldl max 0 * 8 ∧ 25 ≤ 25)
    ∧ (mapGet 0 up.mem.hot 0 < 7 ∧ 7 ≤ mapGet 0 ({ up.mem with hot := [(0, 7)] } : Mem).hot 0 ∧ up.hub.running = true
      ∧ mapGet 0 up.ev.lastPost (0x0320 * 4096 + 0) = 0) := by
  refine ⟨by decide, ?_, ?_, by decide, by decide, by decide⟩
  · have hp : (glowAt 0).tick.slicePart ((glowAt 0).obj 9) 1 = (0, 0) := by decide +kernel
    simp only [State.freeSlices, hp]
    rw [if_pos (by omega)]
  · have hu : (glowAt 0x200000).tick.slicesUsed 1 = [] := by decide +kernel
    have hp : (glowAt 0x200000).tick.slicePart ((glowAt 0x200000).obj 9) 1 = (0, 32) := by decide +kernel
    obtain ⟨q, hq⟩ := findRun_free (k := 1 + Config.freeNat (glowAt 0x200000).freeCtr % 32) (n := 62) (by omega)
      (Nat.mod_lt (Config.freeNat (glowAt 0x200000).tick.freeCtr) (by decide : 0 < 32))
    refine ⟨q, ?_⟩
    simp only [State.freeSlices, hp, hu, Nat.zero_add, Nat.sub_zero, List.length_nil, Nat.mul_zero]
    rw [if_neg (by omega)]
    exact hq

/-- A committed decoder over the stacks, with the range active, and an object in the fourteenth extent. -/
def hostUp : State :=
  { up with host := { up.host with autoFlip := false, active1 := true, decoders := [(0, { size := 2 ^ 28, committed := true })] }
            mem := { home := [(14, { state := 2, slice := 14 * 32 }), (15, { state := 4 })] } }

theorem witness_HostAccess :
    (hostUp.hostName .cxlMem 0 (14 * 0x200000) = some (14 * 0x200000) ∧ hostUp.host.speed ≠ 0 ∧ hostUp.hostWaits (14 * 0x200000) 0x200000 = false
      ∧ 14 * 0x200000 / extentBytes = 14 ∧ (14 * 0x200000 + 0x200000 - 1) / extentBytes = 14 ∧ hostUp.host.autoFlip = false
      ∧ hostUp.hostRefusal false (14 * 0x200000) = none ∧ (14 ≠ logFrame) ∧ (hostUp.home 14).state ≠ 1
      ∧ hostUp.dieFail (14 * 0x200000) 0x200000 = none ∧ hostUp.hostRefusal true (14 * 0x200000) = none ∧ (hostUp.home 14).state ≠ 3)
    ∧ (hostUp.hostName .bar2 0 (15 * 0x200000) = some (15 * 0x200000) ∧ hostUp.hostRefusal false (15 * 0x200000) = some 1)
    ∧ (up.serves 0 = true ∧ up.variant ≠ .tbx20d ∧ up.host.cxlMode = true ∧ 2 ^ 40 / 2 ^ 28 * 2 ^ 28 ≤ stackEnd
      ∧ 7629 * 2 ^ 28 / 2 ^ 28 * 2 ^ 28 ≤ up.ddrBytes)
    ∧ up.host.retry = false
    ∧ (let s := { withSlot { run1 with held := some (.hostLink 0x100000000000) } with host := { up.host with speed := 0 } }
      (s.at_ at0).held = some (.hostLink 0x100000000000) ∧ s.host.speed = 0)
    ∧ (up.fnThere 15 = true) := by decide +kernel

/-! ### Witnesses: batch queues and encode streams -/

def bqFields : List (Nat × Nat × Nat) :=
  [(0x1001, 1, 1), (0x1002, 2, 2), (0x1004, 2, 1), (0x1008, 8, 0x4000), (0x1010, 8, 0x6000500000004), (0x1018, 8, 0x5000)
  , (0x1020, 8, 0x700000004), (0x1028, 8, 0x200000), (0x1030, 8, 0x400000002), (0x1038, 8, 0x3000)]

def bqDesc : List Byte := recOf 64 (bqFields.map (fun f => (f.1 - 0x1000, f.2)))

def bqCmd (op arg1 : Nat) (fs : List (Nat × Nat × Nat) := bqFields) : State :=
  cmd { up with jobs := [(1, { live := true })], media := { queues := [(5, { desc := bqDesc, ctx := 1 })] } }
    (sqe op 1 0x1000 0 arg1) (fs ++ [(0x3018, 4, 16)])

theorem witness_BatchQueues_commands :
    (let s := bqCmd 0x28 0
     s.Takes 0 0x28 1 (bytesOf (sqe 0x28 1 0x1000 0 0)) ∧ (s.taken 0 1).targetBad 0 1 = none
      ∧ (s.taken 0 1).readDesc 0x1000 64 = some bqDesc ∧ (s.taken 0 1).bqBad bqDesc = none
      ∧ (s.taken 0 1).mediaUp (bqDie bqDesc) 1 = true ∧ (s.taken 0 1).fnMayUse 0 (bqPolder bqDesc) = true ∧ (s.taken 0 1).variant ≠ .tbx20c)
    ∧ (let s := bqCmd 0x28 0 (bqFields ++ [(0x1038, 8, 0x3010)])
      s.Takes 0 0x28 1 (bytesOf (sqe 0x28 1 0x1000 0 0)) ∧ ∃ b, (s.taken 0 1).readDesc 0x1000 64 = some b
        ∧ (s.taken 0 1).bqBad b = some 56)
    ∧ (let s := bqCmd 0x29 5
      s.Takes 0 0x29 1 (bytesOf (sqe 0x29 1 0x1000 0 5)) ∧ ((s.taken 0 1).bq 5).live = true) := by
  exact ⟨by decide +kernel, ⟨by decide +kernel, recOf 64 (List.map (fun f : Nat × Nat × Nat => (f.1 - 0x1000, f.2)) (bqFields ++ [(0x1038, 8, 0x3010)])),
    by decide +kernel⟩, by decide +kernel⟩

/-- A sample request: frame 0 of a bitstream, with the cache enabled. -/
def rq1 : List Byte := recOf 128 [(40, 1, 1), (48, 2, 1), (50, 1, 1), (55, 1, 2)]

def req (started : Bool) (fail : Nat) : IngestReq := { seq := 1, bytes := rq1, started := started, fail := fail, first := if started then some 0 else none }

/-- A queue that runs, with requests and samples. -/
def bqUp (v : BatchQ) (ents : List CacheEnt := []) : State :=
  { bqCmd 0x28 0 with
    media := { queues := [(5, { v with desc := bqDesc, ctx := 1 })], cache := ents }
    sems := [(semKey 1 5, { value := 1 })] }

def hitState : State :=
  bqUp { reqs := [req false 0], plan := [some { req := 1 }] } [{ area := 0, key := cacheKey rq1 0, data := {}, used := 0 }]

/-- The cache holds the request's sample, whatever its key is. -/
theorem hitState_hit : hitState.allHit bqDesc rq1 = true := by
  have h1 : ¬ bqCache bqDesc = 0 ∧ rqCacheEn rq1 = true := by decide +kernel
  have h2 : rqSamples rq1 = 1 := by decide +kernel
  have h3 : recField (hitState.cacheDesc bqDesc) 0 8 = 0 := by decide +kernel
  have h4 : hitState.media.cache = [{ area := 0, key := cacheKey rq1 0, data := {}, used := 0 }] := rfl
  simp [State.allHit, h1, h2, h3, State.cached, h4]

def doneSample (i : Nat) : Option Sample := some { id := i, req := 1, buffer := some i, done := true }

theorem witness_BatchQueues :
    (let s := bqUp {}
     s.bqGoes 5 = true ∧ s.postThere 1 (bqReqSem bqDesc) = true
        ∧ s.devStop (s.mediaWho (bqDie bqDesc) 0 1 (bqPolder bqDesc)) false (bqReqRing bqDesc) 128 = none)
    ∧ (∀ fail ∈ [0, 3], let s := bqUp { reqs := [req false fail], plan := [some { req := 1 }] }
      s.bqGoes 5 = true ∧ (s.bq 5).out = [] ∧ (s.bq 5).reqs.find? (fun r => !r.started) = some (req false fail)
        ∧ (s.bq 5).freeBuffers (rqSamples rq1) = some [0]
        ∧ ((s.bq 5).reqs.filter (fun x => x.started && !x.dead)).length < bqParallel bqDesc)
    ∧ (hitState.bqGoes 5 = true ∧ hitState.allHit bqDesc rq1 = true)
    ∧ (let s := bqUp { reqs := [req true 3], plan := [some { req := 1 }] }
      s.bqGoes 5 = true ∧ (s.bq 5).reqs.find? (fun x => decide (x.seq = 1)) = some (req true 3) ∧ (req true 3).ripe = true
        ∧ (req true 3).first ≠ none)
    ∧ (let s := bqUp { plan := [doneSample 0, doneSample 1] }
      s.bqGoes 5 = true ∧ (s.bq 5).out = [] ∧ 0 < bqBatchEntries bqDesc ∧ (s.bq 5).plan ≠ [] ∧ bqSlots bqDesc ≤ (s.bq 5).plan.length
        ∧ ∃ x, fillBatch (bqFill bqDesc) (bqReplace bqDesc) ((s.bq 5).plan.take (bqSlots bqDesc)) { rest := (s.bq 5).plan.drop (bqSlots bqDesc) } = some x
          ∧ s.piecesWait (s.mediaWho (bqDie bqDesc) 0 1 (bqPolder bqDesc)) [(bqBatchRing bqDesc, batchDesc 0 false x.slots)] = none
          ∧ batchDesc 0 false x.slots ≠ []) := by
  refine ⟨by decide +kernel, by decide +kernel, ⟨by decide +kernel, hitState_hit⟩, by decide +kernel,
    by decide +kernel, by decide +kernel, by decide +kernel, by decide +kernel, by decide +kernel,
    { slots := [{ sample := { id := 0, req := 1, buffer := some 0, done := true } }, { sample := { id := 1, req := 1, buffer := some 1, done := true } }]
      rest := [], bufs := [0, 1] }, rfl, by decide +kernel⟩

/-- A stream of 64 × 64 frames with no cap and the least rings. -/
def esFields : List (Nat × Nat × Nat) :=
  [(0x1001, 1, 1), (0x1004, 2, 64), (0x1006, 2, 64), (0x1008, 4, 30), (0x100C, 4, 1), (0x1012, 1, 1), (0x1014, 2, 0x3F20)
  , (0x1024, 1, 1), (0x1028, 8, 0x4000), (0x1030, 8, 0x6000500000004), (0x1038, 8, 0x200000), (0x1040, 8, 0x10000), (0x1048, 8, 0x5000)
  , (0x1050, 4, 4), (0x1078, 8, 0x6000)]

def esDesc : List Byte := recOf 128 (esFields.map (fun f => (f.1 - 0x1000, f.2)))

def esCmd (op : Nat) (v : EncStream) : State :=
  { cmd { up with jobs := [(1, { live := true })], media := { encs := [(5, { v with ctx := 1 })], streams := [(0, .encode 5)] } }
    (sqe op 1 0x1000 0 5) esFields with sems := [(semKey 1 5, { value := 1 })] }

/-- The last entry is taken, or one more is there. -/
def intra0 : EncFrame := { intra := true, bytes := List.replicate 64 0 }

theorem witness_EncodeStreams_open :
    (let s := esCmd 0x30 {}
     s.Takes 0 0x30 1 (bytesOf (sqe 0x30 1 0x1000 0 5)) ∧ (s.taken 0 1).targetBad 0 1 = none
      ∧ (s.taken 0 1).readDesc 0x1000 128 = some esDesc ∧ (s.taken 0 1).mediaUp (esDie esDesc) 1 = true
      ∧ (s.taken 0 1).fnMayUse 0 (esPolder esDesc) = true ∧ (s.taken 0 1).esBad esDesc = none ∧ esLevel esDesc = 0
      ∧ (s.taken 0 1).variant ≠ .tbx20c)
    ∧ (let s := cmd { up with jobs := [(1, { live := true })] } (sqe 0x30 1 0x1000 0 5) esFields
      ∃ i, (s.taken 0 1).freeStream (esDie esDesc) = some i)
    ∧ (let s := esCmd 0x31 { desc := esDesc }
      s.Takes 0 0x31 1 (bytesOf (sqe 0x31 1 0x1000 0 5)) ∧ ((s.taken 0 1).enc 5).live = true ∧ ((s.taken 0 1).enc 5).closeReq = none) := by
  refine ⟨by decide +kernel, ?_, by decide +kernel⟩
  refine pickId_free _ (fun i => ?_) ..
  have h : ((cmd { up with jobs := [(1, { live := true })] } (sqe 0x30 1 0x1000 0 5) esFields).taken 0 1).media.streams = [] := by
    decide +kernel
  simp only [State.stream, h]
  rfl

theorem witness_EncodeStreams :
    (let s := esCmd 0 { desc := esDesc }
     s.encGoes 5 = true ∧ (s.enc 5).ended = false ∧ s.postThere 1 (esFrameSem esDesc) = true
        ∧ s.devStop (s.mediaWho (esDie esDesc) 0 1 (esPolder esDesc)) false (esRing esDesc) 64 = none)
    ∧ (let s := esCmd 0 { desc := esDesc, group := [intra0], engine := some 1 }
      (s.enc 5).group = [intra0] ∧ (s.enc 5).live = true ∧ (s.enc 5).engine = some 1 ∧ s.engineUp (esDie esDesc) 1 = true ∧ (s.job 1).faulted = false)
    ∧ (let s := esCmd 0 { desc := esDesc, ended := true, closing := true }
      (s.enc 5).live = true ∧ (s.enc 5).engine = none ∧ (s.enc 5).state = 0 ∧ s.mediaLantern (esDie esDesc) 1 = true
        ∧ (s.enc 5).frames = [] ∧ (s.enc 5).group = [] ∧ s.encFinal (s.enc 5) = true
        ∧ s.piecesWait (s.mediaWho (esDie esDesc) 0 1 (esPolder esDesc)) [(esSummary esDesc, summaryOf (s.enc 5))] = none)
    ∧ (let s := esCmd 0 { desc := esDesc, frames := [intra0] }
      s.engineUp 0 1 = true ∧ (∀ e ∈ s.media.encs, ¬ (esDie e.2.desc = 0 ∧ e.2.engine = some 1)) ∧ (∀ e ∈ s.media.encs, e.2.recons = [])
        ∧ s.nextStream 0 1 = some 0 ∧ s.stream 0 0 = .encode 5
        ∧ s.encGroup (s.enc 5) = some { s.enc 5 with group := [intra0], frames := [] })
    ∧ (let s := { bqUp { reqs := [{ req true 0 with stream := some 0 }], plan := [some { req := 1 }] } with
        media := { queues := [(5, { desc := bqDesc, ctx := 1, reqs := [{ req true 0 with stream := some 0 }] })], streams := [(0, .ingest 5 1)] } }
      s.engineUp 0 0 = true ∧ s.media.encs = [] ∧ s.nextStream 0 0 = some 0 ∧ s.stream 0 0 = .ingest 5 1)
    ∧ (3 < 4 ∧ 1 < 2 ∧ up.media.encs = [] ∧ ∀ i < 64, up.streamReady 3 i = false) := by
  decide +kernel
/-! ### Witnesses: jobs, polders, resets -/

/-- A job of one stage of one task on die 0, with its stage map, its pools and an empty object list; the die has no pool
where `short`. -/
def jdFields (short : Bool) : List (Nat × Nat × Nat) :=
  [(0x1008, 8, 0x2000), (0x1010, 2, 1), (0x1030, 8, 0x3000), (0x1038, 8, 0x4000), (0x2000, 8, 0x0001000100000001)
  , (0x3008, 8, if short then 0 else 1048576)]

def jdDesc (short : Bool) : List Byte := recOf 128 ((jdFields short).map (fun f => (f.1 - 0x1000, f.2)))

def submitCmd (short : Bool) : State :=
  { cmd up (sqe 1 0 0x1000 0 0) (jdFields short) with
    codes := [(1, { addr := 0x200000, version := 2, codeBytes := 256, entries := [(0, 1, 0)] })]
    polders := [(0, { enable := true })] }

theorem witness_JobCommands_submit :
    (∀ short ∈ [true, false], let s := submitCmd short
      s.Takes 0 1 1 (bytesOf (sqe 1 0 0x1000 0 0)) ∧ s.Takes 0 1 2 (bytesOf (sqe 1 0 0x1000 0 0)) ∧ s.lanternDown 30 = false
        ∧ s.lanternDown 31 = false ∧ (s.taken 0 2).readDesc 0x1000 128 = some (jdDesc short))
    ∧ (∃ id, ((submitCmd false).taken 0 2).pickId (fun i => (((submitCmd false).taken 0 2).job i).live) 1 4095
      ((submitCmd false).taken 0 2).jobs.length = some id)
    ∧ (let s := submitCmd false
       ∃ j, (s.taken 0 2).submitCheck (s.replyOf 0 (bytesOf (sqe 1 0 0x1000 0 0))) (sqeOf (bytesOf (sqe 1 0 0x1000 0 0))) (jdDesc false) = .inl j)
    ∧ (let s := submitCmd true
      (s.taken 0 2).submitCheck (s.replyOf 0 (bytesOf (sqe 1 0 0x1000 0 0))) (sqeOf (bytesOf (sqe 1 0 0x1000 0 0))) (jdDesc true)
        = .inr (0x06, 0)) := by
  have h : ((submitCmd false).taken 0 2).jobs = [] := by decide +kernel
  refine ⟨by decide +kernel, pickId_free _ (fun i => by simp only [State.job, h]; rfl) .., ⟨_, rfl⟩, by decide +kernel⟩

/-- A command for a job in a state. -/
def ctlCmd (op st : Nat) (faulted : Bool := false) : State :=
  cmd { up with jobs := [(7, { live := true, state := st, faulted := faulted })] } (sqe op 7 0 1 0)

theorem witness_JobCommands :
    (∀ op ∈ [2, 3, 4, 5], ∀ st ∈ [0, 2, 3],
      let s := ctlCmd op st
      s.Takes 0 op 1 (bytesOf (sqe op 7 0 1 0)) ∧ cmdKind (sqeOf (bytesOf (sqe op 7 0 1 0))) = 1 ∧ ((s.taken 0 1).job 7).live = true
        ∧ (s.replyOf 0 (bytesOf (sqe op 7 0 1 0))).fn = 0 ∧ ((s.taken 0 1).job 7).faulted = false ∧ ((s.taken 0 1).job 7).state = st)
    ∧ ((ctlCmd 4 0 true).Takes 0 4 1 (bytesOf (sqe 4 7 0 1 0)) ∧ (((ctlCmd 4 0 true).taken 0 1).job 7).faulted = true) := by decide +kernel

theorem witness_JobEnds :
    ((jobUp { twoStages with stages := [{ tasks := 1 }], tasks := [(0, { state := 4 })] }).jobManagerUp = true
      ∧ (let j : Job := { twoStages with stages := [{ tasks := 1 }], tasks := [(0, { state := 4 })] }
        j.live = true ∧ j.faulted = false ∧ j.state = 0 ∧ j.allEnded = true ∧ (jobUp j).job 1 = j ∧ (jobUp j).holdsUnits 1 = false))
    ∧ (let s := { withSlot run1 with jobs := [(1, { twoStages with state := 1, savePools := [(0x40000000, 65536)] })] }
      (s.job 1).state = 1 ∧ s.writesHeld 1 = false ∧ s.opsLanded 1 = true ∧ (s.saveFail 1).isSome = true)
    ∧ (let s := { withSlot run1 with jobs := [(1, { twoStages with state := 1, savePools := [(0, 65536)] })] }
      (s.job 1).live = true ∧ (s.job 1).faulted = false ∧ (s.job 1).state = 1 ∧ s.writesHeld 1 = false ∧ s.opsLanded 1 = true
        ∧ s.saveFail 1 = none ∧ (s.job 1).resumeReq = none)
    ∧ (let s := jobUp { twoStages with faulted := true, faultCore := 191 }
      (s.job 1).live = true ∧ (s.job 1).faulted = true ∧ (s.job 1).state ≠ 4 ∧ s.lanternDown 30 = false ∧ s.lanternDown 31 = false
        ∧ (s.die ((s.job 1).faultCore / 24)).resetting = false)
    ∧ (up.host.retry = false ∧ up.host.vfEnable = true) := by
  decide +kernel

theorem witness_PolderRegisters :
    up.serves 0 = true ∧ up.fnOpen 0 = true ∧ (∀ i ∈ [0, 8, 0x10, 0x2F, 0x30, 0x34, 0x36, 0x3B], up.dikeThere i = true)
    ∧ ((up.setPolder 15 { dikes := [(0, { rate := 5, holding := true, heldUs := 900000 })] }).dike 15 0).rate ≠ 0xFFFFFF
    ∧ 900000 ≤ ((up.setPolder 15 { dikes := [(0, { rate := 5, holding := true, heldUs := 900000 })] }).dike 15 0).heldUs
    ∧ (up.dike 15 0).heldUs < 900000 ∧ up.hub.running = true ∧ mapGet 0 up.ev.lastPost (0x0123 * 4096 + 15 * 64 + 0) = 0
    ∧ (191 < 192 ∧ (∀ k ∈ (up.core 191).slots, k.2.id.resident = false) ∧ (up.core 191).health.underTest = false) := by decide +kernel

/-- Start-up has passed P0 and P1, and the machine is in service. -/
def served : State := { up with cores := [], boot := { done := 255 } }

theorem witness_Resets :
    (∀ r ∈ [0, 15], (served.region r).resetting = false ∧ (served.die (r / 2)).resetting = false
      ∧ ({ served with regions := [(r, { resetting := true })] }.region r).resetting = true)
    ∧ (∀ d ∈ [8, 11], served.dieUp d = true ∧ served.media.encs = [] ∧ served.media.queues = []
      ∧ ({ served with dies := [(d, { resetting := true })] }.die d).resetting = true)
    ∧ State.reset.host.perst = true
    ∧ (served.boot.done % 4 = 3 ∧ served.power.mainOff = false ∧ served.power.standbyOff = false ∧ served.hub.running = true
      ∧ served.ev.detected = [] ∧ served.media.encs = [] ∧ served.mem.glow = [] ∧ served.dep.refreshLog = [])
    ∧ State.reset.boot.done % 4 ≠ 3 := by decide +kernel

/-! ### Witnesses: dependability and the warden -/

def healthy (f t u : Bool) : State :=
  { served with cores := [(191, { health := { fenced := f, testedSinceFence := t, underTest := u } })] }

def stFields : List (Nat × Nat × Nat) := [(0x1000, 1, 63), (0x1004, 4, 0x00BF00BF)]

theorem witness_FencesAndTests :
    (served.fnOpen 0 = true ∧ ((healthy false false false).core 191).health.fenced = false
      ∧ ((healthy false false false).core 191).health.underTest = false ∧ ((healthy true true false).core 191).health.fenced = true
      ∧ ((healthy true true false).core 191).health.testedSinceFence = true
      ∧ ((healthy true false false).core 191).health.testedSinceFence = false)
    ∧ (let s := cmd up (sqe 0x40 0 0x1000 0 0) stFields
      s.Takes 0 0x40 1 (bytesOf (sqe 0x40 0 0x1000 0 0)) ∧ s.dep.update = none ∧ (s.replyOf 0 (bytesOf (sqe 0x40 0 0x1000 0 0))).fn = 0
        ∧ ∃ d, (s.taken 0 1).readDesc 0x1000 16 = some d ∧ recField d 0 1 < 64 ∧ recField d 1 1 = 0 ∧ recField d 2 1 < 4
          ∧ recField d 3 1 = 0 ∧ recField d 4 2 ≤ 191 ∧ recField d 4 2 ≤ recField d 6 2 ∧ recField d 6 2 ≤ 191 ∧ recField d 8 8 = 0
          ∧ (s.taken 0 1).testUnits d ≠ [])
    ∧ ((healthy true false true).testNow = none ∧ ((healthy true false true).core 191).health.underTest = true
      ∧ (healthy true false true).dieUp (191 / 24) = true ∧ (healthy true false true).lanternDown (191 / 12) = false
      ∧ ((healthy true false true).region (191 / 12)).resetting = false)
    ∧ (let s : State := { served with dep := { tests := [(3, { live := true, units := [(1, 63)] })] } }
      s.testNow = some (3, unitOf (.link 63)) ∧ s.unitIdle (unitOf (.link 63)) = true) := by
  refine ⟨by decide +kernel, ⟨by decide +kernel, by decide +kernel, by decide +kernel,
    recOf 16 (stFields.map (fun f => (f.1 - 0x1000, f.2))), by decide +kernel⟩, by decide +kernel, by decide +kernel⟩

def expired (n : Nat) : State := { served with time := 5, dep := { expiry := [(n, 3)] } }

theorem witness_LanternsAndPair :
    (∀ p ∈ [0, 31], mapGet false served.portsDown p = false ∧ mapGet 0 served.dep.resends p + 1 < 16
      ∧ 16 ≤ mapGet 0 ({ resends := [(p, 15)] } : Depend).resends p + 1)
    ∧ (∀ n ∈ [0, 15, 37], n < 38 ∧ served.dieUp (lanternDie n) = true ∧ served.hub.running = true ∧ mapGet 0 served.dep.expiry n = 0)
    ∧ (∀ n ∈ [0, 15], n < 16 ∧ (expired n).dieUp (lanternDie n) = true ∧ (expired n).hub.running = true
      ∧ mapGet 0 (expired n).dep.expiry n ≠ 0 ∧ (expired n).time + 1 ≤ mapGet 0 (expired n).dep.expiry n + second
      ∧ (expired n).dep.update = none)
    ∧ ({ served with dep := { down := [(39, true)] } } : State).lanternDown 39 = true
    ∧ (served.hub.running = true ∧ served.ev.halted = false ∧ served.boot.done.testBit 0 = true)
    ∧ (let s : State := { served with ev := { halted := true } }
      s.ev.halted = true ∧ s.ev.journal.length + s.ev.journalWait.length ≤ 8192) := by decide +kernel

def updating (u : Update) : State := { served with dep := { update := some u } }

theorem witness_LiveUpdate :
    ((updating {}).updateRegion = some 0 ∧ ((updating {}).region 0).resetting = false ∧ (updating {}).lanternDown 0 = false
      ∧ ∀ c ∈ coresOf 0, (updating {}).core c = {})
    ∧ (let u : Update := { step := 4, dies := [8] }
      (updating u).dep.update = some u ∧ 17 ∈ (updating u).diesLeft u ∧ (updating u).dieIdle 17 = true
        ∧ ∀ n ∈ lanternsOf 17, (updating u).lanternDown n = false)
    ∧ (let u : Update := { step := 5 }
      (updating u).dep.update = some u ∧ u.step = 5 ∧ (updating u).ev.halted = false ∧ (updating u).jobs = [] ∧ u.jobs = [])
    ∧ (let u : Update := { times := [(0, 1)] }
      (updating u).dep.update = some u ∧ u.before = [] ∧ u.regions = [] ∧ u.jobs = [] ∧ mapGet 0 u.times 0 ≠ 0) := by decide +kernel

theorem witness_StorageErrors :
    ((served.slot 191 3).id.resident = false ∧ 0 < hostBase)
    ∧ ((served.setHome 1 { state := 2, slice := 32 }).home (0x200000 / extentBytes)).state = 2
    ∧ ((served.setHome 1 { state := 2, slice := 32 }).home (0x200000 / extentBytes)).tier ≠ 2
    ∧ 0 < stackEnd / extentBytes ∧ served.host.flips = [] ∧ served.sluices = [] := by decide +kernel
def powered (p : Power) : State := { served with power := p }

theorem witness_PowerAndHeat :
    (served.wardenRuns = true ∧ served.railsUp = true ∧ served.dep.safeMode = false ∧ served.serves 0 = true ∧ served.ev.halted = false)
    ∧ (served.limit < 3301 ∧ 4 < served.power.tensor ∧ served.power.tensor ≤ 32)
    ∧ ((powered { tensor := 4 }).limit < 3301 ∧ (powered { tensor := 4 }).power.tensor = 4 ∧ 16 < (powered { tensor := 4 }).power.other)
    ∧ (let p : Power := { tensor := 31, underMs := 4 }
      (powered p).wardenRuns = true ∧ (powered p).railsUp = true ∧ 0 * 100 < 98 * (powered p).limit ∧ 4 ≤ p.underMs ∧ p.idle = false
        ∧ p.other = 32 ∧ p.tensor < 32)
    ∧ 11 * served.limit < 10 * 3631 := by decide +kernel

theorem witness_PowerAndHeat_heat :
    (∀ d ∈ [0, 19], served.variant.fits d = true ∧ d < 20 ∧ (950 : Int) ≤ 950 ∧ (1049 : Int) < 1050 ∧ (919 : Int) < 920
      ∧ served.power.undervolt = false ∧ ∀ e < 20, e ≠ d → served.variant.fits e = true → served.power.temp e < 920)
    ∧ (∀ y ∈ [(999 : Int)], let p : Power := { flow := { value := y } }
      (powered p).wardenRuns = true ∧ p.flow.fault = 0 ∧ p.flow.value < 1000)
    ∧ (served.power.inlet.fault = 0 ∧ served.power.flow.fault = 0 ∧ (450 : Int) ≤ 450 ∧ (2000 : Int) ≤ 2000)
    ∧ (let p : Power := { inlet := { run := 9 } }
      (powered p).wardenRuns = true ∧ p.inlet.fault = 0 ∧ 9 ≤ p.inlet.run ∧ p.flow.fault = 0) := by decide +kernel

theorem witness_InputFaults :
    ((-1 : Int) < 0 ∧ served.power.standbyOff = false ∧ (3999 : Int) < 4000 ∧ served.railsUp = true ∧ served.power.undervolt = false
      ∧ (6000 : Int) < 6001 ∧ (6300 : Int) < 6301 ∧ served.power.mainOff = false ∧ served.variant ≠ .tbx20d ∧ 7 ∉ served.power.fuses
      ∧ served.wardenRuns = true)
    ∧ ∀ r ∈ [0, 15], served.dieUp (r / 2) = true := by decide +kernel

theorem witness_SecurityAndDebug :
    (served.hub.running = true ∧ served.wardenRuns = true ∧ served.dep.safeMode = false ∧ served.boot.recovery = false)
    ∧ (∀ i ∈ [1, 20], served.variant.fits (i - 1) = true)
    ∧ (true ≠ served.sec.activeB ∧ (List.replicate 4080 (0 : Byte)).length ≤ 4080 ∧ served.sec.killed = false ∧ served.dep.update = none
      ∧ served.jobs = [])
    ∧ (let u : Unlock := { level := 2, mask := 2 ^ 19 + 1, lifetime := 1 }
      let s : State := { served with sec := { unlock := some u } }
      s.hub.running = true ∧ s.sec.unlock = some u ∧ 1 ≤ u.level ∧ 2 ≤ u.level ∧ u.mask.testBit 0 = true ∧ u.mask.testBit 19 = true)
    ∧ served.sec.unlock = none := by decide +kernel

/-- An image set that passes the checks is a matter of the digest and of the signatures, which are not the manual's to give:
where a slot holds one, it may be activated and start-up takes it. -/
theorem witness_Security_slot (v : ImgSlot) (hw : v.writing = false) (hv : State.reset.setFails v = none) :
    let s : State := { served with sec := { slotA := v, slotB := v } }
    s.setFails (s.imgSlot true) = none ∧ s.slotValid s.sec.activeB = true := by
  have h : ∀ b, ({ served with sec := { slotA := v, slotB := v } } : State).setFails
      (({ served with sec := { slotA := v, slotB := v } } : State).imgSlot b) = State.reset.setFails v := by
    intro b; cases b <;> rfl
  refine ⟨by rw [h]; exact hv, ?_⟩
  show (!_ && _) = true
  rw [h]
  show (!v.writing && _) = true
  rw [hw, hv]
  rfl

/-- A token of level 1 or 2 for die 0, for the challenge of zeros. -/
def token (level : Nat) : List Byte := recOf 154 [(0, 4, 0x4B544244), (28, 1, level), (32, 4, 1), (36, 4, 1)]

/-- Where the package's serial number is 0 and the token's signature is good, its checks pass. -/
theorem witness_Security_token (level : Nat) (hl : level = 1 ∨ level = 2) (hs : Config.serial = 0)
    (hg : Config.debugSigned ((token level).take 40) (((token level).drop 40).take 114) = true) :
    let s : State := { served with sec := { challenge := some (List.replicate 16 0, 0) }, jobs := [(1, { live := true })] }
    (token level).length = 154 ∧ s.tokenBad (token level) = false ∧ tkLevel (token level) = level ∧ tkForce (token level) = false
      ∧ s.contextsExist = true := by
  obtain rfl | rfl := hl <;> (simp only [State.tokenBad, hs, hg]; decide +kernel)

theorem witness_StartUp :
    (State.reset.power.standbyOff = false ∧ State.reset.phaseDone 0 = false)
    ∧ (let s : State := { State.reset with boot := { done := 1 } }
      s.wardenRuns = true ∧ s.phaseDone 1 = false ∧ s.power.mainOff = false ∧ s.power.reversed = false)
    ∧ (let s : State := { State.reset with boot := { done := 3 } }
      s.wardenRuns = true ∧ s.railsUp = true ∧ s.phaseDone 2 = false ∧ s.sec.killed = false)
    ∧ (let s : State := { State.reset with boot := { done := 7 }, hub := { running := true }, host := { perst := false } }
      s.hub.running = true ∧ s.host.perst = false ∧ s.host.retry = true ∧ s.railsUp = true ∧ s.boot.recovery = false
        ∧ s.starting = true ∧ s.phaseDone 2 = true ∧ s.phaseDone 4 = false ∧ s.boot.warm = false ∧ s.ddrTrains = true)
    ∧ (let s : State := { State.reset with boot := { done := 31 }, hub := { running := true } }
      s.starting = true ∧ s.phaseDone 4 = true ∧ s.phaseDone 5 = false ∧ s.phaseDone 6 = false
        ∧ ∀ e ∈ s.levee.links, e.2.enable = true → e.2.cable = true → e.2.state ≠ 1 ∧ e.2.state ≠ 2)
    ∧ (let s : State := { State.reset with boot := { done := 127 }, hub := { running := true } }
      s.starting = true ∧ phaseOf s.boot.done = 7) := by decide +kernel

/-- The warden's own image likewise. -/
theorem witness_StartUp_warden (w : List Byte) (hw : (State.reset.imgFails (imgParts w).1 (imgParts w).2).isNone = true) :
    let s : State := { State.reset with sec := { warden := w } }
    (s.imgFails (imgParts s.sec.warden).1 (imgParts s.sec.warden).2).isNone = true := hw

theorem witness_RegisterAccess :
    up.fnOpen 0 = true ∧ (0x0C % 8 ≠ 0 ∧ 0x0C % 4 = 0 ∧ 0x10 % 8 = 0 ∧ 0x0E % 4 ≠ 0)
    ∧ ((128 : Lane).toNat % 256 ≤ 128 ∧ { served with mem := {} }.stackHomes = false) ∧ 128 < (129 : Lane).toNat % 256
    ∧ served.stackHomes = true := by decide +kernel

theorem witness_Capabilities :
    ∀ v ∈ [Variant.tbx20, .tbx20c, .tbx20l, .tbx20d], { up with variant := v }.fnOpen 15 = true := by decide +kernel

theorem witness_TimestampLatch :
    up.fnOpen 0 = true ∧ mapGet none ({ up.host with timeLatch := [(0, some 7)] } : HostIf).timeLatch 0 = some 7
    ∧ mapGet none up.host.timeLatch 0 = none := by decide +kernel

theorem witness_PolderSalt : up.serves 0 = true ∧ up.fnOpen 0 = true ∧ (up.polder 15).saltLo < 2 ^ 32 := by decide +kernel

/-- A step that the invariant is kept by: a command waits, and the state before it is well formed. -/
theorem witness_InvariantKept :
    State.reset.Inv ∧ ∃ t, step { State.reset with pending := [.patrolScrub] } = .next t ∧ t = State.reset := by
  exact ⟨by decide, State.reset, rfl, rfl⟩
/-! ### Commands that name nothing -/

/-- Each check refuses a term that only it refuses, at the first value out of its range. -/
theorem test_ill_formed_places :
    ¬ Instr.wf (.add { core := 192, slot := 0 } .reg (fl 1 2 3 0)) ∧ ¬ Instr.wf (.vld { core := 191, slot := 4 } (fl 1 2 3 0))
    ∧ ¬ Instr.wf (.engineDispatch 192 .vector) ∧ ¬ Instr.wf (.claimGrant 192) ∧ ¬ Instr.wf (.coreReset 192)
    ∧ ¬ Instr.wf (.coreCtxIdWrite 192 0 0 ⟨1, 0, 0, 0⟩) ∧ ¬ Instr.wf (.coreCtxIdWrite 0 4 0 ⟨1, 0, 0, 0⟩)
    ∧ ¬ Instr.wf (.coreCtxIdWrite 0 0 0 ⟨65536, 0, 0, 0⟩) ∧ ¬ Instr.wf (.coreCtxIdWrite 0 0 0 ⟨1, 24, 0, 0⟩)
    ∧ ¬ Instr.wf (.coreCtxIdWrite 0 0 0 ⟨1, 0, 256, 0⟩) ∧ ¬ Instr.wf (.coreCtxIdWrite 0 0 0 ⟨1, 0, 0, 4096⟩)
    ∧ ¬ Instr.wf (.coreCtxAllotWrite 0 4 0) ∧ ¬ Instr.wf (.regionReset 16) ∧ ¬ Instr.wf (.dieReset 20)
    ∧ ¬ Instr.wf (.frameFreeAfterWalk 256 0) ∧ ¬ Instr.wf (.collJoinTimeout 4096 0) ∧ ¬ Instr.wf (.collJoinTimeout 0 1024)
    ∧ ¬ Instr.wf (.sfuTableBankWrite 16) ∧ ¬ Instr.wf (.refreshStageFlip 0 256) ∧ ¬ Instr.wf (.suspendComplete 0 0 0)
    ∧ ¬ Instr.wf (.suspendComplete 7 0 0) ∧ ¬ Instr.wf (.codecFrame 4 0) ∧ ¬ Instr.wf (.codecFrame 0 2)
    ∧ ¬ Instr.wf (.afterglowImageSwitch (2 ^ 31)) ∧ ¬ Instr.wf (.hotChannelWindow 256 [] 0 0) := by decide +kernel

theorem test_ill_formed_ports :
    ¬ Instr.wf (.registerWrite 16 0 4 0) ∧ ¬ Instr.wf (.registerWrite 0 (2 ^ 25) 4 0) ∧ ¬ Instr.wf (.registerWrite 0 0 3 0)
    ∧ ¬ Instr.wf (.hubTimeLoRead 0 16) ∧ ¬ Instr.wf (.queueEnable 0 4096 0) ∧ ¬ Instr.wf (.submit 4096)
    ∧ ¬ Instr.wf (.linkEnableWrite 64 0) ∧ ¬ Instr.wf (.laneLockLost 0 4) ∧ ¬ Instr.wf (.packetForward 0 0 0 16)
    ∧ ¬ Instr.wf (.remoteRequestTimeout 4096) ∧ ¬ Instr.wf (.linkTrain 0 ⟨.good, .good, .good, .good, false, false, false, 4⟩)
    ∧ ¬ Instr.wf (.causewayCrcFail 32 true) ∧ ¬ Instr.wf (.hdmDecoderCommit 2 0 0 0) ∧ ¬ Instr.wf (.cxlLinkRetrain 17 0)
    ∧ ¬ Instr.wf (.getCerts (.vf 0)) ∧ ¬ Instr.wf (.getCerts (.vf 16)) ∧ ¬ Instr.wf (.getCerts (.levee 64))
    ∧ ¬ Instr.wf (.lanternRestartDone 40) ∧ ¬ Instr.wf (.dimmSupplyFault 8 0) ∧ ¬ Instr.wf (.pllUnlock 9 0 0)
    ∧ ¬ Instr.wf (.memoryTrain { badStacks := [16], badChannels := [] }) ∧ ¬ Instr.wf (.memoryTrain { badStacks := [], badChannels := [8] })
    ∧ ¬ Instr.wf (.startupSelftest [192] []) ∧ ¬ Instr.wf (.startupSelftest [] [20]) := by decide +kernel

theorem test_ill_formed_units :
    (∀ p ∈ [SramPlace.slotStore 192 0, .slotStore 0 4, .clearBlock 192, .icache 192 0 0, .icache 0 65536 0, .homeCache 8, .pageQueue 0 4,
        .sharedClean 8, .sharedDirty 8 0, .sharedDirty 0 (2 ^ 52), .sfuBank 192, .replayCauseway 32, .replayLevee 64, .lantern 38],
      ¬ Instr.wf (.sramEccError p true))
    ∧ (∀ p ∈ [MemPlace.word (2 ^ 52), .homeEntry (2 ^ 31)], ¬ Instr.wf (.memEccError p false))
    ∧ (∀ u ∈ [TestUnit.link 64, .codec 4 0, .codec 0 2, .sluice 2 0, .sluice 0 4, .collective 4 0, .collective 0 4, .sfuTables 192],
      ¬ Instr.wf (.unitTest u true)) := by decide +kernel

/-! ### The manual's worked examples, and results worked out by hand -/

/-- The state that an outcome leaves. -/
def left (o : Outcome State Fault Refusal) : State :=
  match o with
  | .next t => t
  | _ => State.reset

/-- Chapter 1, "locating two stack addresses": h = 1, with salt 3 h = 2; and ST7 in the window of CD3. -/
theorem test_stack_interleave :
    State.reset.stackOf 0x12345000 0 = 1 ∧ State.reset.stackOf 0x12345000 3 = 2 ∧ State.reset.stackOf 0xD800403000 0 = 7 := by
  decide +kernel

/-- Chapter 1: on package 5 a P of 0 is local, a P of 7 names package 7, and the issuer's own ID package 0. -/
theorem test_package_names :
    (let s : State := { State.reset with hub := { pkgAssigned := true, pkgId := 5 } }
     s.remoteOf 0x000000D800000000 = none ∧ s.remoteOf 0x007000D800000000 = some 7 ∧ s.remoteOf 0x005000D800000000 = some 0) := by
  decide +kernel

/-- Chapter 17, "following a fence from the registers". -/
def fenced89 : State :=
  { up with cores := [(89, { health := { fenced := true, lastTest := 2, fenceReason := 3, windowCount := 3 } })] }

theorem test_fence_registers :
    fenced89.regWord 0 0x14 = 0x800817E0 ∧ fenced89.regWord 0 0x10C = 0x40030100 ∧ fenced89.regWord 0 0x205900 = 0xA3030000 := by
  decide +kernel

/-- Chapter 19, "a host limit of 3,000 W under full load": the step at 2 ms, the last step, and none after it. -/
def limited (tensor : Nat) : State := { served with power := { host := 3000, tensor := tensor } }

theorem test_power_steps :
    (left (exec (.powerLoopTick 3206) (limited 32))).power.tensor = 31 ∧ (left (exec (.powerLoopTick 3037) (limited 28))).power.tensor = 27
    ∧ (left (exec (.powerLoopTick 2994) (limited 27))).power.tensor = 27 := by decide +kernel

/-- R110, R111: the sum wraps; a shift takes its count modulo 64; division by 0 gives all ones; the high half of the square
of -1 is 0 signed, and 2^64 - 2 unsigned. -/
def pair (x y : Word) : State := withSlot { run1 with s := [(1, x), (2, y)] }

theorem test_scalar :
    ((left (exec (.add at0 .reg (fl 3 1 2 0)) (pair 0xFFFFFFFFFFFFFFFF 2))).at_ at0).rs 3 = 1
    ∧ ((left (exec (.sub at0 .reg (fl 1 1 2 0)) (pair 1 2))).at_ at0).rs 1 = 0xFFFFFFFFFFFFFFFF
    ∧ ((left (exec (.sll at0 .reg (fl 3 1 2 0)) (pair 1 65))).at_ at0).rs 3 = 2
    ∧ ((left (exec (.divu at0 .reg (fl 3 1 2 0)) (pair 7 0))).at_ at0).rs 3 = 0xFFFFFFFFFFFFFFFF
    ∧ ((left (exec (.rem at0 .reg (fl 3 1 2 0)) (pair 0xFFFFFFFFFFFFFFF9 2))).at_ at0).rs 3 = 0xFFFFFFFFFFFFFFFF
    ∧ ((left (exec (.mulh at0 .reg (fl 3 1 1 0)) (pair 0xFFFFFFFFFFFFFFFF 0))).at_ at0).rs 3 = 0
    ∧ ((left (exec (.mulhu at0 .reg (fl 3 1 1 0)) (pair 0xFFFFFFFFFFFFFFFF 0))).at_ at0).rs 3 = 0xFFFFFFFFFFFFFFFE := by
  decide +kernel

/-- R110: a negative immediate is sign-extended; register 0 reads 0 and a write of it is dropped. -/
theorem test_scalar_forms :
    ((left (exec (.add at0 .imm (fl 3 1 0 0 0xFFFFFFFF)) (pair 5 0))).at_ at0).rs 3 = 4
    ∧ ((left (exec (.add at0 .reg (fl 0 1 2 0)) (pair 5 6))).at_ at0).rs 0 = 0
    ∧ ((left (exec (.slt at0 .reg (fl 3 1 2 0)) (pair 0xFFFFFFFFFFFFFFFF 1))).at_ at0).rs 3 = 1
    ∧ ((left (exec (.sltu at0 .reg (fl 3 1 2 0)) (pair 0xFFFFFFFFFFFFFFFF 1))).at_ at0).rs 3 = 0 := by decide +kernel

/-- R132: a post adds to the count of the semaphore that it names. -/
theorem test_sem_post :
    ((left (exec (.semPost at0 (fl 0 0 1 0 17)) (pair 3 0))).sem 1 17).value = 3 := by decide +kernel

end Sys2Proof.Tests
end

namespace Sys2Proof.Machine
open Host

/-! ### The dispatch and the step (R1) -/

variable {s0 s : State}

/-- No command stops the block, and none changes the variant, the queue's rest or the form of device memory: the lemmas of
the meanings, collected along the dispatch. -/
theorem exec_keeps (h : Keeps s0 s) (c : Instr) : ∃ t, exec c s = .next t ∧ Keeps s0 t := by
  cases c with
  | add => exact execAdd_keeps h
  | sub => exact execSub_keeps h
  | and => exact execAnd_keeps h
  | or => exact execOr_keeps h
  | xor => exact execXor_keeps h
  | sll => exact execSll_keeps h
  | srl => exact execSrl_keeps h
  | sra => exact execSra_keeps h
  | slt => exact execSlt_keeps h
  | sltu => exact execSltu_keeps h
  | min => exact execMin_keeps h
  | max => exact execMax_keeps h
  | mul => exact execMul_keeps h
  | mulh => exact execMulh_keeps h
  | mulhu => exact execMulhu_keeps h
  | div => exact execDiv_keeps h
  | divu => exact execDivu_keeps h
  | rem => exact execRem_keeps h
  | remu => exact execRemu_keeps h
  | movi => exact execMovi_keeps h
  | movhi => exact execMovhi_keeps h
  | movSd => exact execMovSd_keeps h
  | movDs => exact execMovDs_keeps h
  | movSa => exact execMovSa_keeps h
  | movAs => exact execMovAs_keeps h
  | movVs => exact execMovVs_keeps h
  | movSv => exact execMovSv_keeps h
  | movPs => exact execMovPs_keeps h
  | movSp => exact execMovSp_keeps h
  | info => exact execInfo_keeps h
  | scalarLoad => exact execScalarLoad_keeps h
  | scalarStore => exact execScalarStore_keeps h
  | amoadd => exact execAmoadd_keeps h
  | amoswap => exact execAmoswap_keeps h
  | amocas => exact execAmocas_keeps h
  | amomax => exact execAmomax_keeps h
  | amomin => exact execAmomin_keeps h
  | beq => exact execBeq_keeps h
  | bne => exact execBne_keeps h
  | blt => exact execBlt_keeps h
  | bge => exact execBge_keeps h
  | bltu => exact execBltu_keeps h
  | bgeu => exact execBgeu_keeps h
  | jal => exact execJal_keeps h
  | jalr => exact execJalr_keeps h
  | illegalOpcode => exact execIllegalOpcode_keeps h
  | fadd => exact execFadd_keeps h
  | fsub => exact execFsub_keeps h
  | fmul => exact execFmul_keeps h
  | fma => exact execFma_keeps h
  | fms => exact execFms_keeps h
  | fnma => exact execFnma_keeps h
  | fmin => exact execFmin_keeps h
  | fmax => exact execFmax_keeps h
  | fabs => exact execFabs_keeps h
  | fneg => exact execFneg_keeps h
  | fcvtW => exact execFcvtW_keeps h
  | fcvtS => exact execFcvtS_keeps h
  | bpack => exact execBpack_keeps h
  | bunpkL => exact execBunpkL_keeps h
  | bunpkH => exact execBunpkH_keeps h
  | cmpEq => exact execCmpEq_keeps h
  | cmpNe => exact execCmpNe_keeps h
  | cmpLt => exact execCmpLt_keeps h
  | cmpLe => exact execCmpLe_keeps h
  | cmpUnord => exact execCmpUnord_keeps h
  | cmpLtu => exact execCmpLtu_keeps h
  | iadd => exact execIadd_keeps h
  | isub => exact execIsub_keeps h
  | imul => exact execImul_keeps h
  | iand => exact execIand_keeps h
  | ior => exact execIor_keeps h
  | ixor => exact execIxor_keeps h
  | ishl => exact execIshl_keeps h
  | ishr => exact execIshr_keeps h
  | isar => exact execIsar_keeps h
  | imin => exact execImin_keeps h
  | imax => exact execImax_keeps h
  | iminu => exact execIminu_keeps h
  | imaxu => exact execImaxu_keeps h
  | vbcast => exact execVbcast_keeps h
  | vsel => exact execVsel_keeps h
  | viota => exact execViota_keeps h
  | vmov => exact execVmov_keeps h
  | vld => exact execVld_keeps h
  | vldW => exact execVldW_keeps h
  | vst => exact execVst_keeps h
  | vstN => exact execVstN_keeps h
  | vperm => exact execVperm_keeps h
  | vrot => exact execVrot_keeps h
  | vzip => exact execVzip_keeps h
  | vunzip => exact execVunzip_keeps h
  | vtrans32 => exact execVtrans32_keeps h
  | vgather => exact execVgather_keeps h
  | vscatter => exact execVscatter_keeps h
  | pand => exact execPand_keeps h
  | por => exact execPor_keeps h
  | pxor => exact execPxor_keeps h
  | pandn => exact execPandn_keeps h
  | pnot => exact execPnot_keeps h
  | pset => exact execPset_keeps h
  | pclr => exact execPclr_keeps h
  | pfirst => exact execPfirst_keeps h
  | pcount => exact execPcount_keeps h
  | pany => exact execPany_keeps h
  | rsum => exact execRsum_keeps h
  | rmax => exact execRmax_keeps h
  | rmin => exact execRmin_keeps h
  | rsumsq => exact execRsumsq_keeps h
  | irsum => exact execIrsum_keeps h
  | argmax => exact execArgmax_keeps h
  | argmin => exact execArgmin_keeps h
  | dmaLd => exact execDmaLd_keeps h
  | dmaSt => exact execDmaSt_keeps h
  | dmaBb => exact execDmaBb_keeps h
  | cvt => exact execCvt_keeps h
  | mcopy => exact execMcopy_keeps h
  | mfill => exact execMfill_keeps h
  | fence => exact execFence_keeps h
  | semPost => exact execSemPost_keeps h
  | semWait => exact execSemWait_keeps h
  | semWaitge => exact execSemWaitge_keeps h
  | semSet => exact execSemSet_keeps h
  | semRead => exact execSemRead_keeps h
  | semWaitTimeout => exact execSemWaitTimeout_keeps h
  | barSync => exact execBarSync_keeps h
  | waitEng => exact execWaitEng_keeps h
  | nop => exact execNop_keeps h
  | trap => exact execTrap_keeps h
  | cntRead => exact execCntRead_keeps h
  | time => exact execTime_keeps h
  | endTask => exact execEndTask_keeps h
  | stest => exact execStest_keeps h
  | tmm => exact execTmm_keeps h
  | tensorTileRun => exact execTensorTileRun_keeps h
  | taccZero => exact execTaccZero_keeps h
  | taccSt => exact execTaccSt_keeps h
  | taccLd => exact execTaccLd_keeps h
  | taccVrd => exact execTaccVrd_keeps h
  | taccVwr => exact execTaccVwr_keeps h
  | exp => exact execExp_keeps h
  | exp2 => exact execExp2_keeps h
  | log => exact execLog_keeps h
  | log2 => exact execLog2_keeps h
  | rcp => exact execRcp_keeps h
  | rsqrt => exact execRsqrt_keeps h
  | sqrt => exact execSqrt_keeps h
  | sin => exact execSin_keeps h
  | cos => exact execCos_keeps h
  | tanh => exact execTanh_keeps h
  | sigmoid => exact execSigmoid_keeps h
  | erf => exact execErf_keeps h
  | gelu => exact execGelu_keeps h
  | geluT => exact execGeluT_keeps h
  | silu => exact execSilu_keeps h
  | softplus => exact execSoftplus_keeps h
  | dgelu => exact execDgelu_keeps h
  | dgeluT => exact execDgeluT_keeps h
  | dsoftplus => exact execDsoftplus_keeps h
  | dsilu => exact execDsilu_keeps h
  | gate => exact execGate_keeps h
  | normFwd => exact execNormFwd_keeps h
  | smaxFwd => exact execSmaxFwd_keeps h
  | normBwd => exact execNormBwd_keeps h
  | smaxBwd => exact execSmaxBwd_keeps h
  | rowCommandRow => exact execRowCommandRow_keeps h
  | conv => exact execConv_keeps h
  | maxpool => exact execMaxpool_keeps h
  | avgpool => exact execAvgpool_keeps h
  | dwconv => exact execDwconv_keeps h
  | convPass => exact execConvPass_keeps h
  | penumbraTimeout => exact execPenumbraTimeout_keeps h
  | attnFwd => exact execAttnFwd_keeps h
  | attnBwdKv => exact execAttnBwdKv_keeps h
  | attnBwdQ => exact execAttnBwdQ_keeps h
  | attnMerge => exact execAttnMerge_keeps h
  | attnStep => exact execAttnStep_keeps h
  | pageWrite => exact execPageWrite_keeps h
  | pageShare => exact execPageShare_keeps h
  | pageDrop => exact execPageDrop_keeps h
  | pageSeal => exact execPageSeal_keeps h
  | frameFreeAfterWalk => exact execFrameFreeAfterWalk_keeps h
  | pageWalk => exact execPageWalk_keeps h
  | pageFetchDeadline => exact execPageFetchDeadline_keeps h
  | pageWaitLimit => exact execPageWaitLimit_keeps h
  | tierUp => exact execTierUp_keeps h
  | tierDown => exact execTierDown_keeps h
  | tierWhere => exact execTierWhere_keeps h
  | collAllreduce => exact execCollAllreduce_keeps h
  | collRedscat => exact execCollRedscat_keeps h
  | collAllgather => exact execCollAllgather_keeps h
  | collAlltoall => exact execCollAlltoall_keeps h
  | collBcast => exact execCollBcast_keeps h
  | collComplete => exact execCollComplete_keeps h
  | collJoinTimeout => exact execCollJoinTimeout_keeps h
  | collAbortIn => exact execCollAbortIn_keeps h
  | engineDispatch => exact execEngineDispatch_keeps h
  | claimGrant => exact execClaimGrant_keeps h
  | icacheFill => exact execIcacheFill_keeps h
  | completionPost => exact execCompletionPost_keeps h
  | coreCtxIdWrite => exact execCoreCtxIdWrite_keeps h
  | coreCtxAllotWrite => exact execCoreCtxAllotWrite_keeps h
  | registerWrite => exact execRegisterWrite_keeps h
  | rcRegisterRead => exact execRcRegisterRead_keeps h
  | hubTimeLoRead => exact execHubTimeLoRead_keeps h
  | hubStackSplitWrite => exact execHubStackSplitWrite_keeps h
  | hubPkgIdWrite => exact execHubPkgIdWrite_keeps h
  | hubVfPolderWrite => exact execHubVfPolderWrite_keeps h
  | coreFenceCmd => exact execCoreFenceCmd_keeps h
  | coreUnfenceCmd => exact execCoreUnfenceCmd_keeps h
  | polderCtrlWrite => exact execPolderCtrlWrite_keeps h
  | polderSaltWrite => exact execPolderSaltWrite_keeps h
  | dikeRegisterWrite => exact execDikeRegisterWrite_keeps h
  | dikeWindow => exact execDikeWindow_keeps h
  | linkEnableWrite => exact execLinkEnableWrite_keeps h
  | linkRecalReq => exact execLinkRecalReq_keeps h
  | linkRecalDrained => exact execLinkRecalDrained_keeps h
  | linkRetrainReq => exact execLinkRetrainReq_keeps h
  | queueOwnerWrite => exact execQueueOwnerWrite_keeps h
  | queueEnable => exact execQueueEnable_keeps h
  | queueDisable => exact execQueueDisable_keeps h
  | dbSqTail => exact execDbSqTail_keeps h
  | dbCqHead => exact execDbCqHead_keeps h
  | msixCoalesceTimer => exact execMsixCoalesceTimer_keeps h
  | eventSelectWrite => exact execEventSelectWrite_keeps h
  | eventCtrlWrite => exact execEventCtrlWrite_keeps h
  | eventData7Read => exact execEventData7Read_keeps h
  | pwrHostLimitWrite => exact execPwrHostLimitWrite_keeps h
  | submit => exact execSubmit_keeps h
  | suspend => exact execSuspend_keeps h
  | suspendComplete => exact execSuspendComplete_keeps h
  | resume => exact execResume_keeps h
  | cancel => exact execCancel_keeps h
  | progress => exact execProgress_keeps h
  | release => exact execRelease_keeps h
  | codeLoad => exact execCodeLoad_keeps h
  | codeUnload => exact execCodeUnload_keeps h
  | objCreate => exact execObjCreate_keeps h
  | objDestroy => exact execObjDestroy_keeps h
  | move => exact execMove_keeps h
  | biasSet => exact execBiasSet_keeps h
  | hostPoolAdd => exact execHostPoolAdd_keeps h
  | cachesetCreate => exact execCachesetCreate_keeps h
  | cachesetDestroy => exact execCachesetDestroy_keeps h
  | batchqCreate => exact execBatchqCreate_keeps h
  | batchqDestroy => exact execBatchqDestroy_keeps h
  | encOpen => exact execEncOpen_keeps h
  | encClose => exact execEncClose_keeps h
  | routeLoad => exact execRouteLoad_keeps h
  | exportLoad => exact execExportLoad_keeps h
  | groupCreate => exact execGroupCreate_keeps h
  | groupDestroy => exact execGroupDestroy_keeps h
  | selftest => exact execSelftest_keeps h
  | tableReload => exact execTableReload_keeps h
  | entryBad => exact execEntryBad_keeps h
  | sfuTableBankWrite => exact execSfuTableBankWrite_keeps h
  | sfuTableFlip => exact execSfuTableFlip_keeps h
  | taskPlace => exact execTaskPlace_keeps h
  | stripedStagePlace => exact execStripedStagePlace_keeps h
  | stripedStageReserve => exact execStripedStageReserve_keeps h
  | jobComplete => exact execJobComplete_keeps h
  | jobTeardown => exact execJobTeardown_keeps h
  | taskMove => exact execTaskMove_keeps h
  | corePowerOff => exact execCorePowerOff_keeps h
  | codecPowerOff => exact execCodecPowerOff_keeps h
  | refreshBegin => exact execRefreshBegin_keeps h
  | refreshBeginDurable => exact execRefreshBeginDurable_keeps h
  | refreshStageFlip => exact execRefreshStageFlip_keeps h
  | refreshCommitDurable => exact execRefreshCommitDurable_keeps h
  | refreshTimerExpiry => exact execRefreshTimerExpiry_keeps h
  | sluiceMark => exact execSluiceMark_keeps h
  | sluiceDrained => exact execSluiceDrained_keeps h
  | sluiceCopyDone => exact execSluiceCopyDone_keeps h
  | sluiceSourceFree => exact execSluiceSourceFree_keeps h
  | sluiceCopy => exact execSluiceCopy_keeps h
  | afterglowImageSwitch => exact execAfterglowImageSwitch_keeps h
  | hotChannelWindow => exact execHotChannelWindow_keeps h
  | sampleRequestTake => exact execSampleRequestTake_keeps h
  | decodeStart => exact execDecodeStart_keeps h
  | codecFrame => exact execCodecFrame_keeps h
  | sampleComplete => exact execSampleComplete_keeps h
  | sampleDeadlineExpiry => exact execSampleDeadlineExpiry_keeps h
  | batchAssemble => exact execBatchAssemble_keeps h
  | encFrameTake => exact execEncFrameTake_keeps h
  | encodeFrame => exact execEncodeFrame_keeps h
  | encodeCloseComplete => exact execEncodeCloseComplete_keeps h
  | hostMemRead => exact execHostMemRead_keeps h
  | hostMemWrite => exact execHostMemWrite_keeps h
  | hdmDecoderCommit => exact execHdmDecoderCommit_keeps h
  | cxlLinkRetrain => exact execCxlLinkRetrain_keeps h
  | hostAccessTimeout => exact execHostAccessTimeout_keeps h
  | vfFlr => exact execVfFlr_keeps h
  | pfFlr => exact execPfFlr_keeps h
  | perstAssert => exact execPerstAssert_keeps h
  | remoteAccessIn => exact execRemoteAccessIn_keeps h
  | packetForward => exact execPacketForward_keeps h
  | remoteRequestTimeout => exact execRemoteRequestTimeout_keeps h
  | flitCrcFail => exact execFlitCrcFail_keeps h
  | flitNakReceived => exact execFlitNakReceived_keeps h
  | linkTrain => exact execLinkTrain_keeps h
  | linkTrainAttemptTimeout => exact execLinkTrainAttemptTimeout_keeps h
  | linkIdentComplete => exact execLinkIdentComplete_keeps h
  | laneLockLost => exact execLaneLockLost_keeps h
  | fecRateWindow => exact execFecRateWindow_keeps h
  | linkLossTimeout => exact execLinkLossTimeout_keeps h
  | cablePresenceChange => exact execCablePresenceChange_keeps h
  | causewayCrcFail => exact execCausewayCrcFail_keeps h
  | sramEccError => exact execSramEccError_keeps h
  | memEccError => exact execMemEccError_keeps h
  | patrolScrub => exact execPatrolScrub_keeps h
  | fenceWindowExpiry => exact execFenceWindowExpiry_keeps h
  | coreTest => exact execCoreTest_keeps h
  | unitTest => exact execUnitTest_keeps h
  | lanternWatchdogExpiry => exact execLanternWatchdogExpiry_keeps h
  | lanternRestartDone => exact execLanternRestartDone_keeps h
  | hubHeartbeatTimeout => exact execHubHeartbeatTimeout_keeps h
  | pairOutputMismatch => exact execPairOutputMismatch_keeps h
  | wardenPairRestartDone => exact execWardenPairRestartDone_keeps h
  | regionFirmwareSwitch => exact execRegionFirmwareSwitch_keeps h
  | dieFirmwareSwitch => exact execDieFirmwareSwitch_keeps h
  | hubUpdateRestart => exact execHubUpdateRestart_keeps h
  | firmwareRevert => exact execFirmwareRevert_keeps h
  | eventPost => exact execEventPost_keeps h
  | powerLoopTick => exact execPowerLoopTick_keeps h
  | overcurrentTrip => exact execOvercurrentTrip_keeps h
  | thermalTermUpdate => exact execThermalTermUpdate_keeps h
  | flowLowSustained => exact execFlowLowSustained_keeps h
  | thermalHoldExpiry => exact execThermalHoldExpiry_keeps h
  | sensorSample => exact execSensorSample_keeps h
  | inputReversed => exact execInputReversed_keeps h
  | inputUndervolt => exact execInputUndervolt_keeps h
  | mainPowerLost => exact execMainPowerLost_keeps h
  | inputOvervolt => exact execInputOvervolt_keeps h
  | inputOvervoltTrip => exact execInputOvervoltTrip_keeps h
  | inputRecovered => exact execInputRecovered_keeps h
  | standbyLost => exact execStandbyLost_keeps h
  | dimmSupplyFault => exact execDimmSupplyFault_keeps h
  | mgmtBusRecovered => exact execMgmtBusRecovered_keeps h
  | pllUnlock => exact execPllUnlock_keeps h
  | mgmtPowerLimit => exact execMgmtPowerLimit_keeps h
  | coreReset => exact execCoreReset_keeps h
  | regionReset => exact execRegionReset_keeps h
  | dieReset => exact execDieReset_keeps h
  | dieResetTimeout => exact execDieResetTimeout_keeps h
  | warmReset => exact execWarmReset_keeps h
  | coldReset => exact execColdReset_keeps h
  | wardenStart => exact execWardenStart_keeps h
  | railSequence => exact execRailSequence_keeps h
  | slotVerify => exact execSlotVerify_keeps h
  | cxlReady => exact execCxlReady_keeps h
  | memoryTrain => exact execMemoryTrain_keeps h
  | startupSelftest => exact execStartupSelftest_keeps h
  | startupLinkTrain => exact execStartupLinkTrain_keeps h
  | jobManagerOpen => exact execJobManagerOpen_keeps h
  | getCerts => exact execGetCerts_keeps h
  | attest => exact execAttest_keeps h
  | spdmRequest => exact execSpdmRequest_keeps h
  | slotStatus => exact execSlotStatus_keeps h
  | portStats => exact execPortStats_keeps h
  | slotWrite => exact execSlotWrite_keeps h
  | activate => exact execActivate_keeps h
  | svnCommit => exact execSvnCommit_keeps h
  | debugChallenge => exact execDebugChallenge_keeps h
  | debugUnlock => exact execDebugUnlock_keeps h
  | debugUnlockExpiry => exact execDebugUnlockExpiry_keeps h
  | jtagAccess => exact execJtagAccess_keeps h
  | decommission => exact execDecommission_keeps h
  | dikeTokenAccrual => exact execDikeTokenAccrual_keeps h
  | perstDeassert => exact execPerstDeassert_keeps h
  | pmPowerStateWrite => exact execPmPowerStateWrite_keeps h
  | vfEnableSet => exact execVfEnableSet_keeps h
  | cxlCacheSnoop => exact execCxlCacheSnoop_keeps h
  | dieBackInService => exact execDieBackInService_keeps h
  | regionBackInService => exact execRegionBackInService_keeps h

/-- The step keeps of its state, with the queue's rest in place of the queue, what its command keeps. -/
theorem step_keeps (s : State) : ∃ t, step s = .next t ∧ Keeps { s with pending := s.pending.tail } t := by
  unfold step
  split
  next hp => exact ⟨_, rfl, rfl, by simp [hp], id⟩
  next c rest hp =>
    rw [hp, List.tail_cons]
    exact exec_keeps (.refl _) c

/-- Settles O2: every meaning answers a next state and keeps variant and queue (`exec_keeps`), and the step runs it on the
queue's rest. -/
theorem variantAndQueue : Obligations.VariantAndQueue := by
  intro s
  obtain ⟨t, ht, hk⟩ := step_keeps s
  exact ⟨t, ht, hk.variant, hk.pending⟩

/-! ### HUB_CAPS0 (R1) -/

/-- A read of an aligned word of BAR0 (R499) answers the register's value. -/
theorem readReg_word {fn off : Nat} (h : s.fnOpen fn = true) (ho : off % 4 = 0) :
    s.readReg fn off 4 = (s.readWord fn off).1.answerReg (s.regWord fn off) := by
  simp [State.readReg, State.readWord, h, ho]

/-- A write of an aligned word of BAR0 (R499) reaches the register. -/
theorem writeReg_word {fn off : Nat} (h : s.fnOpen fn = true) (ho : off % 4 = 0) (v : Nat) :
    s.writeReg fn off 4 v = s.putWord fn off (v % 2 ^ 32) := by
  simp [State.writeReg, h, ho]

/-- Every function shows HUB_CAPS0 at its PF0 offset (R466, R467). -/
theorem regWord_caps0 (s : State) (fn : Nat) : s.regWord fn 0x10 = s.variant.caps0 := by
  have hword : (if fn = 0 then s.pfWord 0x10 else s.vfRegWord fn 0x10) = s.variant.caps0 := by
    simp [State.pfWord, State.vfRegWord, State.hubWord]
  have hlt : s.variant.caps0 < 2 ^ 32 := by cases s.variant <;> decide
  rw [State.regWord, hword, Nat.mod_eq_of_lt hlt]

/-- HUB_CAPS0 is read-only (R1), for PF0 and for a VF. -/
theorem putWord_caps0 (s : State) (fn w : Nat) : s.putWord fn 0x10 w = s := by
  simp [State.putWord, State.pfPut, State.hubPutReg, State.vfPut]

/-- Settles O55: the value that `regWord_caps0` names, variant by variant, and the write that `putWord_caps0` drops. -/
theorem capabilities : Obligations.Capabilities := by
  intro s fn v h
  refine ⟨⟨s.readReg fn 0x10 4, rfl, ?_⟩, ?_⟩
  · rw [readReg_word h rfl, regWord_caps0]
    rfl
  · exact congrArg Outcome.next ((writeReg_word h rfl _).trans (putWord_caps0 s fn _))

end Sys2Proof.Machine

namespace Sys2Proof.Machine
open Host

/-! ### What a fold of updates leaves of the state -/

/-- A part of the state that each step of a fold leaves alone is left alone by the fold. -/
theorem foldl_leaves {α β : Type} {g : State → β} {f : State → α → State} (hf : ∀ s x, g (f s x) = g s) (l : List α)
    (s : State) : g (l.foldl f s) = g s := by
  induction l generalizing s with
  | nil => rfl
  | cons x l ih => exact (ih (f s x)).trans (hf s x)

/-! ### Events posted and numbered (R451, R453) -/

@[simp] theorem journalAdd_halted (v : Events) (e : Ev) : (v.journalAdd e).halted = v.halted := by
  unfold Events.journalAdd
  split
  · rfl
  · split <;> rfl

/-- While the pair runs and the journal has room, a record joins its end. -/
theorem journalAdd_room {v : Events} (hh : v.halted = false) (hl : v.journal.length < 8192) (e : Ev) :
    v.journalAdd e = { v with journal := v.journal ++ [e] } := by
  simp [Events.journalAdd, hh, hl]

theorem foldl_journalAdd_room {v : Events} {l : List Ev} (hh : v.halted = false)
    (hl : v.journal.length + l.length ≤ 8192) : l.foldl Events.journalAdd v = { v with journal := v.journal ++ l } := by
  induction l generalizing v with
  | nil => simp
  | cons e l ih =>
    rw [List.length_cons] at hl
    have hroom : (v.journal ++ [e]).length + l.length ≤ 8192 := by
      rw [List.length_append, List.length_singleton]
      omega
    rw [List.foldl_cons, journalAdd_room hh (by omega), ih (v := { v with journal := v.journal ++ [e] }) hh hroom]
    simp

/-- A post changes the events alone, and neither halts the pair nor ends its restart. -/
theorem post_eq_setEv (s : State) (e : Ev) : ∃ v, s.post e = s.setEv v ∧ v.halted = s.ev.halted := by
  unfold State.post
  dsimp only
  split
  · exact ⟨_, rfl, rfl⟩
  · split
    · exact ⟨_, rfl, journalAdd_halted ..⟩
    · split <;> exact ⟨_, rfl, rfl⟩

@[simp] theorem post_leaves (s : State) (e : Ev) :
    (s.post e).time = s.time ∧ (s.post e).portsDown = s.portsDown ∧ (s.post e).dep = s.dep
      ∧ (s.post e).ev.halted = s.ev.halted := by
  obtain ⟨v, hv, hh⟩ := post_eq_setEv s e
  rw [hv]
  exact ⟨rfl, rfl, rfl, hh⟩

/-- With no event detected there is nothing to number. -/
theorem numberAll_none {s : State} (h : s.ev.detected = []) : s.numberAll = s := by
  have hev : { s.ev with detected := [] } = s.ev := by rw [← h]
  unfold State.numberAll
  rw [h, hev]
  exact ite_self _

/-! ### Core, region and die resets (R13, R17, R67, R501, R507, R549) -/

theorem core_freshCore (s : State) (c : Nat) : (s.freshCore c).core c = (s.core c).fresh := by
  rw [State.freshCore, core_setCore, if_pos rfl]

/-- After its reset a region is held out, and its lantern runs with no expiry to its count. -/
theorem resetRegion_self (s : State) (r : Nat) :
    ((s.resetRegion r).region r).resetting = true ∧ (s.resetRegion r).lanternDown r = false
      ∧ mapGet 0 (s.resetRegion r).dep.expiry r = 0 := by
  refine ⟨?_, mapGet_mapSet_self .., mapGet_mapSet_self ..⟩
  exact congrArg Region.resetting (mapGet_mapSet_self ..)

/-- A region in service on a die in service is emptied, then reset. -/
theorem regionReset_inService {s : State} {r : Nat} (h : r < 16) (hr : (s.region r).resetting = false)
    (hd : (s.die (r / 2)).resetting = false) : s.regionReset r = (s.emptyRegion r false true).resetRegion r := by
  simp [State.regionReset, hr, hd, Nat.not_le.mpr h]

theorem stopMedia_none {s : State} (he : s.media.encs = []) (hq : s.media.queues = []) (k : Nat) : s.stopMedia k = s := by
  simp [State.stopMedia, he, hq]

@[simp] theorem freshPages_leaves (s : State) (d : Nat) :
    (s.freshPages d).dies = s.dies ∧ (s.freshPages d).mem = s.mem := by
  unfold State.freshPages
  dsimp only
  split <;> exact ⟨rfl, rfl⟩

@[simp] theorem freshLanterns_leaves (s : State) (d : Nat) :
    (s.freshLanterns d).dies = s.dies ∧ (s.freshLanterns d).mem = s.mem :=
  ⟨foldl_leaves (g := State.dies) (by intros; rfl) _ s, foldl_leaves (g := State.mem) (by intros; rfl) _ s⟩

/-- A media die without streams: its reset is counted, its pages and its lanterns start anew. -/
theorem startDieReset_media {s : State} {d : Nat} (h8 : 8 ≤ d) (hC : d < 0x0C) (hup : s.dieUp d = true)
    (he : s.media.encs = []) (hq : s.media.queues = []) :
    s.startDieReset d = ((s.setDie d { s.die d with
      resetting := true, resets := satAdd 8 (s.die d).resets 1 }).freshPages d).freshLanterns d := by
  have h12 : ¬ 0x12 ≤ d := by omega
  have h10 : ¬ 0x10 ≤ d := by omega
  have hlt : ¬ d < 8 := by omega
  simp [State.startDieReset, hup, h12, h10, hlt, hC, stopMedia_none, he, hq]

/-- A die below the tier dies goes out of service with the memory tiers as they are. -/
theorem dieOut_below {d : Nat} (h : d < 0x10) (s : State) :
    s.dieOut d = s.setDie d { s.die d with out := true, resetting := false } := by
  simp [State.dieOut, Nat.not_le.mpr h]

/-! ### Warm and cold resets (R453, R494, R495, R501, R549, R558) -/

/-- Before P2 a warm reset finds nothing to reset. -/
theorem warmReset_early {s : State} (h : s.boot.done % 4 ≠ 3) : s.warmReset = s := by
  simp [State.warmReset, h]

/-- With no stream open, no event to number and no afterglow write to undo, a warm reset is its reset of the state. -/
theorem warmReset_quiet {s : State} (hb : s.boot.done % 4 = 3) (hm : s.power.mainOff = false)
    (hs : s.power.standbyOff = false) (hd : s.ev.detected = []) (he : s.media.encs = []) (hg : s.mem.glow = []) :
    s.warmReset = s.afterWarm := by
  simp [State.warmReset, State.undoAllGlow, hb, hm, hs, he, hg, numberAll_none hd]

/-- With no event to number and no refresh recorded, a cold reset under power is its reset of the state. -/
theorem coldReset_quiet {s : State} (hs : s.power.standbyOff = false) (hd : s.ev.detected = [])
    (hr : s.dep.refreshLog = []) : s.coldReset = s.afterCold := by
  have hrec : s.afterCold.dep.refreshLog = [] := hr
  have hopen : s.afterCold.coldRefreshes = s.afterCold := by
    rw [State.coldRefreshes, hrec]
    rfl
  simp [State.coldReset, hs, numberAll_none hd, hopen]

/-- Settles O45: each reset's equation (`regionReset_inService`, `startDieReset_media`, `dieOut_below`,
`warmReset_quiet`, `coldReset_quiet`, `warmReset_early`), read field by field. -/
theorem resets : Obligations.Resets := by
  refine ⟨fun s c r d => ⟨?core, ?region, ?regionBack, ?die, ?dieTimeout, ?dieBack, ?perst⟩,
    fun s => ⟨?warm, ?cold, ?perstOn⟩⟩
  case core =>
    intro hc
    exact ⟨_, congrArg Outcome.next (if_neg (Nat.not_le.mpr hc)), _, core_freshCore ..⟩
  case region =>
    intro h hr hd
    obtain ⟨hreset, hlantern, -⟩ := resetRegion_self (s.emptyRegion r false true) r
    exact ⟨_, congrArg Outcome.next (regionReset_inService h hr hd), hreset, hlantern⟩
  case regionBack =>
    intro hr hd
    exact congrArg Outcome.next (if_pos (by simp [hr, hd]))
  case die =>
    intro h8 hC hup he hq
    have hhub : s.dieReset d = s.startDieReset d := if_neg (by omega)
    refine ⟨_, congrArg Outcome.next (hhub.trans (startDieReset_media h8 hC hup he hq)), ?_⟩
    simp [State.die, State.setDie, satAdd]
  case dieTimeout =>
    intro hd h10
    exact congrArg Outcome.next ((if_pos hd).trans (dieOut_below h10 _))
  case dieBack =>
    intro hd h8
    have hlt : ¬ d < 8 := by omega
    refine congrArg Outcome.next ?_
    simp [hd, hlt]
  case perst =>
    intro hp
    exact congrArg Outcome.next (if_neg (by simp [hp]))
  case warm =>
    intro hb hm hs _ hd he hg
    refine ⟨_, congrArg Outcome.next (warmReset_quiet hb hm hs hd he hg), ?_⟩
    and_intros <;> rfl
  case cold =>
    intro hs _ hd hr
    refine ⟨_, congrArg Outcome.next ((if_neg (by simp [hs])).trans (coldReset_quiet hs hd hr)), ?_⟩
    and_intros <;> rfl
  case perstOn =>
    intro hb
    have hmem : s.warmReset.mem = s.mem := by rw [warmReset_early hb]
    exact ⟨_, rfl, rfl, rfl, rfl, hmem⟩

/-! ### Writes, completions and bias flips leave the lanterns (R440) -/

@[simp] theorem write_dep (s : State) (ctx a : Nat) (bs : List Byte) : (s.write ctx a bs).dep = s.dep := by
  refine foldl_leaves (g := State.dep) (fun s x => ?_) _ s
  dsimp only
  split <;> rfl

@[simp] theorem fillLine_dep (s : State) (write : Bool) (n : Nat) : (s.fillLine write n).dep = s.dep := by
  unfold State.fillLine
  dsimp only
  split <;> rfl

@[simp] theorem fillHost_dep (s : State) (write : Bool) (a len : Nat) : (s.fillHost write a len).dep = s.dep :=
  foldl_leaves (g := State.dep) (fun s n => fillLine_dep s write n) _ s

@[simp] theorem ringTouch_dep (s : State) (write : Bool) (v : Queue) (hi base len : Nat) :
    (s.ringTouch write v hi base len).dep = s.dep := by
  unfold State.ringTouch
  split
  · exact fillHost_dep ..
  · rfl

@[simp] theorem raise_dep (s : State) (fn v : Nat) : (s.raise fn v).dep = s.dep := by
  unfold State.raise
  dsimp only
  split <;> rfl

@[simp] theorem signal_dep (s : State) (q : Nat) : (s.signal q).dep = s.dep := by
  unfold State.signal
  dsimp only
  split
  · rfl
  · split
    · exact raise_dep ..
    · rfl

@[simp] theorem complete_dep (s : State) (r : Reply) (interim : Bool) (d : Done) : (s.complete r interim d).dep = s.dep := by
  unfold State.complete
  dsimp only
  split
  · rfl
  · simp

@[simp] theorem flipNow_dep (s : State) (f : BiasFlip) : (s.flipNow f).dep = s.dep := by
  unfold State.flipNow State.finish
  dsimp only
  cases f.reply with
  | none => split <;> rfl
  | some r => split <;> simp

@[simp] theorem settleFlips_dep (s : State) : s.settleFlips.dep = s.dep :=
  foldl_leaves (g := State.dep) flipNow_dep _ _

@[simp] theorem releaseHeld_dep (s : State) (x : Nat) : (s.releaseHeld x).dep = s.dep :=
  foldl_leaves (g := State.dep) (by intros; rfl) _ _

@[simp] theorem stopSluices_dep (s : State) (d : Nat) : (s.stopSluices d).dep = s.dep := by
  refine foldl_leaves (g := State.dep) (fun s e => ?_) _ s
  dsimp only
  split
  · simp
  · rfl

@[simp] theorem rewalkRegion_dep (s : State) (r : Nat) : (s.rewalkRegion r).dep = s.dep := by
  refine foldl_leaves (g := State.dep) (fun s c => ?_) _ s
  dsimp only
  split <;> rfl

/-! ### The causeway, the lanterns and the warden's pair (R30, R440 to R443) -/

/-- A failed resend that is not the sixteenth in a row is counted. -/
theorem portFail_counted {s : State} {p : Nat} (hp : p < 32) (hup : mapGet false s.portsDown p = false)
    (hk : mapGet 0 s.dep.resends p + 1 < 16) :
    s.portFail p = s.setDep { s.dep with resends := mapSet 0 s.dep.resends p (mapGet 0 s.dep.resends p + 1) } := by
  simp [State.portFail, hup, hk, Nat.not_le.mpr hp]

/-- The sixteenth failed resend in a row takes the port down. -/
theorem portFail_retires {s : State} {p : Nat} (hp : p < 32) (hup : mapGet false s.portsDown p = false)
    (hk : 16 ≤ mapGet 0 s.dep.resends p + 1) : mapGet false (s.portFail p).portsDown p = true := by
  simp [State.portFail, hup, Nat.not_lt.mpr hk, Nat.not_le.mpr hp]

@[simp] theorem setDep_dep (s : State) (v : Depend) : (s.setDep v).dep = v := rfl

/-- The restart of a lantern is the one thing it changes of what is kept of the lanterns. -/
@[simp] theorem lanternRestart_leaves (s : State) (n : Nat) :
    (s.lanternRestart n).dep = { s.dep with down := mapSet false s.dep.down n true }
      ∧ (s.lanternRestart n).time = s.time := by
  simp [State.lanternRestart, State.lanternEvent]

/-- The first expiry of a lantern's watchdog: it restarts, and the time is kept. -/
theorem lanternWatchdogExpiry_first {s : State} {n : Nat} (hn : n < 38) (hd : s.dieUp (lanternDie n) = true)
    (hr : s.hub.running = true) (he : mapGet 0 s.dep.expiry n = 0) :
    answers (.lanternWatchdogExpiry n) s ((s.lanternRestart n).setDep { s.dep with
      down := mapSet false s.dep.down n true, expiry := mapSet 0 s.dep.expiry n (s.time + 1) }) := by
  refine congrArg Outcome.next ?_
  simp [hd, hr, he, Nat.not_le.mpr hn]

/-- The second expiry within a second: the lantern is contained, outside a live update. -/
theorem lanternWatchdogExpiry_second {s : State} {n : Nat} (hn : n < 38) (hd : s.dieUp (lanternDie n) = true)
    (hr : s.hub.running = true) (he : mapGet 0 s.dep.expiry n ≠ 0)
    (hs : s.time + 1 ≤ mapGet 0 s.dep.expiry n + second) (hu : s.dep.update = none) :
    answers (.lanternWatchdogExpiry n) s (((s.lanternRestart n).setDep { s.dep with
      down := mapSet false s.dep.down n true, expiry := mapSet 0 s.dep.expiry n 0 }).contain n) := by
  refine congrArg Outcome.next ?_
  simp [hd, hr, he, hs, hu, Nat.not_le.mpr hn]

/-- A region's lantern is contained by the reset of its region. -/
theorem contain_region {n : Nat} (hn : n < 16) (s : State) : ∃ u : State, s.contain n = u.resetRegion n := by
  unfold State.contain
  rw [if_pos hn]
  exact ⟨_, rfl⟩

/-- A lantern whose restart is done runs again. -/
theorem lanternRestartDone_up {s : State} {n : Nat} (h : s.lanternDown n = true) :
    ∃ t, answers (.lanternRestartDone n) s t ∧ t.lanternDown n = false := by
  refine ⟨_, congrArg Outcome.next (if_neg (by simp [h])), ?_⟩
  have hup : mapGet false (mapSet false s.dep.down n false) n = false := mapGet_mapSet_self ..
  unfold State.lanternDown
  dsimp only
  split
  · rwa [rewalkRegion_dep]
  · split
    · rwa [stopSluices_dep]
    · exact hup

@[simp] theorem pairMismatch_halted (s : State) : s.pairMismatch.ev.halted = true := by
  unfold State.pairMismatch
  dsimp only
  split <;> simp [State.pairRestart, State.setEv, State.setDep]

/-- Once the pair has restarted, the journal records and the host's limit that waited take effect. -/
theorem wardenPairRestartDone_room {s : State} (hh : s.ev.halted = true)
    (hl : s.ev.journal.length + s.ev.journalWait.length ≤ 8192) : answers .wardenPairRestartDone s { s with
      ev := { s.ev with halted := false, journal := s.ev.journal ++ s.ev.journalWait, journalWait := [] }
      power := { s.power with host := s.power.hostWaits.getD s.power.host, hostWaits := none } } := by
  have hfold := foldl_journalAdd_room (v := { s.ev with halted := false, journalWait := [] }) rfl hl
  refine congrArg Outcome.next ((if_neg (by simp [hh])).trans ?_)
  dsimp only at hfold ⊢
  rw [hfold]
  rfl

/-- Settles O47: what a failed resend does to its port, the first and the second expiry of a watchdog, and the journal
writes that waited for the pair (`wardenPairRestartDone_room`). -/
theorem lanternsAndPair : Obligations.LanternsAndPair := by
  intro s p n
  refine ⟨rfl, ?counted, ?retired, ?first, ?second, lanternRestartDone_up, ?heartbeat, ?mismatch, ?restartDone⟩
  case counted =>
    intro hp hup hk
    exact congrArg Outcome.next (portFail_counted hp hup hk)
  case retired =>
    intro hp hup hk
    exact ⟨_, rfl, portFail_retires hp hup hk⟩
  case first =>
    intro hn hd hr he
    refine ⟨_, lanternWatchdogExpiry_first hn hd hr he, ?_⟩
    simp [State.lanternDown]
  case second =>
    intro hn hd hr he hs hu
    obtain ⟨u, hcontain⟩ := contain_region hn _
    obtain ⟨hreset, hup, hexp⟩ := resetRegion_self u n
    have ht := lanternWatchdogExpiry_second (by omega) hd hr he hs hu
    rw [hcontain] at ht
    exact ⟨_, ht, hreset, hup, hexp⟩
  case heartbeat =>
    intro hr hh
    exact congrArg Outcome.next (if_neg (by simp [hr, hh]))
  case mismatch =>
    intro hb hh
    exact ⟨congrArg Outcome.next (if_pos (by simp [hb, hh])), pairMismatch_halted s⟩
  case restartDone =>
    intro hh hl
    exact ⟨_, wardenPairRestartDone_room hh hl, rfl, rfl, rfl, rfl, rfl⟩

end Sys2Proof.Machine

namespace Sys2Proof.Machine
open Host

/-! ### What the issue of an instruction, a stop and a fault can do (R60, R138, R139) -/

/-- An instruction acts, is idle, is held in its place, or runs out of its code section. -/
theorem issue_cases (s : State) (a : At) (major len : Nat) (body : State → State) :
    s.issue a major len body = body s ∨ s.issue a major len body = s ∨ (∃ w, s.issue a major len body = s.hold a w)
      ∨ s.issue a major len body = s.instrFault a 0x010B major 0 := by
  unfold State.issue
  cases s.gate a len with
  | go => exact .inl rfl
  | idle => exact .inr (.inl rfl)
  | held w => exact .inr (.inr (.inl ⟨w, rfl⟩))
  | outOfCode => exact .inr (.inr (.inr rfl))

/-- A job fault writes at most the record of its job. -/
theorem faultJob_cases (s : State) (ctx code : Nat) :
    s.faultJob ctx code = s ∨ ∃ j, s.faultJob ctx code = s.setJob ctx j := by
  unfold State.faultJob
  dsimp only
  split
  · exact .inl rfl
  · exact .inr ⟨_, rfl⟩

/-- The stop of a scalar field check is an instruction fault. -/
theorem badField_instr {compat : Bool} {u : Use} {f : Fields} {x : Stop} (h : badField compat u f = some x) :
    ∃ b, x = .instr 0x0102 b := by
  unfold badField at h
  split at h
  · cases h
  · obtain ⟨b, -, rfl⟩ := Option.map_eq_some_iff.mp h
    exact ⟨b, rfl⟩

/-! ### The frame of a scalar instruction (R39, R110 to R112, R115) -/

/-- The register files of a slot that no scalar result goes to: descriptors, handles, lanes and predicates. -/
def Slot.otherFiles (sl : Slot) :
    List (Nat × Word) × List (Nat × Word) × List (Nat × List (Nat × Lane)) × List (Nat × PredBits) :=
  (sl.d, sl.a, sl.v, sl.p)

/-- What no scalar instruction that computes or branches reaches outside the cores. -/
def State.beyondScalar (s : State) :=
  (s.mem, s.sems, s.hub, s.levee, s.host, s.polders, s.objs, s.media, s.power, s.time)

/-- From one content of a slot to another, no register changed but `s[r]`. -/
structure SlotFrame (r : BitVec 5) (sl sl' : Slot) : Prop where
  scalars : ∀ q, q ≠ r → sl'.rs q = sl.rs q
  files : sl'.otherFiles = sl.otherFiles

/-- From `s` to `t` the slot at `a` changed within `SlotFrame r`; its core's buffer and accumulators, the other slots and
what lies beyond the cores stayed. -/
structure ScalarFrame (a : At) (r : BitVec 5) (s t : State) : Prop where
  beyond : t.beyondScalar = s.beyondScalar
  slots : ∀ c k, ¬ (c = a.core ∧ k = a.slot) → t.slot c k = s.slot c k
  buf : (t.core a.core).buf = (s.core a.core).buf
  acc : (t.core a.core).acc = (s.core a.core).acc
  own : SlotFrame r (s.at_ a) (t.at_ a)

variable {s t u : State} {a : At} {r : BitVec 5} {f : Fields}

theorem SlotFrame.refl (sl : Slot) : SlotFrame r sl sl := ⟨fun _ _ => rfl, rfl⟩

theorem SlotFrame.trans {x y z : Slot} (h : SlotFrame r x y) (h' : SlotFrame r y z) : SlotFrame r x z :=
  ⟨fun q hq => (h'.scalars q hq).trans (h.scalars q hq), h'.files.trans h.files⟩

theorem ws_frame (sl : Slot) (r : BitVec 5) (v : Word) : SlotFrame r sl (sl.ws r v) :=
  ⟨fun q hq => by rw [Slot.rs_ws, if_neg (fun h => hq h.1)], by simp [Slot.otherFiles]⟩

theorem ScalarFrame.refl (s : State) : ScalarFrame a r s s := ⟨rfl, fun _ _ _ => rfl, rfl, rfl, .refl _⟩

theorem ScalarFrame.trans (h : ScalarFrame a r s t) (h' : ScalarFrame a r t u) : ScalarFrame a r s u :=
  ⟨h'.beyond.trans h.beyond, fun c k hn => (h'.slots c k hn).trans (h.slots c k hn), h'.buf.trans h.buf,
    h'.acc.trans h.acc, h.own.trans h'.own⟩

theorem setAt_frame {v : Slot} (h : SlotFrame r (s.at_ a) v) : ScalarFrame a r s (s.setAt a v) where
  beyond := rfl
  slots c k hn := by rw [slot_setAt, if_neg hn]
  buf := by simp
  acc := by simp
  own := by rwa [at_setAt]

theorem setEv_frame (v : Events) : ScalarFrame a r s (s.setEv v) := ⟨rfl, fun _ _ _ => rfl, rfl, rfl, .refl _⟩

theorem setJob_frame (i : Nat) (j : Job) : ScalarFrame a r s (s.setJob i j) := ⟨rfl, fun _ _ _ => rfl, rfl, rfl, .refl _⟩

theorem advance_frame (n : Nat) : ScalarFrame a r s (s.advance a n) := setAt_frame ⟨fun _ _ => rfl, rfl⟩

theorem hold_frame (w : HeldWhy) : ScalarFrame a r s (s.hold a w) := setAt_frame ⟨fun _ _ => rfl, rfl⟩

theorem stopSlot_frame : ScalarFrame a r s (s.stopSlot a) := setAt_frame ⟨fun _ _ => rfl, rfl⟩

theorem post_frame (e : Ev) : ScalarFrame a r s (s.post e) := by
  obtain ⟨v, hv, -⟩ := post_eq_setEv s e
  rw [hv]
  exact setEv_frame v

theorem faultJob_frame (ctx code : Nat) : ScalarFrame a r s (s.faultJob ctx code) := by
  rcases faultJob_cases s ctx code with h | ⟨j, h⟩ <;> rw [h]
  · exact .refl s
  · exact setJob_frame ctx j

/-- A fault of a slot's own command: the event, the slot stopped, the job faulted. -/
theorem slotFault_frame (code sev detail ctx jobCode : Nat) :
    ScalarFrame a r s (((s.coreEvent a code sev detail).stopSlot a).faultJob ctx jobCode) :=
  ((post_frame _).trans stopSlot_frame).trans (faultJob_frame ..)

theorem instrFault_frame (code major info : Nat) : ScalarFrame a r s (s.instrFault a code major info) :=
  slotFault_frame ..

theorem jumpTo_frame (n : Nat) : ScalarFrame a r s (s.jumpTo a n) :=
  (advance_frame 0).trans (setAt_frame ⟨fun _ _ => rfl, rfl⟩)

theorem issue_frame {major len : Nat} {body : State → State} (h : ScalarFrame a r s (body s)) :
    ScalarFrame a r s (s.issue a major len body) := by
  rcases issue_cases s a major len body with hi | hi | ⟨w, hi⟩ | hi <;> rw [hi]
  · exact h
  · exact .refl s
  · exact hold_frame w
  · exact instrFault_frame ..

/-- An instruction that checks its fields and writes its slot alone. -/
theorem run_frame {major : Nat} {use : Use} {g : Slot → Slot} (hg : SlotFrame r (s.at_ a) (g (s.at_ a))) :
    ScalarFrame a r s (s.run a major 8 (fun s => badField (s.at_ a).id.profile use f)
      (fun s => s.setAt a (g (s.at_ a)))) := by
  refine issue_frame ?_
  dsimp only
  split
  next x hx =>
    obtain ⟨b, rfl⟩ := badField_instr hx
    exact instrFault_frame ..
  next => exact (setAt_frame hg).trans (advance_frame 8)

theorem alu_frame (form : AluForm) (op : Bool → Word → Word → Word) : ScalarFrame a f.dst s (s.alu a form f op) :=
  run_frame (g := fun sl => sl.ws f.dst (op sl.id.profile (sl.rs f.src1) (aluOperand sl form f))) (ws_frame ..)

/-- A move into a scalar register. -/
theorem slotOp_frame {major : Nat} {use : Use} (g : Slot → Word) :
    ScalarFrame a f.dst s (s.slotOp a major use f (fun sl => sl.ws f.dst (g sl))) :=
  run_frame (g := fun sl => sl.ws f.dst (g sl)) (ws_frame ..)

theorem transfer_frame {major : Nat} {use : Use} {take : Slot → Option Word} {link : Bool} :
    ScalarFrame a f.dst s (s.transfer a major use f take link) := by
  refine issue_frame ?_
  dsimp only
  split
  next x hx =>
    obtain ⟨b, rfl⟩ := badField_instr hx
    exact instrFault_frame ..
  next =>
    split
    · exact advance_frame 8
    · split
      · exact instrFault_frame ..
      · cases link with
        | true => exact (setAt_frame (ws_frame ..)).trans (jumpTo_frame _)
        | false => exact jumpTo_frame _

/-- The instructions of the scalar ALU keep the frame (R110, R111). -/
theorem exec_alu_frame (s : State) (a : At) (form : AluForm) (f : Fields) :
    ∀ c ∈ [Instr.add a form f, .sub a form f, .and a form f, .or a form f, .xor a form f, .sll a form f, .srl a form f,
      .sra a form f, .slt a form f, .sltu a form f, .min a form f, .max a form f, .mul a form f, .mulh a form f,
      .mulhu a form f, .div a form f, .divu a form f, .rem a form f, .remu a form f],
      ∃ t, exec c s = .next t ∧ ScalarFrame a f.dst s t := by
  intro c hc
  fin_cases hc <;> exact ⟨_, rfl, alu_frame ..⟩

/-- The moves into a scalar register keep the frame (R112). -/
theorem exec_move_frame (s : State) (a : At) (f : Fields) :
    ∀ c ∈ [Instr.movi a f, .movhi a f, .movDs a f, .movAs a f], ∃ t, exec c s = .next t ∧ ScalarFrame a f.dst s t := by
  intro c hc
  fin_cases hc <;> exact ⟨_, rfl, slotOp_frame _⟩

/-- The branches and the jumps keep the frame (R115). -/
theorem exec_transfer_frame (s : State) (a : At) (f : Fields) :
    ∀ c ∈ [Instr.beq a f, .bne a f, .blt a f, .bge a f, .bltu a f, .bgeu a f, .jal a f, .jalr a f],
      ∃ t, exec c s = .next t ∧ ScalarFrame a f.dst s t := by
  intro c hc
  fin_cases hc <;> exact ⟨_, rfl, transfer_frame⟩

/-! ### What a stop and an access leave of memory (R19 to R21, R113, R386, R477) -/

theorem slotFault_mem (s : State) (a : At) (code sev detail ctx jobCode : Nat) :
    (((s.coreEvent a code sev detail).stopSlot a).faultJob ctx jobCode).mem = s.mem :=
  congrArg Prod.fst (slotFault_frame (r := 0) code sev detail ctx jobCode).beyond

@[simp] theorem accessFault_mem (s : State) (a : At) (major : Nat) (x : AccFail) :
    (s.accessFault a major x).mem = s.mem := by
  unfold State.accessFault
  split
  · rfl
  · rfl
  · exact slotFault_mem ..
  · exact slotFault_mem ..
  · exact slotFault_mem ..

@[simp] theorem stopAt_mem (s : State) (a : At) (major : Nat) (x : Stop) : (s.stopAt a major x).mem = s.mem := by
  cases x with
  | instr => exact slotFault_mem ..
  | tile => exact slotFault_mem ..
  | coll => exact slotFault_mem ..
  | page => exact slotFault_mem ..
  | access x => exact accessFault_mem s a major x
  | wait => rfl
  | dike => rfl

/-- What memory shows is as before an instruction where it is as before the instruction's body. -/
theorem issue_mem {β : Type} {g : Mem → β} {major len : Nat} {body : State → State} (h : g (body s).mem = g s.mem) :
    g (s.issue a major len body).mem = g s.mem := by
  rcases issue_cases s a major len body with hi | hi | ⟨w, hi⟩ | hi <;> rw [hi]
  · exact h
  · rfl
  · exact congrArg g (slotFault_mem ..)

theorem run_mem {β : Type} {g : Mem → β} {major len : Nat} {chk : State → Option Stop} {eff : State → State}
    (h : g (eff s).mem = g s.mem) : g (s.run a major len chk eff).mem = g s.mem := by
  refine issue_mem ?_
  split
  · rw [stopAt_mem]
  · exact h

theorem runMinor_mem {β : Type} {g : Mem → β} {major minor : Nat} {ok : Bool} {chk : State → Option Stop}
    {eff : State → State} (h : g (eff s).mem = g s.mem) : g (s.runMinor a major minor ok chk eff).mem = g s.mem := by
  refine issue_mem ?_
  split
  · split
    · rfl
    · exact congrArg g (slotFault_mem ..)
  · split
    · rw [stopAt_mem]
    · exact h

@[simp] theorem countClip_mem (s : State) (a : At) (clip : Bool) : (s.countClip a clip).mem = s.mem := by
  unfold State.countClip
  split <;> rfl

@[simp] theorem passFree_leaves (s : State) (g len : Nat) :
    (s.passFree g len).mem = s.mem ∧ (s.passFree g len).host = s.host := by
  unfold State.passFree
  split <;> exact ⟨rfl, rfl⟩

theorem charge_leaves (s : State) (polder : Nat) (uses : List (Nat × Nat)) :
    (s.charge polder uses).mem = s.mem ∧ (s.charge polder uses).host = s.host := by
  constructor
  · refine foldl_leaves (g := State.mem) (fun s x => ?_) uses s
    dsimp only
    split <;> rfl
  · refine foldl_leaves (g := State.host) (fun s x => ?_) uses s
    dsimp only
    split <;> rfl

@[simp] theorem spend_leaves (s : State) (who : Who) (uses : List (Nat × Nat)) :
    (s.spend who uses).mem = s.mem ∧ (s.spend who uses).host = s.host := by
  unfold State.spend
  split
  · exact ⟨rfl, rfl⟩
  · exact charge_leaves ..

/-- What decides under which key a byte is kept: memory's homes and the host pool. -/
def State.placing (s : State) : Mem × List (Nat × Nat) := (s.mem, s.host.pool)

theorem keyOf_placing (h : t.placing = s.placing) (x : Nat) : t.keyOf x = s.keyOf x := by
  obtain ⟨hm, hp⟩ := Prod.mk.inj h
  unfold State.keyOf State.hostFrame State.home
  rw [hm, hp]

theorem fillHost_placing (s : State) (write : Bool) (x len : Nat) : (s.fillHost write x len).placing = s.placing := by
  refine foldl_leaves (g := State.placing) (fun s n => ?_) _ s
  unfold State.fillLine
  dsimp only
  split <;> rfl

theorem cacheFill_placing (s : State) (ctx : Nat) (write : Bool) (x len : Nat) :
    (s.cacheFill ctx write x len).placing = s.placing := by
  unfold State.cacheFill
  split
  · split
    · exact fillHost_placing ..
    · rfl
  · split
    · refine foldl_leaves (g := State.placing) (fun s e => ?_) _ s
      dsimp only
      split
      · exact fillHost_placing ..
      · rfl
    · rfl

/-- The tokens and the cache lines of an access leave memory and its places. -/
@[simp] theorem devSpend_placing (s : State) (who : Who) (write : Bool) (g len : Nat) :
    (s.devSpend who write g len).placing = s.placing := by
  unfold State.devSpend
  split
  · simp [State.placing]
  · rw [cacheFill_placing]
    simp [State.placing]

@[simp] theorem devSpend_mem (s : State) (who : Who) (write : Bool) (g len : Nat) :
    (s.devSpend who write g len).mem = s.mem := congrArg Prod.fst (devSpend_placing s who write g len)

@[simp] theorem passFree_placing (s : State) (g len : Nat) : (s.passFree g len).placing = s.placing := by
  simp [State.placing]

/-! ### Writes of the register space leave memory (R40 to R44, R517) -/

@[simp] theorem freeSlot_mem (s : State) (c k : Nat) : (s.freeSlot c k).mem = s.mem := by
  unfold State.freeSlot
  dsimp only
  split <;> rfl

@[simp] theorem writeCtxId_mem (s : State) (core slot w : Nat) (start : TaskStart) :
    (s.writeCtxId core slot w start).mem = s.mem := by
  unfold State.writeCtxId
  dsimp only
  split
  · split
    · rfl
    · exact freeSlot_mem ..
  · rfl

@[simp] theorem writeAllot_mem (s : State) (core slot w : Nat) : (s.writeAllot core slot w).mem = s.mem := by
  unfold State.writeAllot
  dsimp only
  split <;> rfl

@[simp] theorem spaceWrite_mem (s : State) (d off w : Nat) : (s.spaceWrite d off w).mem = s.mem := by
  unfold State.spaceWrite
  split
  · rfl
  · dsimp only
    split_ifs <;> simp

@[simp] theorem spacePut_mem (s : State) (x : Nat) (bs : List Byte) : (s.spacePut x bs).mem = s.mem := by
  refine foldl_leaves (g := State.mem) (fun s i => ?_) _ s
  dsimp only
  split
  · exact spaceWrite_mem ..
  · rfl

/-! ### A write touches the bytes at its address alone (R113, R114, R300) -/

@[simp] theorem toBytes_length (n w : Nat) : (toBytes n w).length = n := by
  induction n generalizing w with
  | zero => rfl
  | succ n ih => simp [toBytes, ih]

/-- A store within one extent leaves every byte that is kept under no key of its addresses. -/
theorem store_byte {ctx e lo k : Nat} {bs : List Byte} (he : e * extentBytes ≤ lo)
    (hn : bs.length ≤ (e + 1) * extentBytes - lo) (h : ∀ j < bs.length, k ≠ s.keyOf (lo + j)) :
    mapGet 0 (s.store ctx lo bs).mem.bytes k = mapGet 0 s.mem.bytes k := by
  rw [mapGet_store, if_neg]
  rintro ⟨hlo, hhi⟩
  refine h (k - s.keyOf lo) (by omega) ?_
  rw [keyOf_add s (by simp only [extentBytes] at *; omega)]
  omega

/-- A write leaves every byte that is kept under no key of its addresses, piece by piece. -/
theorem write_byte {ctx x k : Nat} {bs : List Byte} (h : ∀ i < bs.length, k ≠ s.keyOf (x + i)) :
    mapGet 0 (s.write ctx x bs).mem.bytes k = mapGet 0 s.mem.bytes k := by
  refine (List.foldlRecOn (motive := fun t : State => (∀ y, t.keyOf y = s.keyOf y)
    ∧ mapGet 0 t.mem.bytes k = mapGet 0 s.mem.bytes k) _ _ ⟨fun _ => rfl, rfl⟩ fun t ht e _ => ?_).2
  obtain ⟨hkey, hbyte⟩ := ht
  dsimp only
  split
  case isTrue => exact ⟨hkey, hbyte⟩
  case isFalse =>
    generalize hlo : max x (e * extentBytes) = lo
    refine ⟨hkey, (store_byte (e := e) (by omega) (List.length_take_le ..) fun j hj => ?_).trans hbyte⟩
    rw [List.length_take, List.length_drop] at hj
    have hi := h (lo - x + j) (by omega)
    rwa [hkey, show lo + j = x + (lo - x + j) by omega]

/-- A write at a global address leaves every byte of memory that is kept under no key of its addresses. -/
theorem devWrite_byte {ctx g k : Nat} {bs : List Byte} (h : ∀ i < bs.length, k ≠ s.keyOf (g % 2 ^ 52 + i)) :
    mapGet 0 (s.devWrite ctx g bs).mem.bytes k = mapGet 0 s.mem.bytes k := by
  unfold State.devWrite
  split
  · rfl
  · dsimp only
    split
    · rw [spacePut_mem]
    · exact write_byte h

/-- The write of an access that has spent its tokens and passed its free values. -/
theorem devWrite_byte_placing (ht : t.placing = s.placing) {ctx g k : Nat} {bs : List Byte}
    (h : ∀ i < bs.length, k ≠ s.keyOf (g % 2 ^ 52 + i)) :
    mapGet 0 (t.devWrite ctx g bs).mem.bytes k = mapGet 0 s.mem.bytes k := by
  have hmem : t.mem = s.mem := congrArg Prod.fst ht
  rw [devWrite_byte (fun i hi => keyOf_placing ht _ ▸ h i hi), hmem]

/-! ### Scalar loads, stores and atomics (R113, R114) -/

/-- A scalar load leaves memory. -/
theorem scalarLoad_mem {minor : BitVec 6} (h : exec (.scalarLoad a minor f) s = .next t) : t.mem = s.mem := by
  cases h
  refine runMinor_mem (g := id) ?_
  dsimp only
  split <;> simp

/-- A scalar store leaves every byte of memory but those at its address, and all of them where it goes to the buffer. -/
theorem scalarStore_byte {minor : BitVec 6} {x : Nat} (h : exec (.scalarStore a minor f) s = .next t)
    (hx : scalarBuf minor = true ∨ ∀ i < scalarSize minor, x ≠ s.keyOf (scalarAddr (s.at_ a) f % 2 ^ 52 + i)) :
    mapGet 0 t.mem.bytes x = mapGet 0 s.mem.bytes x := by
  cases h
  refine runMinor_mem (g := fun m => mapGet 0 m.bytes x) ?_
  dsimp only
  split
  next => rw [countClip_mem]; rfl
  next hb =>
    refine devWrite_byte_placing (devSpend_placing ..) ?_
    rw [toBytes_length]
    exact hx.resolve_left hb

/-- An atomic leaves every byte of memory but those of its word. -/
theorem atomic_byte {use : Use} {op : Slot → Word → Word} {x : Nat}
    (hx : ∀ i < 8, x ≠ s.keyOf (((s.at_ a).rs f.src1).toNat % 2 ^ 52 + i)) :
    mapGet 0 (s.atomic a use f op).mem.bytes x = mapGet 0 s.mem.bytes x := by
  refine run_mem (g := fun m => mapGet 0 m.bytes x) ?_
  refine devWrite_byte_placing ((passFree_placing ..).trans (devSpend_placing ..)) ?_
  rwa [toBytes_length]

/-- Settles O8: `ScalarFrame` along the shared operations of the instructions that compute or branch, and
`devWrite_byte` for the bytes of the others. -/
theorem scalarFrames : Obligations.ScalarFrames := by
  refine ⟨?frame, fun s t a f minor x => ⟨fun h => by rw [scalarLoad_mem h], scalarStore_byte, ?atomics⟩⟩
  case frame =>
    rintro s t a f c ⟨form, hc⟩ ht
    have hall := List.forall_mem_append.mpr ⟨exec_alu_frame s a form f,
      List.forall_mem_append.mpr ⟨exec_move_frame s a f, exec_transfer_frame s a f⟩⟩
    obtain ⟨u, hu, hbeyond, hslots, hbuf, hacc, hrs, hfiles⟩ := hall c hc
    obtain rfl : u = t := Outcome.next.inj (hu.symm.trans ht)
    simp only [State.beyondScalar, Slot.otherFiles, Prod.mk.injEq] at hbeyond hfiles
    obtain ⟨hmem, hsems, hhub, hlevee, hhost, hpolders, hobjs, hmedia, hpower, htime⟩ := hbeyond
    exact ⟨hmem, hsems, hhub, hlevee, hhost, hpolders, hobjs, hmedia, hpower, htime, hslots, hbuf, hacc, hrs, hfiles⟩
  case atomics =>
    intro c hc ht hx
    fin_cases hc <;> cases ht <;> exact atomic_byte hx

end Sys2Proof.Machine

namespace Sys2Proof.Machine
open Host

/-! ### Scalar results (R110 to R112, R144) -/

section
variable {s : State} {a : At} {form : AluForm} {f : Fields} {x y : Word} {c : Bool}

/-- A scalar ALU instruction that issues writes the value of its operation. -/
theorem alu_gives (h : s.Ready a 8) (hl : s.Legal a (aluUse form) f) {op : Bool → Word → Word → Word} {v : Word}
    (hv : op (s.at_ a).id.profile ((s.at_ a).rs f.src1) (aluOperand (s.at_ a) form f) = v) :
    s.alu a form f op = s.wrote a f.dst v := by
  rw [alu_ready h hl, hv]

theorem divSigned_zero (h : y = 0) : divSigned c x y = if c then 0 else BitVec.allOnes 64 := if_pos h

theorem divUnsigned_zero (h : y = 0) : divUnsigned c x y = if c then 0 else BitVec.allOnes 64 := if_pos h

theorem remSigned_zero (h : y = 0) : remSigned c x y = if c then 0 else x := if_pos h

theorem remUnsigned_zero (h : y = 0) : remUnsigned c x y = if c then 0 else x := if_pos h

theorem divUnsigned_ne (h : y ≠ 0) : divUnsigned c x y = BitVec.ofNat 64 (x.toNat / y.toNat) := by
  rw [divUnsigned, if_neg h]
  exact BitVec.eq_of_toNat_eq (by simp [Nat.mod_eq_of_lt ((Nat.div_le_self ..).trans_lt x.isLt)])

theorem remUnsigned_ne (h : y ≠ 0) : remUnsigned c x y = BitVec.ofNat 64 (x.toNat % y.toNat) := by
  rw [remUnsigned, if_neg h]
  exact BitVec.eq_of_toNat_eq (by simp [Nat.mod_eq_of_lt ((Nat.mod_le ..).trans_lt x.isLt)])

theorem divSigned_ne (h : y ≠ 0) : divSigned c x y = BitVec.ofInt 64 (x.toInt.tdiv y.toInt) := by
  rw [divSigned, if_neg h]
  exact BitVec.eq_of_toInt_eq (by rw [BitVec.toInt_sdiv, BitVec.toInt_ofInt])

theorem remSigned_ne (h : y ≠ 0) : remSigned c x y = BitVec.ofInt 64 (x.toInt.tmod y.toInt) := by
  rw [remSigned, if_neg h, ← BitVec.toInt_srem, BitVec.ofInt_toInt]

theorem ne_zero_of_toInt_neg_one (h : y.toInt = -1) : y ≠ 0 := by
  rintro rfl
  simp at h

/-- The overflow of R111: the quotient wraps to the dividend. -/
theorem divSigned_overflow (hx : x.toInt = -2 ^ 63) (hy : y.toInt = -1) : divSigned c x y = x := by
  have hwrap : BitVec.ofInt 64 (Int.tdiv (-2 ^ 63) (-1)) = BitVec.ofInt 64 (-2 ^ 63) := by decide
  rw [divSigned_ne (ne_zero_of_toInt_neg_one hy), hx, hy, hwrap, ← hx, BitVec.ofInt_toInt]

theorem remSigned_overflow (hx : x.toInt = -2 ^ 63) (hy : y.toInt = -1) : remSigned c x y = 0 := by
  rw [remSigned_ne (ne_zero_of_toInt_neg_one hy), hx, hy]
  decide

end

/-- Settles O3: each case of R111 and R144 is an equation of the four operations on words. -/
theorem divisionResult : Obligations.DivisionResult := by
  intro s a form f h hl x y gives
  -- the ALU operation that the command runs, and its value; `gives` is then closed to be matched as written
  have hgives {c : Instr} {op : Bool → Word → Word → Word} {v : Word} (hc : exec c s = .next (s.alu a form f op))
      (hv : op (s.at_ a).id.profile x y = v) : gives c v := hc.trans (congrArg _ (alu_gives h hl hv))
  clear_value gives
  refine ⟨fun hp hy => ?compat, fun hp hy => ?native, fun hx hy => ?overflow, fun hy => ?defined⟩
  case compat =>
    exact ⟨hgives rfl ((divSigned_zero hy).trans (if_pos hp)), hgives rfl ((divUnsigned_zero hy).trans (if_pos hp)),
      hgives rfl ((remSigned_zero hy).trans (if_pos hp)), hgives rfl ((remUnsigned_zero hy).trans (if_pos hp))⟩
  case native =>
    have hn := Bool.eq_false_iff.mp hp
    exact ⟨hgives rfl ((divSigned_zero hy).trans (if_neg hn)), hgives rfl ((divUnsigned_zero hy).trans (if_neg hn)),
      hgives rfl ((remSigned_zero hy).trans (if_neg hn)), hgives rfl ((remUnsigned_zero hy).trans (if_neg hn))⟩
  case overflow => exact ⟨hgives rfl (divSigned_overflow hx hy), hgives rfl (remSigned_overflow hx hy)⟩
  case defined =>
    exact ⟨hgives rfl (divUnsigned_ne hy), hgives rfl (remUnsigned_ne hy), hgives rfl (divSigned_ne hy),
      hgives rfl (remSigned_ne hy)⟩

section
variable {s : State} {a : At} {f : Fields} {x y : Word}

theorem boolWord_slt : boolWord (x.slt y) = if x.toInt < y.toInt then 1 else 0 := by
  simp [boolWord, BitVec.slt]

theorem boolWord_ult : boolWord (x.ult y) = if x.toNat < y.toNat then 1 else 0 := by
  simp [boolWord, BitVec.ult]

theorem ite_slt {α : Type} {w : Nat} (x y : BitVec w) (u v : α) :
    (if x.slt y then u else v) = if x.toInt < y.toInt then u else v := by
  simp [BitVec.slt]

theorem ite_ult {α : Type} {w : Nat} (x y : BitVec w) (u v : α) :
    (if x.ult y then u else v) = if x.toNat < y.toNat then u else v := by
  simp [BitVec.ult]

theorem mul_eq_ofNat {w : Nat} (x y : BitVec w) : x * y = BitVec.ofNat w (x.toNat * y.toNat) :=
  BitVec.eq_of_toNat_eq (by simp)

/-- MOVHI replaces the high half of its register (R112). -/
theorem movhi_word (i : BitVec 32) (x : Word) :
    (i ++ x.extractLsb' 0 32 : BitVec 64) = BitVec.ofNat 64 (i.toNat * 2 ^ 32 + x.toNat % 2 ^ 32) := by
  apply BitVec.eq_of_toNat_eq
  have hi := i.isLt
  rw [BitVec.toNat_append, BitVec.extractLsb'_toNat, BitVec.toNat_ofNat, Nat.shiftRight_zero,
    ← Nat.shiftLeft_add_eq_or_of_lt (Nat.mod_lt _ (by decide)), Nat.shiftLeft_eq]
  omega

/-- A group of a predicate is replaced and the others stay (R112). -/
theorem getLsbD_putGroup (p : PredBits) {g : Nat} (w : Word) {i : Nat} (hi : i < 1024) :
    (putGroup p g w).getLsbD i = if i / 64 = g then w.getLsbD (i % 64) else p.getLsbD i := by
  have hmask : ((BitVec.allOnes 64).setWidth 1024).getLsbD (i - 64 * g) = decide (i - 64 * g < 64) := by
    rw [BitVec.getLsbD_setWidth, BitVec.getLsbD_allOnes]
    simp
    omega
  have hword : (w.setWidth 1024).getLsbD (i - 64 * g) = w.getLsbD (i - 64 * g) := by
    rw [BitVec.getLsbD_setWidth]
    simp
    omega
  simp only [putGroup, BitVec.getLsbD_or, BitVec.getLsbD_and, BitVec.getLsbD_not, BitVec.getLsbD_shiftLeft, hmask, hword, hi,
    decide_true, Bool.true_and]
  rcases Nat.lt_trichotomy (i / 64) g with hlt | rfl | hgt
  · have hb : i < 64 * g := by omega
    simp [hb, hlt.ne]
  · have hb : ¬ i < 64 * (i / 64) := by omega
    have hm : i - 64 * (i / 64) = i % 64 := by omega
    simp [hb, hm, Nat.mod_lt]
  · have hb : ¬ i < 64 * g := by omega
    have hm : ¬ i - 64 * g < 64 := by omega
    simp [hb, hm, hgt.ne', BitVec.getLsbD_of_ge w _ (Nat.not_lt.mp hm)]

theorem runMinor_ready (h : s.Ready a 8) {ok : Bool} (hok : ok = true) {chk : State → Option Stop} (hc : chk s = none)
    (major minor : Nat) (eff : State → State) : s.runMinor a major minor ok chk eff = (eff s).advance a 8 := by
  simp only [State.runMinor, issue_ready h, hok, hc, Bool.not_true, Bool.false_eq_true, if_false]

/-- The values of INFO stand in minor order (R112). -/
theorem infoValue_eq (a : At) (sl : Slot) {m : Nat} (h : m ≤ 6) :
    infoValue a sl m
      = [a.core, sl.id.ctx, a.slot, sl.id.polder, bit sl.id.profile 0, sl.stage, sl.task].getD m 0 := by
  interval_cases m <;> rfl

end

/-- Settles O4: the value that each operation writes, along the shared effects of the scalar pipe (`alu_ready`,
`slotOp_ready`) and of the moves that wait for the vector unit (`vecSlotOp_ready`). -/
theorem scalarRegisterResult : Obligations.ScalarRegisterResult := by
  constructor
  case left =>
    intro s a form f h hl x y gives
    have hgives {c : Instr} {op : Bool → Word → Word → Word} {v : Word} (hc : exec c s = .next (s.alu a form f op))
        (hv : op (s.at_ a).id.profile x y = v) : gives c v := hc.trans (congrArg _ (alu_gives h hl hv))
    clear_value gives
    exact ⟨hgives rfl rfl, hgives rfl rfl, hgives rfl rfl, hgives rfl rfl, hgives rfl rfl, hgives rfl rfl, hgives rfl rfl,
      hgives rfl rfl, hgives rfl boolWord_slt, hgives rfl boolWord_ult, hgives rfl (ite_slt ..), hgives rfl (ite_slt ..),
      hgives rfl (mul_eq_ofNat ..), hgives rfl rfl, hgives rfl rfl⟩
  case right =>
    intro s a f minor h sl legal gives
    have hscalar {c : Instr} {u : Use} {m : Nat} {g : Slot → Slot} {v : Slot} (hc : exec c s = .next (s.slotOp a m u f g))
        (hv : g sl = v) (hl : s.Legal a u f) : gives c v := hc.trans (congrArg _ (hv ▸ slotOp_ready h hl m g))
    have hvector {c : Instr} {u : Use} {m : Nat} {g : Slot → Slot} {v : Slot}
        (hc : exec c s = .next (s.vecSlotOp a m u f g)) (hv : g sl = v) (hl : s.Legal a u f) (hq : sl.qVec = []) :
        gives c v := hc.trans (congrArg _ (hv ▸ vecSlotOp_ready h hl hq m g))
    have hinfo (hl : legal .s .none_ [(0, 32)]) (hm : minor.toNat ≤ 6) :
        gives (.info a minor f) (sl.ws f.dst (BitVec.ofNat 64 (infoValue a sl minor.toNat))) :=
      congrArg _ (runMinor_ready h (by simpa using hm) hl ..)
    clear_value gives
    refine ⟨fun hl => ⟨hscalar rfl rfl hl, hscalar rfl (by rw [movhi_word]) hl⟩, hscalar rfl rfl, hscalar rfl rfl,
      hscalar rfl rfl, hscalar rfl rfl, hvector rfl rfl, hvector rfl rfl,
      fun hl hq => ⟨_, hvector rfl rfl hl hq, fun i hi => getLsbD_putGroup _ _ hi⟩, hvector rfl rfl, ?info⟩
    case info =>
      intro hl hm
      rw [← infoValue_eq a sl hm]
      exact hinfo hl hm

end Sys2Proof.Machine

namespace Sys2Proof.Machine
open Host

/-! ### Atomics (R114) -/

section
variable {s : State} {a : At} {u : Use} {f : Fields}

/-- What an atomic asks of its word: aligned, to be read and written, in no extent that moves. -/
theorem atomicStop_none {x : Nat} (hl : s.Legal a u f) (hx : ((s.at_ a).rs f.src1).toNat = x) (halign : x % 8 = 0)
    (hw : s.devStop (s.whoAt a) true x 8 = none) (hr : s.devStop (s.whoAt a) false x 8 = none)
    (hstill : ∀ e ∈ blocksOf extentBytes (x % 2 ^ 52) 8, (s.home e).state ≠ 3) : atomicStop a u f s = none := by
  have hmove : (blocksOf extentBytes (x % 2 ^ 52) 8).any (fun e => decide ((s.home e).state = 3)) = false := by
    simpa using hstill
  subst hx
  rw [State.Legal] at hl
  simp only [atomicStop, hl, hw, hr, hmove, halign, ne_eq, not_true_eq_false, decide_false, Bool.and_false, stopIf_false,
    firstStop_none, firstStop_nil]

/-- An atomic that issues: memory takes the new word and `dst` the old one. -/
theorem atomic_ready {x : Nat} (h : s.Ready a 8) (hstop : atomicStop a u f s = none)
    (hx : ((s.at_ a).rs f.src1).toNat = x) {op : Slot → Word → Word} {new : Word}
    (hnew : op (s.at_ a) (BitVec.ofNat 64 (ofBytes (s.devRead x 8))) = new) :
    s.atomic a u f op = (((s.devSpend (s.whoAt a) true x 8).passFree x 8).devWrite (s.at_ a).id.ctx x
      (toBytes 8 new.toNat)).wrote a f.dst (BitVec.ofNat 64 (ofBytes (s.devRead x 8))) := by
  subst hx hnew
  unfold State.atomic
  rw [run_ready h hstop]
  rfl

end

/-- Settles O6: `atomic_ready`, with the new word of each operation. -/
theorem atomicResult : Obligations.AtomicResult := by
  intro s a f h sl x old y gives halign hw hr hstill
  have hgives {c : Instr} {u : Use} {op : Slot → Word → Word} {new : Word} (hc : exec c s = .next (s.atomic a u f op))
      (hl : s.Legal a u f) (hnew : op sl old = new) : gives c new :=
    hc.trans (congrArg _ (atomic_ready h (atomicStop_none hl rfl halign hw hr hstill) rfl hnew))
  exact ⟨fun hl => ⟨hgives rfl hl rfl, hgives rfl hl rfl, hgives rfl hl (ite_slt ..), hgives rfl hl (ite_slt ..)⟩,
    fun hl => hgives rfl hl rfl⟩

/-! ### Branches and jumps (R115) -/

section
variable {s : State} {a : At} {u : Use} {f : Fields} {take : Slot → Option Word} {link : Bool} {t : Word} {major : Nat}

theorem badTarget_eq_false {n : Nat} (hn : n % 8 = 0) (hc : (s.at_ a).code = 0 ∨ n < (s.code (s.at_ a).code).codeBytes) :
    s.badTarget a n = false := by
  simp only [State.badTarget, hn, ne_eq, not_true_eq_false, decide_false, Bool.false_or, Bool.and_eq_false_iff,
    decide_eq_false_iff_not, not_not, ge_iff_le, not_le]
  exact hc

theorem badTarget_eq_true {n : Nat}
    (hn : n % 8 ≠ 0 ∨ ((s.at_ a).code ≠ 0 ∧ (s.code (s.at_ a).code).codeBytes ≤ n)) : s.badTarget a n = true := by
  simpa [State.badTarget] using hn

theorem transfer_not_taken (h : s.Ready a 8) (hl : s.Legal a u f) (ht : take (s.at_ a) = none) :
    s.transfer a major u f take link = s.advance a 8 := by
  rw [State.Legal] at hl
  simp only [State.transfer, issue_ready h, hl, ht]

/-- A transfer that is taken to a place in the code section. -/
theorem transfer_taken (h : s.Ready a 8) (hl : s.Legal a u f) (ht : take (s.at_ a) = some t)
    (hb : s.badTarget a t.toNat = false) : s.transfer a major u f take link
      = (if link then s.setAt a ((s.at_ a).ws f.dst (BitVec.ofNat 64 ((s.at_ a).pc + 8))) else s).jumpTo a t.toNat := by
  rw [State.Legal] at hl
  simp only [State.transfer, issue_ready h, hl, ht, hb, Bool.false_eq_true, if_false]

theorem transfer_outside (h : s.Ready a 8) (hl : s.Legal a u f) (ht : take (s.at_ a) = some t)
    (hb : s.badTarget a t.toNat = true) : s.transfer a major u f take link = s.instrFault a 0x010B major 0 := by
  rw [State.Legal] at hl
  simp only [State.transfer, issue_ready h, hl, ht, hb, if_true]

/-- The three ways of a branch whose comparison says `p`. -/
theorem branch_cases (h : s.Ready a 8) (hl : s.Legal a branchUse f) {c : Word → Word → Bool} {p : Prop}
    (hc : c ((s.at_ a).rs f.src1) ((s.at_ a).rs f.src2) = true ↔ p) (ht : branchTarget (s.at_ a) f = t) :
    (¬ p → s.branch a f c = s.advance a 8)
      ∧ (p → s.badTarget a t.toNat = false → s.branch a f c = s.jumpTo a t.toNat)
      ∧ (p → s.badTarget a t.toNat = true → s.branch a f c = s.instrFault a 0x010B 0x04 0) := by
  subst ht
  refine ⟨fun hp => transfer_not_taken h hl (if_neg (mt hc.mp hp)), fun hp hb => ?_, fun hp hb => ?_⟩
  · exact transfer_taken h hl (if_pos (hc.mpr hp)) hb
  · exact transfer_outside h hl (if_pos (hc.mpr hp)) hb

end

/-! ### Instruction faults while the hub runs (R138, R139, R451) -/

section
variable {s : State} {a : At}

/-- A running hub takes an event as the next one detected. -/
theorem post_running (h : s.hub.running = true) (e : Ev) : s.post e = s.setEv { s.ev with detected := s.ev.detected ++
    [{ e with time := s.time, boot := s.ev.bootCount % 65536, fn := (s.job e.ctx).fn }] } := by
  simp only [State.post, h, if_true]
  rfl

@[simp] theorem faultJob_leaves (s : State) (ctx code : Nat) (a : At) :
    (s.faultJob ctx code).at_ a = s.at_ a ∧ (s.faultJob ctx code).ev = s.ev := by
  rcases faultJob_cases s ctx code with h | ⟨j, h⟩ <;> rw [h] <;> exact ⟨rfl, rfl⟩

/-- The first fault of a live job that has not ended is recorded (R393). -/
theorem job_faultJob_first {ctx : Nat} (code : Nat) (hctx : ctx ≠ 0) (hlive : (s.job ctx).live = true)
    (hfirst : (s.job ctx).faulted = false) (hstate : (s.job ctx).state < 3) :
    ((s.faultJob ctx code).job ctx).faulted = true ∧ ((s.faultJob ctx code).job ctx).faultCode = code := by
  simp [State.faultJob, hctx, hlive, hfirst, Nat.not_le.mpr hstate, job_setJob]

@[simp] theorem at_post (s : State) (e : Ev) (a : At) : (s.post e).at_ a = s.at_ a := by
  obtain ⟨v, hv, -⟩ := post_eq_setEv s e
  rw [hv]
  rfl

/-- The slot whose instruction faults stops at that instruction. -/
theorem at_instrFault (s : State) (a : At) (code major info : Nat) :
    ((s.instrFault a code major info).at_ a).faulted = true ∧ ((s.instrFault a code major info).at_ a).pc = (s.at_ a).pc := by
  simp only [State.instrFault, State.coreEvent, State.stopSlot, faultJob_leaves, at_setAt, at_post, and_self]

/-- The event of an instruction fault, in the layout of R139. -/
theorem detected_instrFault (h : s.hub.running = true) (code major info : Nat) :
    (s.instrFault a code major info).ev.detected = s.ev.detected ++ [{
      time := s.time, boot := s.ev.bootCount % 65536, code := code, sev := 2, die := a.core / 24, cls := 0,
      index := a.core, ctx := (s.at_ a).id.ctx, fn := (s.job (s.at_ a).id.ctx).fn,
      detail := a.core * 2 ^ 56 + a.slot * 2 ^ 54 + major * 2 ^ 48 + info % 65536 * 2 ^ 32 + (s.at_ a).pc % 2 ^ 32 }] := by
  simp only [State.instrFault, State.coreEvent, State.stopSlot, (faultJob_leaves _ _ _ a).2, post_running h]
  rfl

theorem job_instrFault_first (code major info : Nat) (hctx : (s.at_ a).id.ctx ≠ 0)
    (hlive : (s.job (s.at_ a).id.ctx).live = true) (hfirst : (s.job (s.at_ a).id.ctx).faulted = false)
    (hstate : (s.job (s.at_ a).id.ctx).state < 3) :
    ((s.instrFault a code major info).job (s.at_ a).id.ctx).faulted = true
      ∧ ((s.instrFault a code major info).job (s.at_ a).id.ctx).faultCode = code := by
  have hjob (e : Ev) : ((s.post e).stopSlot a).job (s.at_ a).id.ctx = s.job (s.at_ a).id.ctx := by
    obtain ⟨v, hv, -⟩ := post_eq_setEv s e
    rw [hv]
    rfl
  exact job_faultJob_first code hctx ((congrArg Job.live (hjob _)).trans hlive)
    ((congrArg Job.faulted (hjob _)).trans hfirst) ((congrArg Job.state (hjob _)).trans_lt hstate)

/-- A word of an unassigned opcode faults in the native profile (R108). -/
theorem execIllegalOpcode_native {w : Word} (h : s.Ready a 8) (hp : (s.at_ a).id.profile = false)
    (hw : opcodeAssigned (w.toNat / 2 ^ 58) (w.toNat / 2 ^ 52 % 64) = false) : execIllegalOpcode a w s
      = .next (s.instrFault a 0x0101 (w.toNat / 2 ^ 58) (w.toNat / 2 ^ 52 % 64)) := by
  have hmajor : fieldOf w.toNat 58 6 = w.toNat / 2 ^ 58 := by
    have := w.isLt
    rw [fieldOf, Nat.shiftRight_eq_div_pow]
    omega
  have hminor : fieldOf w.toNat 52 6 = w.toNat / 2 ^ 52 % 64 := by
    rw [fieldOf, Nat.shiftRight_eq_div_pow]
    rfl
  simp only [execIllegalOpcode, hmajor, hminor, hw, issue_ready h, hp, Bool.false_and, Bool.false_eq_true, if_false]

end

/-- Settles O7: `branch_cases` with each comparison, `transfer_taken` for the jumps, and what an instruction fault leaves. -/
theorem controlFlow : Obligations.ControlFlow := by
  refine ⟨?branches, ?jumps, ?illegal⟩
  case branches =>
    intro s a f h hl sl x y t gives
    have hgives {c : Instr} {p : Prop} {cmp : Word → Word → Bool} (hc : exec c s = .next (s.branch a f cmp))
        (hp : cmp x y = true ↔ p) : gives c p := by
      obtain ⟨hnot, htaken, hout⟩ := branch_cases h hl hp rfl
      exact ⟨fun hp => hc.trans (congrArg _ (hnot hp)),
        fun hp ht hin => hc.trans (congrArg _ (htaken hp (badTarget_eq_false ht hin))),
        fun hp hb => hc.trans (congrArg _ (hout hp (badTarget_eq_true hb)))⟩
    exact ⟨hgives rfl decide_eq_true_iff, hgives rfl decide_eq_true_iff, hgives rfl BitVec.slt_iff_toInt_lt,
      hgives rfl (by simp [BitVec.slt]), hgives rfl BitVec.ult_iff_toNat_lt, hgives rfl (by simp [BitVec.ult])⟩
  case jumps =>
    intro s a f h sl gives
    exact ⟨fun hl ht hin => congrArg _ (transfer_taken h hl rfl (badTarget_eq_false ht hin)),
      fun hl ht hin => congrArg _ (transfer_taken h hl rfl (badTarget_eq_false ht hin))⟩
  case illegal =>
    intro s a w h hp hrun major minor hw
    have hinfo : minor % 65536 = minor := by omega
    refine ⟨_, execIllegalOpcode_native h hp hw, (at_instrFault ..).1, (at_instrFault ..).2, slotFault_mem .., ?_,
      job_instrFault_first _ _ _⟩
    rw [detected_instrFault hrun, hinfo]

end Sys2Proof.Machine

namespace Sys2Proof.Machine
open Host

/-! ### Vector floating point (R116, R117, R429) -/

section
variable {s : State} {a : At} {f : Fields} {fmts : List Nat}

theorem vec3_ready {src2 src3 : Kind} (h : s.Ready a 8) (hl : s.Legal a (vUse .v .v src2 src3) f) (hf : f.fmt ∈ [0, 1])
    (hq : (s.at_ a).qVec = []) (hu : a.upset = .ok) (op : Fv → Fv → Fv → Fv) :
    s.vec3 a src2 src3 f op = s.done a 8 ((s.at_ a).wvPred f (fun i => fpLane f.fmt op ((s.at_ a).lane f.src1 i)
      ((s.at_ a).lane f.src2 i) ((s.at_ a).lane f.src3 i))) := by
  rw [State.vec3, vecGuarded_ready h hl hf hq hu, laneFmt_ok hf]

theorem vecFp_ready {src2 : Kind} (h : s.Ready a 8) (hl : s.Legal a (vUse .v .v src2 .none_) f) (hf : f.fmt ∈ fmts)
    (hq : (s.at_ a).qVec = []) (op : Nat → Lane → Lane → Lane) :
    s.vecFp a src2 fmts f op = s.done a 8 ((s.at_ a).wvPred f (fun i => op f.fmt ((s.at_ a).lane f.src1 i)
      ((s.at_ a).lane f.src2 i))) := by
  rw [State.vecFp, vec_ready h hl hf hq, laneFmt_ok hf]

/-- All bits of a lane but the sign bits. -/
theorem not_signMask (fmt : Nat) : ~~~(signMask fmt) = if fmt = 1 then 0x7FFF7FFF else 0x7FFFFFFF := by
  unfold signMask
  split <;> decide

theorem fieldOf_high_half (x : Lane) : fieldOf x.toNat 16 16 = x.toNat / 65536 := by
  have := x.isLt
  rw [fieldOf, Nat.shiftRight_eq_div_pow]
  omega

end

/-- Settles O9: `vec3_ready` and `vecFp_ready`, with the lane operation of each instruction. -/
theorem vectorFloatResult : Obligations.VectorFloatResult := by
  intro s a f h hq hu sl ready gives
  have hfma {c : Instr} {src2 src3 : Kind} {op : Fv → Fv → Fv → Fv} (hc : exec c s = .next (s.vec3 a src2 src3 f op))
      (hr : ready src2 src3 [0, 1]) : gives c (fpLane f.fmt op) :=
    hc.trans (congrArg _ (vec3_ready h hr.1 hr.2 hq hu op))
  have hfp {c : Instr} {src2 : Kind} {fmts : List Nat} {op : Nat → Lane → Lane → Lane} {g : Lane → Lane → Lane → Lane}
      (hc : exec c s = .next (s.vecFp a src2 fmts f op)) (hr : ready src2 .none_ fmts)
      (hg : ∀ x y z, op f.fmt x y = g x y z) : gives c g := by
    obtain rfl : (fun x y _ => op f.fmt x y) = g := by funext x y z; exact hg x y z
    exact hc.trans (congrArg _ (vecFp_ready h hr.1 hr.2 hq op))
  clear_value gives
  refine ⟨fun hr => ?two, fun hr => ?three, fun hr => ?sign, fun hr => ?convert, fun hr => ?pack⟩
  case two =>
    exact ⟨hfma rfl hr, hfma rfl hr, hfma rfl hr, hfp rfl hr fun _ _ _ => rfl, hfp rfl hr fun _ _ _ => rfl⟩
  case three => exact ⟨hfma rfl hr, hfma rfl hr, hfma rfl hr⟩
  case sign => exact ⟨hfp rfl hr fun x _ _ => by rw [not_signMask], hfp rfl hr fun _ _ _ => rfl⟩
  case convert =>
    exact ⟨hfp rfl hr fun _ _ _ => rfl, hfp rfl hr fun _ _ _ => rfl, hfp rfl hr fun _ _ _ => rfl,
      hfp rfl hr fun x _ _ => by rw [fieldOf_high_half]⟩
  case pack => exact hfp rfl hr fun _ _ _ => rfl

/-! ### Vector compares and integers (R117) -/

section
variable {s : State} {a : At} {f : Fields} {fmts : List Nat}

theorem vecCmp_ready (h : s.Ready a 8) (hl : s.Legal a (vUse .p .v .v .none_) f) (hf : f.fmt ∈ fmts)
    (hq : (s.at_ a).qVec = []) (op : Nat → Lane → Lane → Bool) :
    s.vecCmp a fmts f op = s.done a 8 ((s.at_ a).wpPred f (fun i => op f.fmt ((s.at_ a).lane f.src1 i)
      ((s.at_ a).lane f.src2 i))) := by
  rw [State.vecCmp, vec_ready h hl hf hq, laneFmt_ok hf]

theorem vecInt_ready (h : s.Ready a 8) (hl : s.Legal a (vUse .v .v .v .none_) f) (hf : f.fmt = 0xD)
    (hq : (s.at_ a).qVec = []) (op : Lane → Lane → Lane) : s.vecInt a f op
      = s.done a 8 ((s.at_ a).wvPred f (fun i => op ((s.at_ a).lane f.src1 i) ((s.at_ a).lane f.src2 i))) := by
  rw [State.vecInt, vec_ready h hl (by simp [hf]) hq]

theorem cmpLane_int (fp : Fv → Fv → Bool) (int : Int → Int → Bool) (x y : Lane) :
    cmpLane fp int 0xD x y = int x.toInt y.toInt := rfl

theorem cmpLane_fp (fp : Fv → Fv → Bool) (int : Int → Int → Bool) (x y : Lane) :
    cmpLane fp int 0 x y = fp (.ofLane x) (.ofLane y) := rfl

end

/-- Settles O10: `vecCmp_ready` in INT32 and in FP32 lanes. -/
theorem vectorCompareResult : Obligations.VectorCompareResult := by
  intro s a f h hq hl sl gives
  have hgives {c : Instr} {fmts : List Nat} {op : Nat → Lane → Lane → Bool} {g : Lane → Lane → Bool}
      (hc : exec c s = .next (s.vecCmp a fmts f op)) (hf : f.fmt ∈ fmts) (hg : ∀ x y, op f.fmt x y = g x y) :
      gives c g := by
    have ht := vecCmp_ready h hl hf hq op
    simp only [hg] at ht
    exact hc.trans (congrArg _ ht)
  clear_value gives
  refine ⟨fun hf => ?int, fun hf => ?fp⟩
  case int =>
    have hint : f.fmt ∈ [0, 0xD] := by simp [hf]
    have hlane (fp : Fv → Fv → Bool) (int : Int → Int → Bool) (x y : Lane) :
        cmpLane fp int f.fmt x y = int x.toInt y.toInt := hf ▸ cmpLane_int fp int x y
    exact ⟨hgives rfl hint (hlane _ _), hgives rfl hint (hlane _ _), hgives rfl hint (hlane _ _),
      hgives rfl hint (hlane _ _), hgives rfl hint (hlane _ _), hgives rfl (by simp [hf]) fun _ _ => rfl⟩
  case fp =>
    have hfp : f.fmt ∈ [0, 0xD] := by simp [hf]
    have hlane (fp : Fv → Fv → Bool) (int : Int → Int → Bool) (x y : Lane) :
        cmpLane fp int f.fmt x y = fp (.ofLane x) (.ofLane y) := hf ▸ cmpLane_fp fp int x y
    exact ⟨hgives rfl hfp (hlane _ _), hgives rfl hfp (hlane _ _), hgives rfl hfp (hlane _ _),
      hgives rfl hfp (hlane _ _), hgives rfl hfp (hlane _ _)⟩

section
variable {w : Nat} (x y : BitVec w) (n : Nat)

theorem add_eq_ofNat : x + y = BitVec.ofNat w (x.toNat + y.toNat) := BitVec.eq_of_toNat_eq (by simp)

theorem sub_eq_ofInt : x - y = BitVec.ofInt w (x.toInt - y.toInt) := BitVec.eq_of_toInt_eq (by simp)

theorem shiftLeft_eq_ofNat : x <<< n = BitVec.ofNat w (x.toNat * 2 ^ n) :=
  BitVec.eq_of_toNat_eq (by simp [Nat.shiftLeft_eq])

theorem ushiftRight_eq_ofNat : x >>> n = BitVec.ofNat w (x.toNat / 2 ^ n) :=
  BitVec.eq_of_toNat_eq (by
    simp [Nat.shiftRight_eq_div_pow, Nat.mod_eq_of_lt ((Nat.div_le_self ..).trans_lt x.isLt)])

theorem sshiftRight_eq_ofInt : x.sshiftRight n = BitVec.ofInt w (x.toInt / 2 ^ n) := by
  rw [← BitVec.ofInt_toInt (x := x.sshiftRight n), BitVec.toInt_sshiftRight, Int.shiftRight_eq_div_pow]
  norm_cast

end

/-- Settles O11: `vecInt_ready`, with each lane operation as arithmetic on the lanes' numbers. -/
theorem vectorIntegerResult : Obligations.VectorIntegerResult := by
  intro s a f h hq hl hf sl gives
  have hgives {c : Instr} {op g : Lane → Lane → Lane} (hc : exec c s = .next (s.vecInt a f op))
      (hg : ∀ x y, op x y = g x y) : gives c g := by
    have ht := vecInt_ready h hl hf hq op
    simp only [hg] at ht
    exact hc.trans (congrArg _ ht)
  clear_value gives
  exact ⟨hgives rfl add_eq_ofNat, hgives rfl sub_eq_ofInt, hgives rfl mul_eq_ofNat, hgives rfl fun _ _ => rfl,
    hgives rfl fun _ _ => rfl, hgives rfl fun _ _ => rfl, hgives rfl fun _ _ => shiftLeft_eq_ofNat ..,
    hgives rfl fun _ _ => ushiftRight_eq_ofNat .., hgives rfl fun _ _ => sshiftRight_eq_ofInt ..,
    hgives rfl fun _ _ => ite_slt .., hgives rfl fun _ _ => ite_slt .., hgives rfl fun _ _ => ite_ult ..,
    hgives rfl fun _ _ => ite_ult ..⟩

/-! ### Permutes and predicates (R117, R120, R122) -/

/-- PFIRST sets the lowest lanes, as many as its operand says (R122). -/
theorem getLsbD_lowest (n : Nat) {i : Nat} (hi : i < 1024) :
    (BitVec.ofNat 1024 (2 ^ (min n 1024) - 1)).getLsbD i = decide (i < n) := by
  rw [BitVec.getLsbD_ofNat, Nat.testBit_two_pow_sub_one]
  simp [hi]

/-- A predicate has a bit set unless it is 0. -/
theorem boolWord_ne_zero (p : PredBits) : boolWord (p != 0) = if p = 0 then 0 else 1 := by
  by_cases hp : p = 0
  · rw [boolWord, if_neg (fun hb => bne_iff_ne.mp hb hp), if_pos hp]
  · rw [boolWord, if_pos (bne_iff_ne.mpr hp), if_neg hp]

/-- Settles O12: `vec_ready` for the lanes and `vecSlotOp_ready` for the predicates. -/
theorem permuteAndPredicate : Obligations.PermuteAndPredicate := by
  constructor
  case left =>
    intro s a f h hq sl gives
    have hgives {c : Instr} {m : Nat} {u : Use} {fmts : List Nat} {v : Slot → Nat → Lane} {g : Nat → Lane}
        (hc : exec c s = .next (s.vec a m u fmts f (fun _ sl => sl.wvPred f (v sl)))) (hg : v sl = g) :
        gives c u fmts g := fun hl hf => hc.trans (congrArg _ (hg ▸ vec_ready h hl hf hq m _))
    clear_value gives
    exact ⟨hgives rfl rfl, hgives rfl rfl, hgives rfl rfl, hgives rfl rfl, hgives rfl rfl, hgives rfl rfl, hgives rfl rfl,
      hgives rfl rfl, hgives rfl rfl⟩
  case right =>
    intro s a f h hq sl x y gives
    have hgives {c : Instr} {u : Use} {g : Slot → Slot} {v : Slot} (hc : exec c s = .next (s.vecSlotOp a 0x1C u f g))
        (hv : g sl = v) : gives c u v := fun hl => hc.trans (congrArg _ (hv ▸ vecSlotOp_ready h hl hq _ g))
    have hfirst (hl : s.Legal a (pUse .p .s .none_) f) := vecSlotOp_ready h hl hq 0x1C (fun sl =>
      sl.wp f.dst.toNat (BitVec.ofNat 1024 (2 ^ (min (sl.rs f.src1).toNat 1024) - 1)))
    clear_value gives
    exact ⟨hgives rfl rfl, hgives rfl rfl, hgives rfl rfl, hgives rfl rfl, hgives rfl rfl, hgives rfl rfl, hgives rfl rfl,
      fun hl => ⟨_, congrArg Outcome.next (hfirst hl), fun i hi => getLsbD_lowest _ hi⟩, hgives rfl rfl,
      hgives rfl (by rw [boolWord_ne_zero])⟩

/-! ### Reductions (R123) -/

section
variable {s : State} {a : At} {f : Fields} {fmts : List Nat}

theorem reduce_ready (h : s.Ready a 8) (hl : s.Legal a reduceUse f) (hg : reduceG f ≤ 10) (hf : f.fmt ∈ fmts)
    (hq : (s.at_ a).qVec = []) (hu : a.upset = .ok) (major : Nat) (red : Nat → Nat → List (Option Lane) → Lane) :
    s.reduce a major fmts f red = (s.done a 8 ((s.at_ a).wvPred f (fun i =>
      ((List.range (1024 / 2 ^ reduceG f)).map (fun j => red f.fmt (reduceG f) (segment (s.at_ a) f (reduceG f) j))).getD
        (i / 2 ^ reduceG f) 0))).tick := by
  have hfield : badField (s.at_ a).id.profile reduceUse f = none := hl
  have hg' : ¬ reduceG f > 10 := Nat.not_lt.mpr hg
  simp only [State.reduce, issue_ready h, hfield, hg', decide_false, stopIf_false, badFormat_ok hf,
    mustWait_free (e := .vector) hq, firstStop_none, firstStop_nil, State.guarded, hu, laneFmt_ok hf]
  rfl

/-- From an empty best on, a fold that always finds one has one where the list has an element. -/
theorem foldl_some_isSome {α : Type} {step : Option α → α → Option α} (hs : ∀ b x, (step b x).isSome) {l : List α}
    (hl : l ≠ []) (b : Option α) : (l.foldl step b).isSome := by
  rw [← List.dropLast_append_getLast hl, List.foldl_append]
  exact hs _ _

/-- A segment with a lane that counts has an extreme. -/
theorem argSeg_isSome (before : Fv → Fv → Bool) (fmt : Nat) {l : List (Option Lane)} (h : ∃ x ∈ l, x ≠ none) :
    (argSeg before fmt l).isSome := by
  obtain ⟨x, hx, hne⟩ := h
  obtain ⟨i, hi, rfl⟩ := List.getElem_of_mem hx
  obtain ⟨y, hy⟩ := Option.ne_none_iff_exists'.mp hne
  have hd : l.getD i none = some y := by rw [List.getD_eq_getElem l none hi, hy]
  unfold argSeg
  dsimp only
  split
  · rfl
  · rw [Option.isSome_map]
    refine foldl_some_isSome (fun b e => ?_) (List.ne_nil_of_mem (a := (i, laneVal fmt y)) ?_) none
    · cases b with
      | none => rfl
      | some b => dsimp only; split <;> rfl
    · exact List.mem_filterMap.mpr ⟨i, List.mem_range.mpr hi, by rw [hd]⟩

end

/-- Settles O14: `reduce_ready`, with the result that each reduction gives to a segment. -/
theorem reductionResult : Obligations.ReductionResult := by
  intro s a f h hq hu hl hg10 sl g gives
  have hgives {c : Instr} {m : Nat} {fmts : List Nat} {red : Nat → Nat → List (Option Lane) → Lane}
      {red' : List (Option Lane) → Lane} (hc : exec c s = .next (s.reduce a m fmts f red)) (hf : f.fmt ∈ fmts)
      (hred : ∀ j < 1024 / 2 ^ g, red f.fmt g (segment sl f g j) = red' (segment sl f g j)) : gives c red' := by
    have ht := reduce_ready h hl hg10 hf hq hu m red
    rw [List.map_congr_left fun j hj => hred j (List.mem_range.mp hj)] at ht
    exact hc.trans (congrArg _ ht)
  clear_value gives
  refine ⟨fun hf => ?float, fun hf => ?int, fun hf hlanes => ?arg⟩
  case float =>
    have hf0 : f.fmt ∈ [0] := by simp [hf]
    exact ⟨hgives rfl hf0 fun _ _ => rfl, hgives rfl hf0 fun j _ => congrArg (pairTree addLane 0 g) List.map_map,
      hgives rfl hf0 fun _ _ => rfl, hgives rfl hf0 fun _ _ => rfl⟩
  case int => exact hgives rfl (by simp [hf]) fun _ _ => rfl
  case arg =>
    have hf' : f.fmt ∈ [0, 0xD] := by simpa using hf
    have hextreme (before : Fv → Fv → Bool) (j : Nat) (hj : j < 1024 / 2 ^ g) :
        ∃ i, argSeg before f.fmt (segment sl f g j) = some i :=
      Option.isSome_iff_exists.mp (argSeg_isSome before f.fmt (hlanes j hj))
    refine ⟨hgives rfl hf' fun j hj => ?_, hgives rfl hf' fun j hj => ?_⟩
    · obtain ⟨i, hi⟩ := hextreme (fun x y => y.lt x) j hj
      simp only [hi, Option.getD_some]
    · obtain ⟨i, hi⟩ := hextreme (fun x y => x.lt y) j hj
      simp only [hi, Option.getD_some]

end Sys2Proof.Machine

namespace Sys2Proof.Machine
open Host

/-! ### System instructions (R128, R131, R136, R137, R447) -/

section
variable {s : State} {a : At} {f : Fields}

theorem fence_ready (h : s.Ready a 8) (hl : s.Legal a (xUse .none_ [(2, 30)]) f) (hi : f.imm.toNat % 4 ≠ 3)
    (ho : s.outstanding a = false) : execFence a f s = .next (s.advance a 8) := by
  have hfield : fieldOf f.imm.toNat 0 2 ≠ 3 := hi
  rw [State.Legal] at hl
  exact congrArg _ (run_ready h (by simp [hl, hfield, fenceStop, ho]) ..)

theorem waitEng_ready (h : s.Ready a 8)
    (hl : s.Legal a { dst := .none_, src1 := .none_, src2 := .none_, src3 := .none_, imm := [(16, 16), (6, 10)] } f)
    (hb : s.engBusy a (f.imm.toNat % 64) = false) : execWaitEng a f s = .next (s.advance a 8) := by
  have hbusy : s.engBusy a (fieldOf f.imm.toNat 0 6) = false := hb
  rw [State.Legal] at hl
  exact congrArg _ (run_ready h (by simp [hl, hbusy]) ..)

theorem cntRead_ready (h : s.Ready a 8) (hl : s.Legal a (xUse .s [(8, 24)]) f) {v : Word}
    (hv : counterValue (s.at_ a) s.freeCtr (f.imm.toNat % 256) = some v) :
    execCntRead a f s = .next ((s.setAt a ((s.at_ a).ws f.dst v)).tick.advance a 8) := by
  have hvalue : counterValue (s.at_ a) s.freeCtr (fieldOf f.imm.toNat 0 8) = some v := hv
  rw [State.Legal] at hl
  rw [execCntRead, run_ready h (by simp [hl, hvalue])]
  simp only [hvalue]

theorem trap_ready (h : s.Ready a 8) (hl : s.Legal a (xUse .none_ [(16, 16)]) f) :
    execTrap a f s = .next (s.instrFault a 0x0108 0x3E (f.imm.toNat % 65536)) := by
  rw [State.Legal] at hl
  simp only [execTrap, issue_ready h, hl]
  rfl

/-- STEST of context 0 puts its core under test (R447). -/
theorem stest_ready (h : s.Ready a 8) (hl : s.Legal a (xUse .none_ [(0, 32)]) f) (hc : (s.at_ a).id.ctx = 0) :
    execStest a f s = .next ((s.setCore a.core { s.core a.core with
      health := { (s.core a.core).health with underTest := true } }).advance a 8) := by
  rw [State.Legal] at hl
  exact congrArg _ (run_ready h (by simp [hl, hc]) ..)

theorem stest_denied (h : s.Ready a 8) (hl : s.Legal a (xUse .none_ [(0, 32)]) f) (hc : (s.at_ a).id.ctx ≠ 0) :
    execStest a f s = .next (s.instrFault a 0x0107 0x3E 0) := by
  rw [State.Legal] at hl
  exact congrArg _ (run_stop h (x := .instr 0x0107 0) (by simp [hl, hc]) ..)

@[simp] theorem health_advance (s : State) (a : At) (n : Nat) :
    ((s.advance a n).core a.core).health = (s.core a.core).health := by
  simp [State.advance, State.setAt, State.setSlot, core_setCore, Core.setSlot]

theorem at_setCore_health (s : State) (a : At) (v : CoreHealth) :
    (s.setCore a.core { s.core a.core with health := v }).at_ a = s.at_ a := by
  simp [State.at_, State.slot, core_setCore, Core.slot]

/-- END of a task of a live job (R136): its place says so, its slot is freed, its group's barriers are settled (R134). -/
theorem endTask_ready (h : s.Ready a 8) (hl : s.Legal a (xUse .none_ [(0, 32)]) f) (ho : s.outstanding a = false)
    (hlive : (s.job (s.at_ a).id.ctx).live = true) : execEndTask a f s
      = .next (((s.setJob (s.at_ a).id.ctx ((s.job (s.at_ a).id.ctx).setTask (s.at_ a).stage (s.at_ a).task
          { (s.job (s.at_ a).id.ctx).task (s.at_ a).stage (s.at_ a).task with state := 4 })).freeSlot a.core
          a.slot).settleGroup (s.at_ a).id.ctx (s.at_ a).stage) := by
  rw [State.Legal] at hl
  simp only [execEndTask, issue_ready h, hl, fenceStop, ho, stopIf_false, firstStop_none, firstStop_nil, hlive, if_true]

/-! ### Tier hints (R307, R308) -/

@[simp] theorem hint_variant (s : State) (a : At) (tier x : Nat) : (s.hint a tier x).variant = s.variant := by
  unfold State.hint
  dsimp only
  split <;> rfl

/-- Every extent that TIER.UP or TIER.DOWN names is hinted, on a part that has the tier. -/
theorem tierHint_ready (h : s.Ready a 8) (hstop : tierStop false f s a = none) (hv : s.variant ≠ .tbx20d) (tier : Nat)
    {xs : List Nat} (hxs : blocksOf extentBytes ((s.at_ a).rs f.src1).toNat ((s.at_ a).rs f.src2).toNat = xs) {u : State}
    (hu : xs.foldl (fun s x => s.hint a tier x) s = u) :
    s.tierHint a f tier = u.done a 8 ((u.at_ a).ws f.dst (BitVec.ofNat 64 xs.length)) := by
  have hvariant : u.variant ≠ .tbx20d := by
    rwa [← hu, foldl_leaves (g := State.variant) (fun s x => hint_variant s a tier x)]
  rw [State.tierHint, run_ready h hstop]
  simp only [hxs, hu, if_neg hvariant]
  rfl

end

/-- Settles O18: each instruction's effect where it issues and passes its checks. -/
theorem systemInstructions : Obligations.SystemInstructions := by
  refine ⟨?system, fun s a f h hl ho => endTask_ready h hl ho, ?tiers⟩
  case system =>
    intro s a f h sl
    refine ⟨fun hl => congrArg _ (run_ready h hl ..), fence_ready h, waitEng_ready h, fun v hl hv => cntRead_ready h hl hv,
      fun hl => congrArg _ (slotOp_ready h hl ..), trap_ready h, fun hl hc => ⟨_, stest_ready h hl hc, ?_, ?_⟩,
      stest_denied h⟩
    · rw [health_advance, core_setCore, if_pos rfl]
    · rw [at_advance, at_setCore_health]
  case tiers =>
    intro s a f h hv sl xs hinted
    exact ⟨fun hstop => ⟨congrArg _ (tierHint_ready h hstop hv 0 rfl rfl),
      congrArg _ (tierHint_ready h hstop hv 1 rfl rfl)⟩, fun hstop => congrArg _ (run_ready h hstop ..)⟩

end Sys2Proof.Machine

namespace Sys2Proof.Machine
open Host

/-! ### Commands that have been taken (R484, R485, R531) -/

/-- The command with opcode `op` at the head of SQ `q` is carried out on `t`, with reply `r` and fields `e`. -/
structure State.Begins (s : State) (q op : Nat) (t : State) (r : Reply) (e : Sqe) : Prop where
  runs : ∀ body : Body, s.take q op 1 body = body t r e
  opcode : e.op = op

theorem begins_taken {s : State} {q op : Nat} {bs : List Byte} (h : s.Takes q op 1 bs) :
    s.Begins q op (s.taken q 1) (s.replyOf q bs) (sqeOf bs) := ⟨take_taken h, h.2.1⟩

section
variable {s t : State} {q : Nat} {r : Reply} {e : Sqe}

theorem pfOnly_pf0 (hr : r.fn = 0) (body : State → State) : t.pfOnly r e body = body t := if_pos hr

theorem pfOnly_vf (hr : r.fn ≠ 0) (body : State → State) :
    t.pfOnly r e body = (t.refuse (.vf r.fn) e.op).finish r 0x0A 0 0 := if_neg hr

/-! ### Code objects (R140 to R142) -/

/-- A code object whose header, sections and digest pass every check of R141 takes a free ID. -/
theorem codeLoad_begins (h : s.Begins q 0x10 t r e) {hd d : List Byte} {i : Nat} (halign : e.desc % 4096 = 0)
    (hown : r.fn = 0 ∨ hostBase ≤ e.desc ∨ (t.objOf (e.desc / extentBytes)).fn = r.fn)
    (hhead : t.readDesc e.desc 256 = some hd) (hbad : headBad hd = none) (hsec : t.sections e.desc hd = some d)
    (hdig : Config.shake256 d 32 = (hd.drop 32).take 32) (hver : recField hd 4 2 = 1 → recField hd 6 1 ≠ 0)
    (hid : t.pickId (fun i => decide ((t.code i).version ≠ 0)) 1 65535 t.codes.length = some i) :
    execCodeLoad q s = .next ({ t.tick with codes := mapSet {} t.codes i (codeOf hd e.desc r.fn) }.finish r 0 0 i) := by
  have hmine : (decide (r.fn ≠ 0) && decide (e.desc < hostBase)
      && decide ((t.objOf (e.desc / extentBytes)).fn ≠ r.fn)) = false := by
    rcases hown with h | h | h
    · simp [h]
    · simp [Nat.not_lt.mpr h]
    · simp [h]
  have hversion : (decide (recField hd 4 2 = 1) && decide (recField hd 6 1 = 0)) = false := by simpa using hver
  simp only [execCodeLoad, h.runs, halign, hmine, hhead, hbad, hsec, hdig, hversion, hid, ne_eq, not_true_eq_false,
    Bool.false_eq_true, if_false]
  rfl

/-- A loaded code object, named by a function that may unload it: unloaded unless a live job names it (R142). -/
theorem codeUnload_begins (h : s.Begins q 0x11 t r e) (hv : (t.code e.arg1).version ≠ 0)
    (hown : r.fn = 0 ∨ (t.code e.arg1).fn = r.fn) : execCodeUnload q s
      = .next (if t.codeNamed e.arg1 then t.finish r 0x15 0 0 else (t.unload e.arg1).finish r 0 0 0) := by
  have hmine : (decide (r.fn ≠ 0) && decide ((t.code e.arg1).fn ≠ r.fn)) = false := by
    rcases hown with h | h <;> simp [h]
  simp only [execCodeUnload, h.runs, hv, hmine, Bool.false_eq_true, if_false]

/-! ### Bias flips and the host pool (R475, R479) -/

theorem mapGet_foldl_mapSet {β : Type} [DecidableEq β] {d v : β} (xs : List Nat) (m : List (Nat × β)) (k : Nat) :
    mapGet d (xs.foldl (fun m x => mapSet d m x v) m) k = if k ∈ xs then v else mapGet d m k := by
  induction xs generalizing m with
  | nil => rfl
  | cons x xs ih =>
    rw [List.foldl_cons, ih, mapGet_mapSet]
    by_cases hk : k ∈ xs
    · simp [hk]
    · simp [hk]

/-- The bias table with the same bias for all of `xs`. -/
def State.biasOver (t : State) (xs : List Nat) (v : Bool) : List (Nat × Bool) :=
  xs.foldl (fun m x => mapSet false m x v) t.mem.bias

/-- A flip of extents of which none moves takes place at once and is answered (R475). -/
theorem flipNow_still {f : BiasFlip} (hr : f.reply = some r) (hstill : ∀ x ∈ f.extents, (t.home x).state ≠ 3) :
    t.flipNow f
      = ({ t with mem := { t.mem with bias := t.biasOver f.extents f.toHost } } : State).finish r 0 0 0 := by
  have hwait : f.extents.partition (fun x => decide ((t.home x).state = 3)) = ([], f.extents) := by
    rw [List.partition_eq_filter_filter, List.filter_eq_nil_iff.mpr (by simpa using hstill),
      List.filter_eq_self.mpr (by simpa using hstill)]
  simp only [State.flipNow, hwait, hr, reduceCtorEq, if_false, List.isEmpty_nil, Bool.not_true, Bool.false_eq_true]
  rfl

theorem biasSet_begins (h : s.Begins q 0x1B t r e) (hr : r.fn = 0) {xs : List Nat}
    (hxs : biasExtents e.arg0 (e.arg1 % 2 ^ 32) = xs) (hstill : ∀ x ∈ xs, (t.home x).state ≠ 3) : execBiasSet q s
      = .next (({ t with mem := { t.mem with bias := t.biasOver xs (e.arg1.testBit 32) } } : State).finish r 0 0 0) := by
  subst hxs
  rw [execBiasSet, h.runs, pfOnly_pf0 hr, flipNow_still rfl hstill]

/-- A range of whole extents that meets no other joins the pool while it has room (R479). -/
theorem hostPoolAdd_begins (h : s.Begins q 0x1C t r e) (hr : r.fn = 0) (hb : e.arg0 ≠ 0) (hb' : e.arg0 % extentBytes = 0)
    (hn : e.arg1 ≠ 0) (hn' : e.arg1 % extentBytes = 0)
    (hapart : ∀ x ∈ t.host.pool, x.1 + x.2 ≤ e.arg0 ∨ e.arg0 + e.arg1 ≤ x.1) (hlen : t.host.pool.length < 64)
    (hsum : (t.host.pool.map (·.2)).sum + e.arg1 ≤ 4 * 2 ^ 40) : execHostPoolAdd q s
      = .next ((t.setHost { t.host with pool := t.host.pool ++ [(e.arg0, e.arg1)] }).finish r 0 0 0) := by
  have hmeets : t.host.pool.any (fun x => decide (x.1 < e.arg0 + e.arg1) && decide (e.arg0 < x.1 + x.2)) = false := by
    rw [List.any_eq_false]
    intro x hx
    have := hapart x hx
    simp
    omega
  have hfull : (decide (t.host.pool.length ≥ 64) || decide ((t.host.pool.map (·.2)).sum + e.arg1 > 4 * 2 ^ 40)) = false := by
    simp
    omega
  rw [execHostPoolAdd, h.runs, pfOnly_pf0 hr]
  simp only [hb, hb', hn, hn', hmeets, hfull, ne_eq, not_true_eq_false, decide_false, Bool.or_self, Bool.false_eq_true,
    if_false]

/-! ### Routes, windows, groups (R403, R413, R415) -/

/-- What a run of writes leaves under each key, where the write of place `i` goes to key `a + i` and only where `w` lets
it. -/
theorem mapGet_foldl_range {β : Type} {d : β} {step : List (Nat × β) → Nat → List (Nat × β)} {a : Nat} {val : Nat → β}
    {w : Nat → Prop} [DecidablePred w]
    (hs : ∀ m i k, mapGet d (step m i) k = if k = a + i ∧ w k then val i else mapGet d m k) (n : Nat)
    (m : List (Nat × β)) (k : Nat) : mapGet d ((List.range n).foldl step m) k
      = if a ≤ k ∧ k < a + n ∧ w k then val (k - a) else mapGet d m k := by
  induction n with
  | zero => rw [if_neg (by omega)]; rfl
  | succ n ih =>
    rw [List.range_succ, List.foldl_append, List.foldl_cons, List.foldl_nil, hs, ih]
    by_cases hk : k = a + n
    · subst hk
      simp
    · have hlt : k < a + (n + 1) ↔ k < a + n := by omega
      simp only [hk, false_and, if_false, hlt]

/-- The routing table with the entries of `b` at those that ROUTE_LOAD names, but for the package's own (R403). -/
def State.routesLoaded (t : State) (e : Sqe) (b : List Byte) : List (Nat × Route) :=
  (List.range e.arg1).foldl (fun m i => if t.hub.pkgAssigned && e.arg0 + i = t.hub.pkgId then m
    else mapSet {} m (e.arg0 + i) (routeOf (b.drop (16 * i)))) t.levee.routes

theorem mapGet_routesLoaded (t : State) (e : Sqe) (b : List Byte) (p : Nat) : mapGet {} (t.routesLoaded e b) p
    = if e.arg0 ≤ p ∧ p < e.arg0 + e.arg1 ∧ ¬ (t.hub.pkgAssigned = true ∧ p = t.hub.pkgId)
      then routeOf (b.drop (16 * (p - e.arg0))) else mapGet {} t.levee.routes p := by
  refine mapGet_foldl_range (val := fun i => routeOf (b.drop (16 * i)))
    (w := fun p => ¬ (t.hub.pkgAssigned = true ∧ p = t.hub.pkgId)) (fun m i k => ?_) e.arg1 t.levee.routes p
  simp only [Bool.and_eq_true, decide_eq_true_eq]
  split
  next hown => rw [if_neg (by rintro ⟨rfl, hne⟩; exact hne hown)]
  next hother =>
    rw [mapGet_mapSet]
    exact if_congr ⟨fun hk => ⟨hk, hk ▸ hother⟩, And.left⟩ rfl rfl

theorem routeLoad_begins (h : s.Begins q 0x38 t r e) {b : List Byte} (hr : r.fn = 0) (hin : e.arg0 + e.arg1 ≤ 4096)
    (hb : t.readDesc e.desc (16 * e.arg1) = some b) : execRouteLoad q s
      = .next (({ t with levee := { t.levee with routes := t.routesLoaded e b } } : State).finish r 0 0 0) := by
  rw [execRouteLoad, h.runs, pfOnly_pf0 hr]
  simp only [gt_iff_lt, Nat.not_lt.mpr hin, if_false, hb]
  rfl

theorem routeLoad_vf (h : s.Begins q 0x38 t r e) (hr : r.fn ≠ 0) :
    execRouteLoad q s = .next ((t.refuse (.vf r.fn) 0x38).finish r 0x0A 0 0) := by
  rw [execRouteLoad, h.runs, pfOnly_vf hr, h.opcode]

/-- The window table with the entries of `b` at those that EXPORT_LOAD names (R413). -/
def State.windowsLoaded (t : State) (e : Sqe) (b : List Byte) : List (Nat × ExportWin) :=
  (List.range e.arg1).foldl (fun m i => mapSet {} m (e.arg0 + i) (windowOf (b.drop (32 * i)))) t.levee.windows

theorem mapGet_windowsLoaded (t : State) (e : Sqe) (b : List Byte) (k : Nat) : mapGet {} (t.windowsLoaded e b) k
    = if e.arg0 ≤ k ∧ k < e.arg0 + e.arg1 then windowOf (b.drop (32 * (k - e.arg0)))
      else mapGet {} t.levee.windows k := by
  have hfold := mapGet_foldl_range (d := ({} : ExportWin)) (a := e.arg0) (val := fun i => windowOf (b.drop (32 * i)))
    (w := fun _ => True) (step := fun m i => mapSet {} m (e.arg0 + i) (windowOf (b.drop (32 * i))))
    (fun m i k => by simp only [and_true]; exact mapGet_mapSet ..) e.arg1 t.levee.windows k
  simp only [and_true] at hfold
  exact hfold

theorem exportLoad_begins (h : s.Begins q 0x39 t r e) {b : List Byte} (hr : r.fn = 0) (hin : e.arg0 + e.arg1 ≤ 256)
    (hb : t.readDesc e.desc (32 * e.arg1) = some b) (hok : windowsBad b e.arg1 = none) : execExportLoad q s
      = .next (({ t with levee := { t.levee with windows := t.windowsLoaded e b } } : State).finish r 0 0 0) := by
  rw [execExportLoad, h.runs, pfOnly_pf0 hr]
  simp only [gt_iff_lt, Nat.not_lt.mpr hin, if_false, hb, hok]
  rfl

/-- No fault is found where no condition holds. -/
theorem firstOf_eq_none {α : Type} {l : List (Bool × α)} : firstOf l = none ↔ ∀ x ∈ l, x.1 = false := by
  induction l with
  | nil => simp [firstOf]
  | cons x l ih =>
    obtain ⟨c, y⟩ := x
    cases c <;> simp [firstOf, ih]

/-- The group that a descriptor and its list of members make (R415). -/
def groupOf (b : List Byte) (ms : List Nat) (fn : Nat) : CollGroup :=
  { live := true, tag := recField b 0 8, members := ms, rank := recField b 12 2, channels := recField b 14 1,
    ctx := recField b 16 2 % 4096, fn := fn }

/-- A descriptor whose fields and members pass every check of R415 makes its group. -/
theorem groupCreate_begins (h : s.Begins q 0x3A t r e) {b l : List Byte} {ctx n rank ix : Nat} {ms : List Nat}
    (hb : t.readDesc e.desc 32 = some b) (hctx : recField b 16 2 % 4096 = ctx) (hn : recField b 10 2 = n)
    (hrank : recField b 12 2 = rank) (hix : recField b 8 2 % 1024 = ix)
    (hms : (List.range n).map (fun i => recField l (2 * i) 2) = ms) (htarget : t.targetBad r.fn ctx = none) (hctx0 : ctx ≠ 0)
    (hctxe : ctx = e.target) (hn2 : 2 ≤ n) (hn4096 : n ≤ 4096) (hlt : rank < n) (hch1 : 1 ≤ recField b 14 1)
    (hch16 : recField b 14 1 ≤ 16) (hfree : (t.group ix).live = false)
    (hl : t.readDesc (e.desc + 32) (2 * n) = some l) (hmem : t.memberBad ms rank = none) :
    execGroupCreate q s = .next ((t.setGroup ix (groupOf b ms r.fn)).finish r 0 0 ix) := by
  have hfields : firstOf [(decide (ctx = 0) || decide (ctx ≠ e.target), 16), (decide (n < 2) || decide (n > 4096), 10),
      (decide (rank ≥ n), 12), (decide (recField b 14 1 = 0) || decide (recField b 14 1 > 16), 14),
      ((t.group ix).live, 8)] = none := by
    rw [firstOf_eq_none]
    simp [hctxe ▸ hctx0, hctxe, hfree]
    omega
  simp only [execGroupCreate, h.runs, hb, hctx, hn, hrank, hix, htarget, hfields, hl, hms, hmem]
  subst hctx hrank
  rfl

/-- A group that is live and that no collective uses ends at the word of a function that may end it. -/
theorem groupDestroy_begins (h : s.Begins q 0x3B t r e) (hi : e.arg1 < 1024) (hlive : (t.group e.arg1).live = true)
    (hown : r.fn = 0 ∨ (t.group e.arg1).fn = r.fn) (hidle : ∀ c ∈ t.levee.colls, c.group ≠ e.arg1) :
    execGroupDestroy q s = .next ((t.setGroup e.arg1 {}).finish r 0 0 0) := by
  have hnone : (decide (e.arg1 ≥ 1024) || !(t.group e.arg1).live) = false := by simp [hlive, hi]
  have hmine : (decide (r.fn ≠ 0) && decide ((t.group e.arg1).fn ≠ r.fn)) = false := by
    rcases hown with h | h <;> simp [h]
  have hunused : t.levee.colls.any (fun c => decide (c.group = e.arg1)) = false := by simpa using hidle
  simp only [execGroupDestroy, h.runs, hnone, hmine, hunused, Bool.false_eq_true, if_false]

/-- TABLE_RELOAD requests the reloads of the regions whose bits are set (R191). -/
theorem tableReload_begins (h : s.Begins q 0x48 t r e) (hr : r.fn = 0) : execTableReload q s
    = .next ((((List.range 16).filter (fun i => e.arg0.testBit i)).foldl State.tableRequest t).finish r 0 0 0) := by
  rw [execTableReload, h.runs, pfOnly_pf0 hr]

end

/-- Settles O35: each command as it begins (`begins_taken`), and what its writes leave in the table it loads. -/
theorem tablesAndRoutes : Obligations.TablesAndRoutes := by
  refine ⟨fun s q op bs h => ⟨?load, ?unload, ?named, ?bias, ?pool, ?reload⟩,
    fun s q op bs h => ⟨?routes, ?routesVf, ?windows, ?create, ?destroy⟩⟩
  case load =>
    rintro rfl hd d i halign hown hhead hbad hsec hdig hver hid
    exact codeLoad_begins (begins_taken h) halign hown hhead hbad hsec hdig hver hid
  case unload =>
    rintro rfl hv hown hn
    exact (codeUnload_begins (begins_taken h) hv hown).trans (congrArg _ (if_neg (Bool.eq_false_iff.mp hn)))
  case named =>
    rintro rfl hv hown hn
    exact (codeUnload_begins (begins_taken h) hv hown).trans (congrArg _ (if_pos hn))
  case bias =>
    rintro rfl hr xs hstill
    exact ⟨_, biasSet_begins (begins_taken h) hr rfl hstill, mapGet_foldl_mapSet xs _⟩
  case pool =>
    rintro rfl hr hb hb' hn hn' hapart hlen hsum
    exact hostPoolAdd_begins (begins_taken h) hr hb hb' hn hn' hapart hlen hsum
  case reload =>
    rintro rfl hr
    exact tableReload_begins (begins_taken h) hr
  case routes =>
    rintro rfl b hr hin hb
    exact ⟨_, routeLoad_begins (begins_taken h) hr hin hb, mapGet_routesLoaded _ _ _⟩
  case routesVf =>
    rintro rfl hr
    exact routeLoad_vf (begins_taken h) hr
  case windows =>
    rintro rfl b hr hin hb hok
    exact ⟨_, exportLoad_begins (begins_taken h) hr hin hb hok, mapGet_windowsLoaded _ _ _⟩
  case create =>
    rintro rfl b l hb ctx n rank ix ms htarget hctx0 hctxe hn2 hn4096 hlt hch1 hch16 hfree hl hmem
    exact groupCreate_begins (begins_taken h) hb rfl rfl rfl rfl rfl htarget hctx0 hctxe hn2 hn4096 hlt hch1 hch16 hfree hl
      hmem
  case destroy =>
    rintro rfl hi hlive hown hidle
    exact groupDestroy_begins (begins_taken h) hi hlive hown hidle

end Sys2Proof.Machine

namespace Sys2Proof.Machine
open Host

/-! ### What an access's tokens and cache lines leave of the cores (R113, R386, R477) -/

section
variable {s t : State} {a : At}

theorem at_cores (h : t.cores = s.cores) (a : At) : t.at_ a = s.at_ a := by
  rw [State.at_, State.slot, State.core, h]
  rfl

theorem spend_cores (s : State) (who : Who) (uses : List (Nat × Nat)) : (s.spend who uses).cores = s.cores := by
  unfold State.spend
  split
  · rfl
  · refine foldl_leaves (g := State.cores) (fun s x => ?_) uses s
    dsimp only
    split <;> rfl

theorem fillHost_cores (s : State) (write : Bool) (x len : Nat) : (s.fillHost write x len).cores = s.cores := by
  refine foldl_leaves (g := State.cores) (fun s n => ?_) _ s
  unfold State.fillLine
  dsimp only
  split <;> rfl

theorem cacheFill_cores (s : State) (ctx : Nat) (write : Bool) (x len : Nat) :
    (s.cacheFill ctx write x len).cores = s.cores := by
  unfold State.cacheFill
  split
  · split
    · exact fillHost_cores ..
    · rfl
  · split
    · refine foldl_leaves (g := State.cores) (fun s e => ?_) _ s
      dsimp only
      split
      · exact fillHost_cores ..
      · rfl
    · rfl

/-- An access's tokens, its cache lines and its request to another package touch no core. -/
theorem devSpend_cores (s : State) (who : Who) (write : Bool) (g len : Nat) :
    (s.devSpend who write g len).cores = s.cores := by
  unfold State.devSpend
  split
  · exact spend_cores ..
  · exact (cacheFill_cores ..).trans (spend_cores ..)

theorem passFree_cores (s : State) (g len : Nat) : (s.passFree g len).cores = s.cores := by
  unfold State.passFree
  split <;> rfl

/-! ### Sub-queues and the round-robin (R53, R54, R56) -/

/-- A write of a core that keeps its slots leaves every slot. -/
theorem slot_setCore_slots {c : Nat} {v : Core} (h : v.slots = (s.core c).slots) (d k : Nat) :
    (s.setCore c v).slot d k = s.slot d k := by
  rw [State.slot, core_setCore]
  split
  next hd => rw [hd, Core.slot, h]; rfl
  next => rfl

/-- A posted claim is the one thing that changes in its core. -/
theorem postClaim_cases (s : State) (a : At) (e : Engine) :
    s.postClaim a e = s ∨ ∃ l, s.postClaim a e = s.setCore a.core { s.core a.core with claims := l } := by
  unfold State.postClaim
  dsimp only
  split
  · split
    · exact .inl rfl
    · exact .inr ⟨_, rfl⟩
  · exact .inl rfl

@[simp] theorem postClaim_leaves (s : State) (a : At) (e : Engine) :
    (s.postClaim a e).at_ a = s.at_ a ∧ (s.postClaim a e).mem = s.mem := by
  rcases postClaim_cases s a e with h | ⟨l, h⟩ <;> rw [h]
  · exact ⟨rfl, rfl⟩
  · exact ⟨slot_setCore_slots (by rfl) .., rfl⟩

/-- A command joins the end of its engine's sub-queue, and its slot keeps the rest. -/
@[simp] theorem at_enqueue (s : State) (a : At) (e : Engine) (q : Queued) :
    (s.enqueue a e q).at_ a = (s.at_ a).setQueue e ((s.at_ a).queueOf e ++ [q]) := by
  simp [State.enqueue]

@[simp] theorem enqueue_mem (s : State) (a : At) (e : Engine) (q : Queued) : (s.enqueue a e q).mem = s.mem := by
  simp [State.enqueue]

/-- That an engine has served a slot leaves the slots. -/
@[simp] theorem slot_served (s : State) (c : Nat) (e : Engine) (k d j : Nat) :
    (s.served c e k).slot d j = s.slot d j := slot_setCore_slots (by rfl) d j

end

/-! ### TMM (R147, R155, R162) -/

section
variable {s : State} {a : At} {f : Fields} {w2 : Word}

/-- What a TMM captures at issue (R147, R155): its table, its handle, its staging descriptor, its offset registers; no
tile has run. -/
def State.tmmCaptured (s : State) (a : At) (f : Fields) (w2 : Word) : TmmRun :=
  let sl := s.at_ a
  { table := s.tableAt a f, handle := sl.ra f.dst.toNat, dstage := sl.rd f.src2.toNat, offA := offReg sl w2 53,
    offB := offReg sl w2 48, offC := offReg sl w2 43, tile := 0, banks := [], heldA := [], heldB := [] }

/-- A TMM in the tensor sub-queue. -/
def State.tmmQueued (s : State) (a : At) (f : Fields) (w2 : Word) : Queued :=
  let r := s.tmmCaptured a f w2
  { pc := (s.at_ a).pc, major := 0x20, spans := tmmSpans r.table r.handle r.dstage, claims := [], granted := true,
    post := postOf f, flight := .tmm r }

/-- The table read of a TMM: its tokens and cache lines, and its free values where the table is in another package. -/
def State.tableSpent (s : State) (a : At) (f : Fields) : State :=
  let stab := ((s.at_ a).rs f.src1).toNat
  (s.devSpend (s.whoAt a) false stab 256).passFree stab 256

@[simp] theorem tableSpent_leaves (s : State) (a : At) (f : Fields) :
    (s.tableSpent a f).at_ a = s.at_ a ∧ (s.tableSpent a f).mem = s.mem :=
  ⟨at_cores ((passFree_cores ..).trans (devSpend_cores ..)) a, by simp [State.tableSpent]⟩

/-- A TMM that passes its checks and finds room spends its table read, joins the tensor sub-queue and lets the slot go on. -/
theorem tmm_ready (h : s.Ready a 16) (hstop : tmmStop f w2 s a = none)
    (hroom : queueStop (s.at_ a) .tensor
      (tmmSpans (s.tableAt a f) ((s.at_ a).ra f.dst.toNat) ((s.at_ a).rd f.src2.toNat)) = none) :
    execTmm a f w2 s = .next (((s.tableSpent a f).enqueue a .tensor (s.tmmQueued a f w2)).advance a 16) := by
  unfold execTmm
  rw [run_ready h]
  · rfl
  · simp only [hstop, hroom, firstStop_none, firstStop_nil]

/-- The array runs a tile of the TMM at the head of the slot whose turn it is. -/
theorem tensorTileRun_turn {core k : Nat} {q : Queued} {r : TmmRun} {rest : List Queued} (u : TileUpset)
    (hturn : s.turn core .tensor isTmm = some k) (hhead : (s.slot core k).qTa = q :: rest) (hq : q.flight = .tmm r) :
    execTensorTileRun core u s = .next ((s.served core .tensor k).runTile { core := core, slot := k } q r u) := by
  have hqueue : ((s.served core .tensor k).at_ { core := core, slot := k }).qTa = q :: rest := by
    rw [State.at_, slot_served, hhead]
  simp only [execTensorTileRun, hturn, hqueue, List.head?_cons, hq]

end

/-- Settles O20: `tmm_ready`, read field by field, and `tensorTileRun_turn`. -/
theorem tmmIssueAndTile : Obligations.TmmIssueAndTile := by
  constructor
  case left =>
    intro s a f w2 h hstop sl t handle d hroom
    refine ⟨_, s.tmmQueued a f w2, s.tmmCaptured a f w2, tmm_ready h hstop hroom, ?queue, rfl, rfl, rfl, rfl, rfl, rfl,
      rfl, ?pc, ?scalars, ?mem⟩
    case queue => simp [Slot.queueOf, Slot.setQueue, sl]
    case pc => simp [Slot.setQueue, sl]
    case scalars => simp [Slot.setQueue, sl]
    case mem => simp
  case right =>
    intro s core k q r rest u hturn hhead hq
    exact tensorTileRun_turn u hturn hhead hq

end Sys2Proof.Machine

namespace Sys2Proof.Machine
open Host

/-! ### Row commands at issue (R176, R178, R180, R208) -/

section
variable {s : State} {a : At} {f : Fields}

/-- GATE, ready and past its checks, starts its rows and lets the slot go on. -/
theorem gate_starts (h : s.Ready a 8) (hl : s.Legal a gateUse f)
    (hres : descReserved (s.at_ a) (gateCmd (s.at_ a) f).descs = none)
    (hstop : (gateCmd (s.at_ a) f).stop (s.at_ a) = none) :
    execGate a f s = .next ((s.startRows a (gateCmd (s.at_ a) f) (postOf f)).advance a 8) := by
  unfold execGate
  rw [run_ready h]
  simp only [show badField (s.at_ a).id.profile gateUse f = none from hl, hres, hstop, firstStop_none, firstStop_nil]

/-- An instruction with a parameter block, ready and past the checks of R188, spends the read of its block, starts its rows
and lets the slot go on. -/
theorem blockCmd_starts (h : s.Ready a 8) (g : Slot → Nat) (mk : Slot → List Byte → RowCmd) {u : Use} {major : Nat}
    {c : Instr} (hc : exec c s = .next (s.blockCmd a f u major g mk)) :
    let x := g (s.at_ a)
    let r := mk (s.at_ a) (s.paramBlock x)
    s.blockAddr a x = none → s.Legal a u f → descReserved (s.at_ a) r.descs = none →
      ((s.at_ a).id.profile = true ∨ blockReserved r.op r.fromAcc (s.paramBlock x) = none) → r.stop (s.at_ a) = none →
      answers c s ((((s.devSpend (s.whoAt a) false x 64).passFree x 64).startRows a r (postOf f)).advance a 8) := by
  intro x r haddr hl hres hblock hstop
  have hblock' := ite_eq_left_iff.mpr fun hp => hblock.resolve_left hp
  rw [answers, hc]
  unfold State.blockCmd
  rw [run_ready h]
  simp only [haddr, show badField (s.at_ a).id.profile u f = none from hl, hres, hblock', hstop, firstStop_none,
    firstStop_nil, x, r]

@[simp] theorem queueOf_setQueue (sl : Slot) (e : Engine) (l : List Queued) : (sl.setQueue e l).queueOf e = l := by
  cases e <;> rfl

@[simp] theorem queueOf_count (s : State) (a : At) (k : NumCount) (e : Engine) :
    ((s.count a k).at_ a).queueOf e = (s.at_ a).queueOf e := by
  rw [State.count, at_setAt]
  cases e <;> rfl

/-- A started command with rows stands at the end of its engine's sub-queue, at its first row and with the bank in force;
it claims the SFU and the vector unit (R176, R190). -/
theorem startRows_queues {r : RowCmd} (hrows : r.rows ≠ 0) (post : Option Nat) :
    ∃ q x, ((s.startRows a r post).at_ a).queueOf r.op.engine = (s.at_ a).queueOf r.op.engine ++ [q]
      ∧ q.claims = [.sfu, .vector] ∧ q.granted = false ∧ q.post = post ∧ q.flight = .row x ∧ x.row = 0 ∧ x.rows = r.rows
      ∧ x.bank = (s.core a.core).tables.activeBank := by
  unfold State.startRows
  simp only [if_neg hrows, at_enqueue, queueOf_setQueue, queueOf_count]
  exact ⟨_, _, rfl, rfl, rfl, rfl, rfl, rfl, rfl, rfl⟩

/-- The row command whose claim is granted runs one row where nothing upsets it (R56, R176). -/
theorem rowCommandRow_runs {q : Queued} {r : RowRun} (hhead : s.rowHead a = some (q, r)) (hok : a.upset = .ok) :
    execRowCommandRow a s = .next (s.runRow a q r) := by
  simp only [execRowCommandRow, hhead, hok]

end

/-! ### Reloads of the function tables (R190, R191, R193) -/

section
variable {s : State}

theorem nodup_coresOf (r : Nat) : (coresOf r).Nodup :=
  List.nodup_range.map fun _ _ => Nat.add_right_cancel

/-- An update of each core of a list of distinct ones reaches those cores alone, each once. -/
theorem core_foldl_setCore (upd : Core → Core) {l : List Nat} (hl : l.Nodup) (s : State) (d : Nat) :
    (l.foldl (fun s c => s.setCore c (upd (s.core c))) s).core d = if d ∈ l then upd (s.core d) else s.core d := by
  induction l generalizing s with
  | nil => rfl
  | cons c l ih =>
    obtain ⟨hc, hl⟩ := List.nodup_cons.mp hl
    rw [List.foldl_cons, ih hl, core_setCore]
    by_cases hd : d = c
    · subst hd
      simp [hc]
    · simp [hd]

/-- Steps 2 and 3 of R191 at a core: its inactive bank holds the generation `gen`, and its flip is due. -/
def Core.bankWritten (gen : Nat) (k : Core) : Core :=
  let t := k.tables
  { k with tables :=
      if t.activeBank then { t with gen0 := gen, flipDue := true } else { t with gen1 := gen, flipDue := true } }

theorem bankWritten_tables (gen : Nat) (k : Core) :
    (k.bankWritten gen).tables.flipDue = true ∧ (k.bankWritten gen).tables.activeBank = k.tables.activeBank
      ∧ (if k.tables.activeBank then (k.bankWritten gen).tables.gen0 else (k.bankWritten gen).tables.gen1) = gen := by
  cases h : k.tables.activeBank <;> simp [Core.bankWritten, h]

/-- Steps 2 and 3 of R191 over a region: it stands at step 4, and each of its cores has its inactive bank written. -/
def State.banksWritten (s : State) (r : Nat) : State :=
  (coresOf r).foldl (fun t c => t.setCore c ((t.core c).bankWritten (s.region r).tblGen))
    (s.setRegion r { s.region r with tblStep := 4 })

theorem region_banksWritten (s : State) (r : Nat) : (s.banksWritten r).region r = { s.region r with tblStep := 4 } := by
  rw [State.banksWritten, foldl_leaves (g := (State.region · r)) (fun _ _ => by rfl), region_setRegion, if_pos rfl]

theorem core_banksWritten {r c : Nat} (hc : c ∈ coresOf r) :
    (s.banksWritten r).core c = (s.core c).bankWritten (s.region r).tblGen := by
  rw [State.banksWritten, core_foldl_setCore _ (nodup_coresOf r), if_pos hc]
  rfl

/-- A region whose reload is at step 2 has its inactive banks written once no command holds one. -/
theorem sfuTableBankWrite_writes {r : Nat} (hstep : (s.region r).tblStep = 2)
    (hheld : ∀ c ∈ coresOf r, (s.core c).heldInactive = 0) : execSfuTableBankWrite r s = .next (s.banksWritten r) := by
  have hfree : (coresOf r).all (fun c => (s.core c).heldInactive = 0) = true := by simpa using hheld
  simp only [execSfuTableBankWrite, hstep, hfree, decide_true, Bool.and_self, if_true]
  rfl

/-- What a flip changes at a core: its active bank, and whether its flip is due. -/
def State.flipState (s : State) (c : Nat) : Bool × Bool := ((s.core c).tables.activeBank, (s.core c).tables.flipDue)

/-- CORE_SFU_TBL's busy bit leaves the banks of every core (R193). -/
theorem flipState_reloadBusy (s : State) (c : Nat) (b : Bool) (d : Nat) :
    (s.setCore c { s.core c with tables := { (s.core c).tables with reloadBusy := b } }).flipState d = s.flipState d := by
  unfold State.flipState
  rw [core_setCore]
  split
  next hd => rw [hd]
  next => rfl

theorem flipState_foldl_reloadBusy (l : List Nat) (s : State) (b : Bool) (d : Nat) :
    (l.foldl (fun s c => s.setCore c { s.core c with tables := { (s.core c).tables with reloadBusy := b } }) s).flipState d
      = s.flipState d :=
  foldl_leaves (g := (·.flipState d)) (fun s c => flipState_reloadBusy s c b d) l s

@[simp] theorem flipState_setRegion (s : State) (r : Nat) (v : Region) (d : Nat) :
    (s.setRegion r v).flipState d = s.flipState d := rfl

theorem flipState_tableEvent (s : State) (r code sev gen d : Nat) :
    (s.tableEvent r code sev gen).flipState d = s.flipState d := by
  obtain ⟨v, hv, -⟩ := post_eq_setEv s _
  rw [State.tableEvent, State.lanternEvent, hv]
  rfl

/-- The next request that waits changes no active bank and makes no flip due (R191 step 1). -/
theorem flipState_tableStart (s : State) (r n d : Nat) : (s.tableStart r n).flipState d = s.flipState d := by
  induction n generalizing s with
  | zero => rfl
  | succ n ih =>
    unfold State.tableStart
    dsimp only
    split
    case isTrue => exact (ih _).trans (flipState_tableEvent ..)
    case isFalse => exact flipState_foldl_reloadBusy ..

/-- Step 4 of R191 at a core: the written bank is the active one. -/
def Core.flipped (k : Core) : Core :=
  { k with tables := { k.tables with activeBank := !k.tables.activeBank, flipDue := false } }

theorem flipState_flipped (s : State) (c : Nat) :
    (s.setCore c (s.core c).flipped).flipState c = (!(s.core c).tables.activeBank, false) := by
  rw [State.flipState, core_setCore, if_pos rfl, Core.flipped]

/-- A core whose flip is due takes the written bank as its active one, and where it is the last of its region to flip, the
end of the reload leaves that (R191 steps 4 and 5). -/
theorem sfuTableFlip_flips {c : Nat} (hdue : (s.core c).tables.flipDue = true) :
    ∃ t, execSfuTableFlip c s = .next t ∧ t.flipState c = (!(s.core c).tables.activeBank, false) := by
  unfold execSfuTableFlip
  simp only [hdue, Bool.not_true, Bool.false_eq_true, if_false]
  split
  case isTrue => exact ⟨_, rfl, flipState_flipped s c⟩
  case isFalse =>
    refine ⟨_, rfl, ?_⟩
    rw [flipState_tableStart, flipState_tableEvent, flipState_setRegion, flipState_foldl_reloadBusy]
    exact flipState_flipped s c

end

/-- Settles O23: `gate_starts` and `blockCmd_starts` at issue, `rowCommandRow_runs` for a row, `sfuTableBankWrite_writes` and
`sfuTableFlip_flips` for the tables. -/
theorem rowCommands : Obligations.RowCommands := by
  refine ⟨fun s a f h => ?issue, ?row, fun s r c => ⟨?write, ?flip⟩⟩
  case issue =>
    refine ⟨?gate, ?normFwd, ?smaxFwd, ?normBwd, ?smaxBwd, fun r post hrows => startRows_queues hrows post⟩
    case gate => exact fun hl hres hstop => gate_starts h hl hres hstop
    case normFwd => exact blockCmd_starts h (fun sl => (sl.rs f.src2).toNat) (fwdCmd .norm f) rfl
    case smaxFwd => exact blockCmd_starts h (fun sl => (sl.rs f.src2).toNat) (fwdCmd .smax f) rfl
    case normBwd => exact blockCmd_starts h (fun sl => (sl.rs f.src3).toNat) (bwdCmd .normBwd f) rfl
    case smaxBwd => exact blockCmd_starts h (fun sl => (sl.rs f.src3).toNat) (bwdCmd .smaxBwd f) rfl
  case row =>
    intro s a q r hhead hok
    exact rowCommandRow_runs hhead hok
  case write =>
    intro hstep hheld
    refine ⟨_, sfuTableBankWrite_writes hstep hheld, ?step, fun d hd => ?banks⟩
    case step => rw [region_banksWritten]
    case banks =>
      rw [core_banksWritten hd]
      exact bankWritten_tables ..
  case flip =>
    intro hdue
    obtain ⟨t, ht, hbank⟩ := sfuTableFlip_flips hdue
    obtain ⟨hactive, hflip⟩ := Prod.mk.inj hbank
    exact ⟨t, ht, hactive, hflip⟩

end Sys2Proof.Machine

namespace Sys2Proof.Machine
open Host

/-! ### The weight refresh (R220 to R224) -/

section
variable {s : State} {ctx : Nat} {w : WeightSet} {f : Refresh}

/-- Step 2 of R220 at a job that can begin: no refresh is in flight, and a post stands at begin_sem. -/
theorem refreshBegin_begins (hw : (s.job ctx).weights = some w) (hup : s.jobManagerUp = true)
    (hlive : (s.job ctx).live = true) (hfault : (s.job ctx).faulted = false) (hstate : (s.job ctx).state = 0)
    (hidle : (s.job ctx).refresh = none) (hpost : (s.sem ctx w.beginSem).value ≠ 0) :
    answers (.refreshBegin ctx) s
      (((s.setJob ctx { s.job ctx with refresh := some { time := s.time } }).semValue ctx w.beginSem
        ((s.sem ctx w.beginSem).value - 1)).putRcb w w.next 1 0) := by
  refine congrArg Outcome.next ?_
  simp [hw, hup, hlive, hfault, hstate, hidle, hpost]

/-- The begin record of a refresh at step 2 is durable: stages can flip from now on. -/
theorem refreshBeginDurable_records (hw : (s.job ctx).weights = some w) (hf : (s.job ctx).refresh = some f)
    (hstep : f.step = 2) (hrun : s.ev.halted = false) :
    answers (.refreshBeginDurable ctx) s
      ((s.setJob ctx { s.job ctx with refresh := some { f with step := 3 } }).recordOf ctx 1 w f.time) := by
  refine congrArg Outcome.next ?_
  simp [hw, hf, hstep, hrun]

/-- A refresh once one more stage has flipped: the last of its `n` stages takes it to its commit, at `now`. -/
def Refresh.withStage (f : Refresh) (stage n now : Nat) : Refresh :=
  let done : Bool := decide (f.flipped.length + 1 = n)
  { f with flipped := f.flipped ++ [stage], step := if done then 6 else f.step, time := if done then now else f.time }

/-- The model's two updates of a refresh at a flip, the stage's and the commit's, are the one of `withStage`. -/
theorem withStage_eq_ite (f : Refresh) (stage n now : Nat) :
    f.withStage stage n now
      = if decide (f.flipped.length + 1 = n) = true then
          { f with flipped := f.flipped ++ [stage], step := 6, time := now }
        else { f with flipped := f.flipped ++ [stage] } := by
  unfold Refresh.withStage
  dsimp only
  split <;> rfl

@[simp] theorem withStage_flipped (f : Refresh) (stage n now : Nat) :
    (f.withStage stage n now).flipped = f.flipped ++ [stage] := rfl

/-- Step 5 of R220 for a stage that can flip, and step 6 where it is the last. -/
theorem refreshStageFlip_flips {stage : Nat} (hw : (s.job ctx).weights = some w)
    (hf : (s.job ctx).refresh = some f) (hup : s.jobManagerUp = true) (hfault : (s.job ctx).faulted = false)
    (hready : s.flippable ctx stage = true) :
    let e := w.entries.getD stage {}
    let t := s.setJob ctx { s.job ctx with refresh := some (f.withStage stage w.entries.length s.time) }
    let u := ((t.semValue ctx e.readySem ((t.sem ctx e.readySem).value - e.readyCount)).putEpoch e.word w.next).putRcb w
      w.next (if decide (f.flipped.length + 1 = w.entries.length) then 3 else 2) (f.flipped.length + 1)
    answers (.refreshStageFlip ctx stage) s (if w.hold then u else u.releaseFlip ctx stage w) := by
  refine congrArg Outcome.next ?_
  simp only [hw, hf, hup, hfault, hready, Bool.not_true, Bool.or_false, Bool.false_eq_true, if_false,
    List.length_append, List.length_singleton, ← withStage_eq_ite, withStage_flipped]

/-- Step 7 of R220: the commit record of a refresh that runs is durable. -/
theorem refreshCommitDurable_commits (hw : (s.job ctx).weights = some w) (hf : (s.job ctx).refresh = some f)
    (hup : s.jobManagerUp = true) (hrun : s.ev.halted = false) (hstep : f.step = 6) (hstate : f.state = 0) :
    let n := w.entries.length
    let t := (s.recordOf ctx 2 w f.time).setJob ctx
      { s.job ctx with refresh := none, weights := some { w with epoch := w.next } }
    let u := (t.hubPut w.rcb (toBytes 4 w.next)).hubPut (w.rcb + 8) (toBytes 1 0)
    let v := if w.hold then (List.range n).foldl (fun s g => s.releaseFlip ctx g w) u else u
    answers (.refreshCommitDurable ctx) s
      ((v.settleFlipBarriers ctx).refreshEvent ctx 0x0310 0 w.next f.flipped.length n) := by
  refine congrArg Outcome.next ?_
  simp [hw, hf, hup, hrun, hstep, hstate]

/-- A refresh whose timeout_ms passes before its commit is abandoned, reported, and its job faults (R223, R224). -/
theorem refreshTimerExpiry_abandons (hw : (s.job ctx).weights = some w) (hf : (s.job ctx).refresh = some f)
    (hup : s.jobManagerUp = true) (htimed : w.timeoutMs ≠ 0) :
    answers (.refreshTimerExpiry ctx) s
      (((s.abandonRefresh ctx).refreshEvent ctx 0x0312 2 w.next f.flipped.length w.entries.length).faultJob ctx 0x0312) := by
  refine congrArg Outcome.next ?_
  simp [hw, hf, hup, htimed]

end

/-- Settles O34: each step of R220 as its event answers it, and the expiry of R224. -/
theorem weightRefresh : Obligations.WeightRefresh := by
  intro s ctx w hw j n
  refine ⟨?begin, ?beginDurable, ?stageFlip, ?commitDurable, ?timer⟩
  case begin =>
    intro hup hlive hfault hstate hidle hpost
    exact refreshBegin_begins hw hup hlive hfault hstate hidle hpost
  case beginDurable =>
    intro f hf hstep hrun
    exact refreshBeginDurable_records hw hf hstep hrun
  case stageFlip =>
    intro f stage hf hup hfault hready
    exact refreshStageFlip_flips hw hf hup hfault hready
  case commitDurable =>
    intro f hf hup hrun hstep hstate
    exact refreshCommitDurable_commits hw hf hup hrun hstep hstate
  case timer =>
    intro f hf hup htimed
    exact refreshTimerExpiry_abandons hw hf hup htimed

end Sys2Proof.Machine

namespace Sys2Proof.Machine
open Host

/-! ### Lists of checks -/

theorem firstStop_cons_eq_none {x : Option Stop} {l : List (Option Stop)} :
    firstStop (x :: l) = none ↔ x = none ∧ firstStop l = none := by
  cases x <;> simp

theorem stopIf_eq_none {c : Bool} {x : Stop} : stopIf c x = none ↔ c = false := by
  cases c <;> simp

/-! ### Convolution and pooling at issue (R108, R227, R228) -/

section
variable {s : State} {a : At} {f : Fields} {w2 : Word} {op : ConvOp}

/-- The bits that R108 reserves in the native profile, outside the instruction's words, are 0: those of the handle and the
descriptor registers that the command names, of the register `str` of its stripe, and of its descriptor. -/
def ConvCmd.ReservedZero (r : ConvCmd) (sl : Slot) (str : Word) : Prop :=
  (r.op = .conv → fieldOf (sl.ra r.acc).toNat 38 26 = 0) ∧ fieldOf (sl.rd r.dline).toNat 52 12 = 0
    ∧ (r.op = .conv ∨ r.op = .dwconv → fieldOf (sl.rd r.dwst).toNat 52 12 = 0) ∧ str.toNat < 65536
    ∧ convReserved r.desc = none

/-- A convolution or pooling instruction, ready and past the checks of R239, spends the read of its descriptor, starts its
command and lets the slot go on; the reserved bits count in the native profile only. -/
theorem convCmdAt_starts (h : s.Ready a 16) :
    let sl := s.at_ a
    let g := (sl.rs f.src1).toNat
    let r := convCmd op f w2 sl (s.convDesc g)
    s.convAddr a g = none → s.Legal a (convUse op) f → badWord2 sl.id.profile w2 [(0, 43)] = none →
      (sl.id.profile = true ∨ r.ReservedZero sl (sl.rs (w2.extractLsb' 53 5))) → s.convStop a r = none →
      queueStop sl .conv (r.spans sl) = none →
      s.convCmdAt a op f w2
        = (((s.devSpend (s.whoAt a) false g 128).passFree g 128).startConv a r (postOf f)).advance a 16 := by
  intro sl g r haddr hl hw2 hres hstop hroom
  unfold State.convCmdAt
  rw [run_ready h]
  simp only [firstStop_cons_eq_none, firstStop_nil, stopIf_eq_none, ite_eq_left_iff, ite_eq_right_iff, Bool.or_eq_true,
    decide_eq_true_eq, decide_eq_false_iff_not, not_ne_iff, Nat.div_eq_zero_iff_lt (show 0 < 65536 by decide), and_true]
  exact ⟨haddr, hl, hw2, hres.resolve_left, hstop, hroom⟩

/-- A core's read of `len` bytes for a command leaves the slots. -/
theorem at_commandRead (s : State) (a b : At) (g len : Nat) :
    ((s.devSpend (s.whoAt a) false g len).passFree g len).at_ b = s.at_ b :=
  at_cores ((passFree_cores ..).trans (devSpend_cores ..)) b

/-- A started command stands at the end of the convolution sub-queue with its descriptor; it claims the window engine with the
tensor engine or the vector unit, and its slot keeps its place (R53, R228). -/
theorem startConv_queues (s : State) (a : At) (r : ConvCmd) (post : Option Nat) :
    ∃ q x, ((s.startConv a r post).at_ a).qCe = (s.at_ a).qCe ++ [q] ∧ ((s.startConv a r post).at_ a).pc = (s.at_ a).pc
      ∧ q.flight = .conv x ∧ x.op = r.op ∧ x.desc = r.desc
      ∧ q.claims = [.conv, if r.op = .conv then .tensor else .vector] ∧ q.post = post := by
  unfold State.startConv
  simp only [at_enqueue, State.count, at_setAt, Slot.queueOf, Slot.setQueue, true_and]
  exact ⟨_, _, rfl, rfl, rfl, rfl, rfl, rfl⟩

end

/-! ### Passes of a convolution or pooling command (R233, R240, R243) -/

section
variable {s : State} {a : At} {q : Queued} {r : ConvRun}

/-- The pass of a command whose penumbra rows are there runs where nothing upsets it. -/
theorem convPass_runs (hhead : s.convHead a = some (q, r)) (hok : a.upset = .ok)
    (hrows : s.convWait (s.at_ a).id.ctx r = none) : execConvPass a s = .next (s.runPass a q r) := by
  simp only [execConvPass, hhead, hrows, State.guarded, hok]

/-- A command that waits for a counter gives its claim back (R240); a poisoned counter faults it (R243). -/
theorem convPass_waits {w : Nat × Nat} (hhead : s.convHead a = some (q, r))
    (hwait : s.convWait (s.at_ a).id.ctx r = some w) :
    execConvPass a s = .next (if (s.sem (s.at_ a).id.ctx w.1).poison then s.instrFault a 0x0109 q.major w.1
      else s.updateHead a .conv (some { q with granted := false })) := by
  simp only [execConvPass, hhead, hwait]

end

/-- Settles O24: `convCmdAt_starts` at issue in both profiles, `startConv_queues` for what joins the sub-queue, and
`convPass_runs` and `convPass_waits` for a pass. -/
theorem convolution : Obligations.Convolution := by
  refine ⟨?compat, ?native, fun s a q r hhead hok => ⟨?runs, ?waits, ?poisoned⟩⟩
  case compat =>
    intro s a f w2 op h hprofile sl g r c haddr hw2 hstop hroom
    have hexec : exec c s = .next (s.convCmdAt a op f w2) := by cases op <;> rfl
    have hl : s.Legal a (convUse op) f := by rw [State.Legal, hprofile]; rfl
    rw [answers, hexec, convCmdAt_starts h haddr hl (hprofile ▸ hw2) (.inl hprofile) hstop hroom]
  case native =>
    intro s a f w2 op h hprofile sl g r c haddr hl hw2 hacc hline hwst hstr hdesc hstop hroom
    have hexec : exec c s = .next (s.convCmdAt a op f w2) := by cases op <;> rfl
    rw [convCmdAt_starts h haddr hl (hprofile ▸ hw2) (.inr ⟨hacc, hline, hwst, hstr, hdesc⟩) hstop hroom] at hexec
    obtain ⟨q, x, hqueue, hpc, hflight, hop, hxdesc, hclaims, hpost⟩ :=
      startConv_queues ((s.devSpend (s.whoAt a) false g 128).passFree g 128) a r (postOf f)
    rw [at_commandRead] at hqueue hpc
    refine ⟨_, q, x, hexec, ?queue, hflight, hop, hxdesc, hclaims, hpost, ?pc⟩
    case queue => rw [at_advance]; exact hqueue
    case pc => rw [at_advance]; exact congrArg (· + 16) hpc
  case runs => exact convPass_runs hhead hok
  case waits =>
    intro w hwait hclear
    exact (convPass_waits hhead hwait).trans (by rw [hclear]; rfl)
  case poisoned =>
    intro w hwait hpoison
    exact (convPass_waits hhead hwait).trans (by rw [hpoison]; rfl)

end Sys2Proof.Machine

namespace Sys2Proof.Machine
open Host

section
variable {s t : State} {q : Nat} {r : Reply} {e : Sqe}

/-- The check of R485 on the owner of what a command names passes PF0 and the owner itself. -/
theorem owner_passes {fn owner : Nat} (h : fn = 0 ∨ owner = fn) :
    (decide (fn ≠ 0) && decide (owner ≠ fn)) = false := by
  rcases h with h | h <;> simp [h]

/-! ### Objects (R290, R291, R393, R573) -/

/-- The homes that a new object begins with: empty under afterglow, and otherwise slices taken at once (R291). -/
def State.firstHomes (t : State) (id : Nat) (o : Obj) : Option State :=
  if o.glowMode = 0 then t.takeHomes id o (o.nameBase / extentBytes) o.extents
  else some (t.emptyHomes id o (o.nameBase / extentBytes) o.extents)

/-- An object whose descriptor passes every check of R290 takes a free ID once its homes are there. -/
theorem objCreate_begins (h : s.Begins q 0x18 t r e) {b : List Byte} {id : Nat} {u : State}
    (hb : t.readDesc e.desc 64 = some b) (hthere : t.objAbsent b = false) (hgood : t.objBad b = none)
    (hmay : t.fnMayUse r.fn (odPolder b) = true)
    (hid : t.pickId (fun i => decide ((t.obj i).extents ≠ 0)) 1 1048575 t.objs.length = some id)
    (hhomes : t.tick.firstHomes id (objOfDesc b r.fn) = some u) :
    execObjCreate q s = .next ((u.setObj id (objOfDesc b r.fn)).finish r 0 0 id) := by
  rw [State.firstHomes] at hhomes
  simp only [execObjCreate, h.runs, hb, hthere, hgood, hmay, hid, hhomes, Bool.not_true, Bool.false_eq_true, if_false]

/-- An object named by a function that may destroy it: destroyed unless it moves or holds loaded code (R573). -/
theorem objDestroy_begins (h : s.Begins q 0x19 t r e) (hn : (t.obj e.arg1).extents ≠ 0)
    (hown : r.fn = 0 ∨ (t.obj e.arg1).fn = r.fn) : execObjDestroy q s
      = .next (if t.objMoving (t.obj e.arg1) || t.objHoldsCode (t.obj e.arg1) then t.finish r 0x15 0 0
          else ((t.destroyObj e.arg1).settleJobId (t.obj e.arg1).job).finish r 0 0 0) := by
  simp only [execObjDestroy, h.runs, hn, owner_passes hown, Bool.false_eq_true, if_false]

section
variable (h : s.Begins q 0x06 t r e) (hn : (t.obj e.arg0).extents ≠ 0) (hown : r.fn = 0 ∨ (t.obj e.arg0).fn = r.fn)
  (hjob : (t.obj e.arg0).job ≠ 0) (hended : (t.job (t.obj e.arg0).job).state = 4)
include h hn hown hjob hended

/-- A quarantined object of an ended job, named by a function that may release it, is destroyed where bit 0 of the argument
is set (R393). -/
theorem release_destroys (hend : e.arg1 % 2 = 1) : execRelease q s
    = .next (((t.destroyObj e.arg0).settleJobId (t.obj e.arg0).job).finish r 0 0 0) := by
  simp only [execRelease, h.runs, hn, owner_passes hown, hjob, hended, hend, ne_eq, not_true_eq_false, decide_false,
    Bool.or_self, Bool.false_eq_true, if_false, if_true]

/-- It is in service again, and its job's no more, once each of its extents has returned (R393). -/
theorem release_returns (heven : e.arg1 % 2 = 0) {u : State}
    (hu : t.returnAll (t.obj e.arg0) (t.obj e.arg0).span = some u) : execRelease q s
      = .next (((u.setObj e.arg0 { t.obj e.arg0 with job := 0 }).settleJobId (t.obj e.arg0).job).finish r 0 0 0) := by
  simp only [execRelease, h.runs, hn, owner_passes hown, hjob, hended, heven, hu, ne_eq, not_true_eq_false, decide_false,
    Bool.or_self, Bool.false_eq_true, zero_ne_one, if_false]

end

/-! ### Cache sets (R268, R269) -/

/-- A descriptor that passes every check of R268 builds its set for the context that the command names. -/
theorem cachesetCreate_begins (h : s.Begins q 0x20 t r e) {i : Nat} {c : List Byte}
    (htarget : t.targetBad r.fn e.target = none)
    (hid : t.pickId (fun i => (t.set i).live) 0 255 t.sets.length = some i) (hctx : e.target ≠ 0) (halign : e.desc % 64 = 0)
    (hc : t.tick.readDesc e.desc 128 = some c) (hgood : csdBad c = none) (hmapped : t.tick.csdUnmapped c = none) :
    execCachesetCreate q s = .next ((t.tick.buildSet i e.target e.desc c).finish r 0 0 i) := by
  simp only [execCachesetCreate, h.runs, htarget, hid, hctx, halign, hc, hgood, hmapped, ne_eq, not_true_eq_false, if_false]

/-- A set that is live and that no command in flight names ends at the word of a function that may end it (R269). -/
theorem cachesetDestroy_begins (h : s.Begins q 0x21 t r e) (hi : e.arg1 < 256) (hlive : (t.set e.arg1).live = true)
    (hown : r.fn = 0 ∨ (t.job (t.set e.arg1).ctx).fn = r.fn) (hidle : t.setBusy e.arg1 = false) :
    execCachesetDestroy q s = .next ((t.dropSet e.arg1).finish r 0 0 0) := by
  have hnamed : (decide (e.arg1 ≥ 256) || !(t.set e.arg1).live) = false := by simp [hlive, hi]
  simp only [execCachesetDestroy, h.runs, hnamed, owner_passes hown, hidle, Bool.false_eq_true, if_false]

/-! ### Moves (R298, R485, R486) -/

/-- The sluice command that the descriptor of a MOVE makes (R298). -/
def sluiceOf (r : Reply) (b : List Byte) : Sluice := { cmd := b, reply := some r, fn := r.fn }

/-- A MOVE that passes every check is answered with its handle in an interim completion, and joins the sluice commands. -/
theorem move_begins (hruns : ∀ body : Body, s.take q 0x1A 2 body = body t r e) {b : List Byte}
    (hb : t.readDesc e.desc 32 = some b) (hgood : moveBad b = none) (hmay : t.mayMove r.fn (sluiceOf r b) = true)
    (htarget : t.targetBad r.fn (slCtx (sluiceOf r b)) = none)
    (htier : slCopy (sluiceOf r b) = true ∨ t.tierUp = true) :
    execMove q s = .next ((t.complete r true { result := t.nextHandle }).addSluice (sluiceOf r b)) := by
  have hserved : (!slCopy (sluiceOf r b) && !t.tierUp) = false := by
    rcases htier with h | h <;> simp [h]
  rw [sluiceOf] at hmay htarget hserved
  simp only [execMove, hruns, hb, hgood, hserved, hmay, htarget, Bool.not_true, Bool.false_eq_true, if_false]
  rfl

end

/-- Settles O36: each command as it begins (`begins_taken`, and `move_begins` for the two completions of MOVE). -/
theorem objectCommands : Obligations.ObjectCommands := by
  refine fun s q op bs h => ⟨?create, ?destroy, ?release, ?createSet, ?destroySet, ?move⟩
  case create =>
    rintro rfl b id hb hthere hgood hmay hid o x
    refine ⟨fun hglow => ?glow, fun u hglow hu => ?slices⟩
    case glow => exact objCreate_begins (begins_taken h) hb hthere hgood hmay hid (if_neg hglow)
    case slices => exact objCreate_begins (begins_taken h) hb hthere hgood hmay hid ((if_pos hglow).trans hu)
  case destroy =>
    rintro rfl o hn hown
    have hexec := objDestroy_begins (begins_taken h) hn hown
    refine ⟨fun hstill hcode => ?unused, fun hmoving => ?moving⟩
    case unused => exact hexec.trans (congrArg _ (if_neg (by simp [o, hstill, hcode])))
    case moving => exact hexec.trans (congrArg _ (if_pos (by simp [o, hmoving])))
  case release =>
    rintro rfl o hn hjob hended hown
    refine ⟨fun hend => ?ends, fun u heven hu => ?returns⟩
    case ends => exact release_destroys (begins_taken h) hn hown hjob hended hend
    case returns => exact release_returns (begins_taken h) hn hown hjob hended heven hu
  case createSet =>
    rintro rfl i c htarget hid hctx halign hc hgood hmapped
    exact cachesetCreate_begins (begins_taken h) htarget hid hctx halign hc hgood hmapped
  case destroySet =>
    rintro rfl hi hlive hown hidle
    exact cachesetDestroy_begins (begins_taken h) hi hlive hown hidle
  case move =>
    rintro rfl htwo b t v hb hgood hmay htarget htier
    exact move_begins (take_taken htwo) hb hgood hmay htarget htier

end Sys2Proof.Machine

namespace Sys2Proof.Machine
open Host

/-! ### Marking an extent (R299 steps 1 and 2, R317, R386) -/

section
variable {s t : State} {h : Nat}

/-- What `charge` takes depends on the polders alone, and it changes nothing else. -/
theorem charge_polders (ht : t.polders = s.polders) (polder : Nat) (uses : List (Nat × Nat)) :
    t.charge polder uses = { t with polders := (s.charge polder uses).polders } := by
  induction uses generalizing s t with
  | nil => rw [State.charge, State.charge, List.foldl_nil, List.foldl_nil, ← ht]
  | cons u uses ih =>
    have hpolder : t.polder polder = s.polder polder := by rw [State.polder, State.polder, ht]
    simp only [State.charge, List.foldl_cons] at ih ⊢
    by_cases hrate : (s.dike polder u.1).rate = 0xFFFFFF
    · simp only [State.dike, hpolder] at hrate ⊢
      simp only [hrate, if_true]
      exact ih ht
    · simp only [State.dike, hpolder] at hrate ⊢
      simp only [hrate, if_false]
      refine ih ?_
      simp only [State.setDike, State.setPolder, ht, hpolder]

/-- The slices that the extent a move has come to would take in the move's tier; none where it cannot move (R299 step 1). -/
def State.target (s : State) (v : Sluice) : Option Nat :=
  let m := s.home v.extent
  let o := s.obj m.object
  if decide (m.state = 2) && !o.pin && !s.objHoldsCode o && decide (m.tier ≠ slTier v)
      && !(o.glowMode ≠ 0 && slTier v = 2)
  then s.freeSlices o (slTier v) (m.slicesM1 + 1) else none

/-- A waiting move whose turn it is begins its extent where that has a target, and skips it otherwise. -/
theorem sluiceMark_turn (hwaits : (s.sluice h).waits = true) (hmove : slCopy (s.sluice h) = false)
    (hlantern : s.tierLantern h = true) (hturn : s.sluiceTurn h = true) : execSluiceMark h s
      = .next ((s.target (s.sluice h)).elim (s.nextExtent h { s.sluice h with skipped := (s.sluice h).skipped + 1 })
          (s.beginExtent h (s.sluice h))) := by
  have hgo : (!(s.sluice h).waits || slCopy (s.sluice h) || !s.tierLantern h || !s.sluiceTurn h) = false := by
    simp [hwaits, hmove, hlantern, hturn]
  simp only [execSluiceMark, State.target, hgo, Bool.false_eq_true, if_false]
  split
  next hnone => rw [hnone, Option.elim_none]
  next p hsome => rw [hsome, Option.elim_some]

theorem target_movable {v : Sluice} (hstate : (s.home v.extent).state = 2)
    (hpin : (s.obj (s.home v.extent).object).pin = false)
    (hcode : s.objHoldsCode (s.obj (s.home v.extent).object) = false) (htier : (s.home v.extent).tier ≠ slTier v)
    (hglow : (s.obj (s.home v.extent).object).glowMode = 0 ∨ slTier v ≠ 2) :
    s.target v = s.freeSlices (s.obj (s.home v.extent).object) (slTier v) ((s.home v.extent).slicesM1 + 1) := by
  refine if_pos ?_
  rcases hglow with hglow | hglow <;> simp [hstate, hpin, hcode, htier, hglow]

theorem target_fixed {v : Sluice} (hfixed : (s.home v.extent).state ≠ 2
    ∨ (s.obj (s.home v.extent).object).pin = true ∨ (s.home v.extent).tier = slTier v) : s.target v = none := by
  refine if_neg ?_
  rcases hfixed with hx | hx | hx <;> simp [hx]

section
variable {v : Sluice} {p : Nat}

/-- A dike that is shut holds the copy of an extent back (R386). -/
theorem beginExtent_held {i : Nat}
    (hshut : s.firstShut (slPolder v) ((s.markExtent h v p).moveUses h ((s.markExtent h v p).sluice h)) = some i) :
    s.beginExtent h v p = s.setDike (slPolder v) i { s.dike (slPolder v) i with holding := true } :=
  congrArg (fun d => s.heldOr (slPolder v) d _) hshut

/-- An extent whose copy no dike holds back is marked, and the dikes are charged. -/
theorem beginExtent_open
    (hopen : s.firstShut (slPolder v) ((s.markExtent h v p).moveUses h ((s.markExtent h v p).sluice h)) = none) :
    s.beginExtent h v p = (s.markExtent h v p).charge (slPolder v)
      ((s.markExtent h v p).moveUses h ((s.markExtent h v p).sluice h)) :=
  congrArg (fun d => s.heldOr (slPolder v) d _) hopen

end

/-- A marked extent has its target in its entry and its source in the command, and is device-biased (R299 step 2, R475). -/
theorem markExtent_writes (s : State) (h : Nat) (v : Sluice) (p : Nat) (polder : Nat) (uses : List (Nat × Nat)) :
    let m := s.home v.extent
    let t := (s.markExtent h v p).charge polder uses
    t.polders = (s.charge polder uses).polders
      ∧ t.home v.extent = { m with state := 3, destTier := slTier v, destSlice := p, destSlicesM1 := m.slicesM1 }
      ∧ t.sluice h = { v with phase := 3, srcSlice := m.slice, srcSlicesM1 := m.slicesM1, srcTier := m.tier }
      ∧ mapGet false t.mem.bias v.extent = false ∧ t.mem.bytes = s.mem.bytes := by
  have hcharge := charge_polders (s := s) (t := s.markExtent h v p) rfl polder uses
  dsimp only
  rw [hcharge]
  exact ⟨rfl, mapGet_mapSet_self .., mapGet_mapSet_self .., mapGet_mapSet_self .., rfl⟩

end

/-! ### The flip of an extent to its new home (R299 steps 4 and 5, R300) -/

section
variable {s : State} {h : Nat}

/-- The entry of an extent once it has moved (R299 step 5, R320). -/
def State.movedHome (s : State) (m : Home) : Home :=
  { slice := m.destSlice, slicesM1 := m.destSlicesM1, tier := m.destTier, state := 2, object := m.object,
    salt := if m.destTier = 1 ∨ (m.destTier = 0 ∧ (s.obj m.object).interleave = 0)
      then (s.polder (s.obj m.object).polder).salt else m.salt }

/-- The extent `x` with its new entry, its bytes carried from their old place to their new one. -/
def State.relocated (s : State) (x : Nat) (m : Home) : State :=
  (s.setHome x m).carry (s.keyOf (x * extentBytes)) ((s.setHome x m).keyOf (x * extentBytes))

theorem carry_bytes (s : State) (src dst : Nat) :
    ∃ bytes, s.carry src dst = { s with mem := { s.mem with bytes := bytes } } := by
  unfold State.carry
  split <;> exact ⟨_, rfl⟩

@[simp] theorem relocated_leaves (s : State) (x : Nat) (m : Home) :
    (s.relocated x m).mem.held = s.mem.held ∧ (s.relocated x m).host = s.host
      ∧ ∀ y, (s.relocated x m).home y = (s.setHome x m).home y := by
  obtain ⟨bytes, hcarry⟩ := carry_bytes (s.setHome x m) (s.keyOf (x * extentBytes))
    ((s.setHome x m).keyOf (x * extentBytes))
  rw [State.relocated, hcarry]
  exact ⟨rfl, rfl, fun _ => rfl⟩

@[simp] theorem countCopied_leaves (s : State) (h n : Nat) :
    (s.countCopied h n).mem = s.mem ∧ (s.countCopied h n).host = s.host ∧ (∀ y, (s.countCopied h n).home y = s.home y)
      ∧ ∀ a, (s.countCopied h n).memByte a = s.memByte a := by
  unfold State.countCopied
  dsimp only
  split <;> exact ⟨rfl, rfl, fun _ => rfl, fun _ => rfl⟩

theorem releaseHeld_none (hheld : s.mem.held = []) (x : Nat) : s.releaseHeld x = s := by
  have hmem : { s.mem with held := [] } = s.mem := by rw [← hheld]
  simp [State.releaseHeld, hheld, hmem]

theorem settleFlips_none (hflips : s.host.flips = []) : s.settleFlips = s := by
  have hhost : { s.host with flips := [] } = s.host := by rw [← hflips]
  rw [State.settleFlips, hflips, hhost]
  rfl

/-- A flip at which no write and no bias flip waits changes the entry, the bytes' place, a counter and the command. -/
theorem flipExtent_quiet (hheld : s.mem.held = []) (hflips : s.host.flips = []) (v : Sluice) :
    s.flipExtent h v = ((s.relocated v.extent (s.movedHome (s.home v.extent))).countCopied h
      (((s.home v.extent).slicesM1 + 1) * 65536)).setSluice h { v with phase := 6, moved := v.moved + 1 } := by
  have hflip : s.flipExtent h v = ((((s.relocated v.extent (s.movedHome (s.home v.extent))).countCopied h
      (((s.home v.extent).slicesM1 + 1) * 65536)).releaseHeld v.extent).setSluice h
        { v with phase := 6, moved := v.moved + 1 }).settleFlips := by
    simp only [State.flipExtent, State.relocated, State.movedHome, Bool.or_eq_true, Bool.and_eq_true, decide_eq_true_eq]
  rw [hflip, releaseHeld_none (by simp [hheld]), settleFlips_none (by simp [hflips])]

/-- The bytes of an extent are the same under its new entry. -/
theorem memByte_relocated (hwf : mapWf 0 s.mem.bytes = true) (x : Nat) (m : Home) {i : Nat} (hi : i < extentBytes) :
    (s.relocated x m).memByte (x * extentBytes + i) = s.memByte (x * extentBytes + i) := by
  obtain ⟨bytes, hcarry⟩ := carry_bytes (s.setHome x m) (s.keyOf (x * extentBytes))
    ((s.setHome x m).keyOf (x * extentBytes))
  have hplace : x * extentBytes % extentBytes + i < extentBytes := by rwa [Nat.mul_mod_left, Nat.zero_add]
  have hkey : (s.relocated x m).keyOf (x * extentBytes + i) = (s.setHome x m).keyOf (x * extentBytes) + i := by
    rw [← keyOf_add _ hplace, State.relocated, hcarry]
    rfl
  rw [State.memByte, State.memByte, hkey, keyOf_add s hplace, State.relocated]
  by_cases hsame : s.keyOf (x * extentBytes) = (s.setHome x m).keyOf (x * extentBytes)
  · rw [State.carry, if_pos hsame, hsame]
    rfl
  · exact mapGet_carry (s.setHome x m) hwf hi hsame

/-- A move at its copy, while no write and no bias flip waits, flips the extent's entry and keeps its bytes. -/
theorem sluiceCopyDone_flips (hlive : (s.sluice h).live = true) (hphase : (s.sluice h).phase = 4) (hheld : s.mem.held = [])
    (hflips : s.host.flips = []) :
    let v := s.sluice h
    ∃ t, execSluiceCopyDone h s = .next t ∧ t.home v.extent = s.movedHome (s.home v.extent)
      ∧ t.sluice h = { v with phase := 6, moved := v.moved + 1 }
      ∧ (s.mem.wf = true → ∀ i < extentBytes,
        t.memByte (v.extent * extentBytes + i) = s.memByte (v.extent * extentBytes + i)) := by
  intro v
  have hexec : execSluiceCopyDone h s = .next (s.flipExtent h v) := by
    simp [execSluiceCopyDone, hlive, hphase, v]
  rw [flipExtent_quiet hheld hflips v] at hexec
  generalize hflipped : s.relocated v.extent (s.movedHome (s.home v.extent)) = u at hexec
  obtain ⟨-, -, hhome, hbyte⟩ := countCopied_leaves u h (((s.home v.extent).slicesM1 + 1) * 65536)
  refine ⟨_, hexec, (hhome _).trans ?home, (sluice_setSluice ..).trans (if_pos rfl),
    fun hwf i hi => (hbyte _).trans ?bytes⟩
  case home =>
    rw [← hflipped, (relocated_leaves ..).2.2, home_setHome, if_pos rfl]
  case bytes =>
    have hbytes : mapWf 0 s.mem.bytes = true := by
      simp only [Mem.wf, Bool.and_eq_true, and_assoc] at hwf
      exact hwf.1
    rw [← hflipped, memByte_relocated hbytes _ _ hi]

end

/-- Settles O37: `sluiceMark_turn` for steps 1 and 2, `sluiceCopyDone_flips` for steps 4 and 5, and the other steps as their
commands answer them. -/
theorem sluiceMove : Obligations.SluiceMove := by
  intro s h v x m o
  refine ⟨fun hwaits hmove hlantern hturn => ⟨?begins, ?skips⟩, ?drained, ?copied, ?freed, ?copy⟩
  case begins =>
    intro p hstate hpin hcode htier hglow hfree u uses
    have hexec := sluiceMark_turn hwaits hmove hlantern hturn
    rw [(target_movable hstate hpin hcode htier hglow).trans hfree, Option.elim_some] at hexec
    refine ⟨fun i hshut => ?held, fun hopen => ⟨_, ?marked, markExtent_writes s h v p (slPolder v) uses⟩⟩
    case held => exact hexec.trans (congrArg Outcome.next (beginExtent_held hshut))
    case marked => exact hexec.trans (congrArg Outcome.next (beginExtent_open hopen))
  case skips =>
    intro hfixed
    have hexec := sluiceMark_turn hwaits hmove hlantern hturn
    rwa [target_fixed hfixed, Option.elim_none] at hexec
  case drained =>
    intro hlive hphase
    refine congrArg Outcome.next (if_neg ?_)
    simp [v, hlive, hphase]
  case copied =>
    intro hlive hphase hheld hflips
    exact sluiceCopyDone_flips hlive hphase hheld hflips
  case freed =>
    intro hlive hphase
    refine congrArg Outcome.next (if_neg ?_)
    simp [v, hlive, hphase]
  case copy =>
    intro hwaits hcopy hturn hdie hgoes
    refine congrArg Outcome.next (if_neg ?_)
    rcases hdie with hdie | hdie <;> simp [v, hwaits, hcopy, hturn, hdie, hgoes]

end Sys2Proof.Machine

namespace Sys2Proof.Machine
open Host

/-! ### Events at most once a second (R451) -/

section
variable {s : State} {key : Nat}

/-- While the hub runs, an event limited to one a second is the next one detected where its key has not posted yet. -/
theorem postEachSecond_detects (hrun : s.hub.running = true) (hlast : mapGet 0 s.ev.lastPost key = 0) (e : Ev) :
    ∃ v d, s.postEachSecond key e = s.setEv v ∧ v.detected = s.ev.detected ++ [d] ∧ d.code = e.code
      ∧ d.sev = e.sev := by
  have hposted : s.postEachSecond key e
      = (s.post e).setEv { (s.post e).ev with lastPost := mapSet 0 (s.post e).ev.lastPost key ((s.post e).time + 1) } :=
    if_neg (by simp [hlast])
  rw [hposted, post_running hrun]
  exact ⟨_, _, rfl, rfl, rfl, rfl⟩

end

/-! ### The image of an afterglow extent (R312 to R314) -/

section
variable {s : State} {x : Nat}

/-- The slices that the next image takes, from 1 to 32: a free value (R312). -/
def State.imageSlices (s : State) : Nat := 1 + Config.freeNat s.freeCtr % 32

variable (hwritten : mapGet 0 s.mem.glow x ≠ 0) (hstate : (s.home x).state = 1 ∨ (s.home x).state = 2)
include hwritten hstate

/-- An extent that was written, and is empty or resident, is due for an image. -/
theorem image_due :
    (decide (mapGet 0 s.mem.glow x = 0) || !(decide ((s.home x).state = 1) || decide ((s.home x).state = 2))) = false := by
  rcases hstate with hs | hs <;> simp [hwritten, hs]

/-- Where no slices are free, the collected writes of an extent are withdrawn and their writer is told (R312). -/
theorem afterglowImageSwitch_withdraws
    (hfull : s.tick.freeSlices (s.obj (s.home x).object) (s.home x).tier s.imageSlices = none) :
    execAfterglowImageSwitch x s = .next ((s.tick.undoGlow x).glowFailed (mapGet 0 s.mem.glow x - 1) x) := by
  rw [State.imageSlices] at hfull
  simp only [execAfterglowImageSwitch, image_due hwritten hstate, hfull, Bool.false_eq_true, if_false]

/-- An image outside bounded mode goes to the slices that are free for it, with the bytes as they were collected. -/
theorem afterglowImageSwitch_switches {a : Nat}
    (hfree : s.tick.freeSlices (s.obj (s.home x).object) (s.home x).tier s.imageSlices = some a)
    (hmode : (s.obj (s.home x).object).glowMode ≠ 2) :
    ∃ t salt, execAfterglowImageSwitch x s = .next t
      ∧ t.home x = { s.home x with slice := a, slicesM1 := s.imageSlices - 1, state := 2, salt := salt }
      ∧ mapGet 0 t.mem.glow x = 0 ∧ t.mem.bytes = s.mem.bytes := by
  rw [State.imageSlices] at hfree ⊢
  simp only [execAfterglowImageSwitch, image_due hwritten hstate, hfree, hmode, decide_false, Bool.false_and,
    Bool.false_eq_true, if_false]
  exact ⟨_, _, rfl, (home_setHome ..).trans (if_pos rfl), mapGet_mapSet_self .., rfl⟩

end

/-! ### Hot channels (R318) -/

section
variable {s : State} {group busy : Nat} {counts : List Nat}

/-- A group is hot in a window whose busiest member takes over four times the average while the group is busy for a quarter
of the time or more (R318). -/
def hotWindow (counts : List Nat) (busy : Nat) : Bool :=
  decide (counts.foldl max 0 * counts.length > 4 * counts.sum) && decide (busy ≥ 25)

/-- The windows in a row in which a group was hot, with this one. -/
def State.hotRun (s : State) (group : Nat) (counts : List Nat) (busy : Nat) : Nat :=
  if hotWindow counts busy then mapGet 0 s.mem.hot group + 1 else 0

/-- The state with a group's run of hot windows noted. -/
def State.setHot (s : State) (group n : Nat) : State := { s with mem := { s.mem with hot := mapSet 0 s.mem.hot group n } }

/-- One window that is not hot ends the run. -/
theorem hotRun_cool (h : counts.foldl max 0 * counts.length ≤ 4 * counts.sum ∨ busy < 25) :
    s.hotRun group counts busy = 0 := by
  refine if_neg ?_
  simp only [hotWindow, Bool.and_eq_true, decide_eq_true_eq]
  omega

theorem hotRun_hot (htop : 4 * counts.sum < counts.foldl max 0 * counts.length) (hbusy : 25 ≤ busy) :
    s.hotRun group counts busy = mapGet 0 s.mem.hot group + 1 :=
  if_pos (by simp [hotWindow, htop, hbusy])

theorem hot_setHot (s : State) (group n : Nat) : mapGet 0 (s.setHot group n).mem.hot group = n := mapGet_mapSet_self ..

/-- A run of fewer than eight hot windows is noted and not reported. -/
theorem hotChannelWindow_notes (p : BitVec 4) (hshort : s.hotRun group counts busy < 8) :
    execHotChannelWindow group counts busy p s = .next (s.setHot group (s.hotRun group counts busy)) :=
  congrArg Outcome.next (if_pos hshort)

/-- From its eighth window on a run is noted, and an event of the group limited to one a second is due. -/
theorem hotChannelWindow_reports (p : BitVec 4) (hlong : 8 ≤ s.hotRun group counts busy) : ∃ e,
    execHotChannelWindow group counts busy p s
      = .next ((s.setHot group (s.hotRun group counts busy)).postEachSecond (0x0320 * 4096 + group) e)
      ∧ e.code = 0x0320 ∧ e.sev = 1 :=
  ⟨_, congrArg Outcome.next (if_neg (Nat.not_lt.mpr hlong)), rfl, rfl⟩

end

/-- Settles O38: `afterglowImageSwitch_withdraws` and `afterglowImageSwitch_switches` for an image,
`hotChannelWindow_notes` for a run of up to seven hot windows and `hotChannelWindow_reports` for a longer one. -/
theorem afterglowAndHotChannels : Obligations.AfterglowAndHotChannels := by
  intro s x group counts busy p m o k w
  refine ⟨fun hwritten hstate => ⟨?withdrawn, ?switched⟩, ?cool, ?warm, ?hot⟩
  case withdrawn => exact afterglowImageSwitch_withdraws hwritten hstate
  case switched =>
    intro a hfree hmode
    obtain ⟨t, salt, hexec, hhome, hglow, hbytes⟩ := afterglowImageSwitch_switches hwritten hstate hfree hmode
    exact ⟨t, hexec, congrArg Home.slice hhome, congrArg Home.slicesM1 hhome, congrArg Home.state hhome, hglow, hbytes⟩
  case cool =>
    intro hcool
    have hrun := hotRun_cool (s := s) (group := group) hcool
    exact ⟨_, hotChannelWindow_notes p (by omega), (hot_setHot ..).trans hrun, rfl⟩
  case warm =>
    intro htop hbusy hshort
    have hrun := hotRun_hot (s := s) (group := group) htop hbusy
    exact ⟨_, hotChannelWindow_notes p (by omega), (hot_setHot ..).trans hrun, rfl⟩
  case hot =>
    intro htop hbusy hlong hhub hlast
    have hrun := hotRun_hot (s := s) (group := group) htop hbusy
    obtain ⟨e, hexec, hcode, hsev⟩ := hotChannelWindow_reports p (show 8 ≤ s.hotRun group counts busy by omega)
    obtain ⟨v, d, hpost, hdetected, hdcode, hdsev⟩ :=
      postEachSecond_detects (s := s.setHot group (s.hotRun group counts busy)) hhub hlast e
    rw [hpost] at hexec
    exact ⟨_, d, hexec, hdetected, hdcode.trans hcode, hdsev.trans hsev⟩

end Sys2Proof.Machine

namespace Sys2Proof.Machine
open Host

/-! ### Cores under test keep their power (R447, R539) -/

/-- A core under test is not powered off. -/
theorem corePowerOff_underTest {s : State} {core : Nat} (h : s.underTest core = true) :
    execCorePowerOff core s = .next s :=
  congrArg Outcome.next (if_pos (by simp [h]))

/-- Refutes O44: its last clause asks only that the core's own mark of a test is not set. Core 0 of the state below is under
test all the same, as the unit that the running self-test of handle 1 has come to (R447), and stays powered. -/
theorem not_polderRegisters : ¬ Obligations.PolderRegisters := by
  intro hall
  obtain ⟨-, -, -, -, -, -, -, hpower⟩ :=
    hall { State.reset with dep := { tests := [(1, { live := true, units := [(0, 0)] })] } } 0 0 0 0 0
  have hoff := hpower (by decide) (by decide) rfl
  have hsame := Outcome.next.inj ((corePowerOff_underTest rfl).symm.trans hoff)
  exact absurd (congrArg (fun t => (t.core 0).health.off) hsame) (by decide)

/-! ### The salt registers of a polder page (R319) -/

section
variable {s : State} {p : Nat}

/-- PF0's write of the high salt word of a polder page makes the pair the polder's salt. -/
theorem writeReg_saltHi (hp : p < 16) (hserves : s.serves 0 = true) (hopen : s.fnOpen 0 = true) (v : Nat) :
    s.writeReg 0 (0x100000 + p * 0x1000 + 0x84) 4 v = s.polderSalt p true (v % 2 ^ 32) := by
  have hpage : (0x100000 + p * 0x1000 + 0x84 - 0x100000) / 0x1000 = p := by omega
  have hoff : (0x100000 + p * 0x1000 + 0x84) % 0x1000 = 0x84 := by omega
  rw [writeReg_word hopen (by omega), State.putWord, if_pos rfl, State.pfPut]
  simp only [hserves, hpage, hoff, Bool.not_true, Bool.false_eq_true, if_false]
  rw [if_neg (by omega), if_neg (by omega), if_neg (by simp; omega), if_neg (by omega), if_neg (by omega),
    if_pos (by simp; omega)]
  rfl

/-- After that write the high register reads the written field plus what the low word holds above its 32 bits. -/
theorem polderWord_saltHi (s : State) (p w : Nat) :
    (s.polderSalt p true w).polderWord p 0x84 = (w % 16 + (s.polder p).saltLo / 2 ^ 32) % 16 := by
  simp only [State.polderWord, State.polderSalt, if_true, polder_setPolder]
  omega

end

/-- Refutes O57: its clause on the high word read back holds for every state, and so for one whose low word exceeds 32 bits,
which no write of a salt register leaves. Where the low word of polder 0 stands at 2^32, the high register reads 1 after a
write of 0. -/
theorem not_polderSalt : ¬ Obligations.PolderSalt := by
  rintro ⟨-, hall⟩
  obtain ⟨-, t, ht, hword, -⟩ :=
    hall { State.reset with polders := [(0, { saltLo := 2 ^ 32 })], host := { retry := false } } 0 0 (by decide)
      (by decide) (by decide)
  cases ht
  rw [writeReg_saltHi (p := 0) (by decide) (by decide) (by decide), polderWord_saltHi] at hword
  exact absurd hword (by decide)

/-! ### Registers right after a cold reset (R319, R383, R388, R410, R411) -/

/-- A fully fitted package has every die (R1). -/
theorem fits_tbx20 {d : Nat} (h : d < 0x14) : Variant.tbx20.fits d = true := by
  simp [Variant.fits, h]

@[simp] theorem polder_reset (p : Nat) : State.reset.polder p = {} := rfl
@[simp] theorem dike_reset (p i : Nat) : State.reset.dike p i = {} := rfl
@[simp] theorem link_reset (j : Nat) : State.reset.link j = {} := rfl

/-- A polder page at reset: the quota is every slot of the package, and no dike regulates (R383, R388). -/
theorem polderWord_reset (p : Nat) : State.reset.polderWord p 0 = 0x300 ∧ State.reset.polderWord p 0x400 = 0xFFFFFF
    ∧ State.reset.polderWord p 0x404 = 0x4000 ∧ State.reset.polderWord p 0x800 = 0 := by
  have hthere : State.reset.dikeThere 0 = true := by decide
  simp [State.polderWord, State.dikeRate, State.dikeBurst, State.dikeWait, hthere, Polder.ctrl, bit]

/-- A link's page at reset: the link is enabled, and min_width has its reset value of 1 (R411). -/
theorem linkWord_reset {j : Nat} (hj : j < 64) : State.reset.linkWord j 0 = 0 ∧ State.reset.linkWord j 4 = 0x88000000
    ∧ State.reset.linkWord j 8 = 0 ∧ State.reset.linkWord j 12 = 0 := by
  have hfits : State.reset.variant.fits (linkDie j) = true := fits_tbx20 (by unfold linkDie; omega)
  simp [State.linkWord, hfits, Link.stateWord, Link.ctrlWord, Link.peerWord, Link.errWord, bit]

/-- Settles O58: the polder and link pages by `polderWord_reset` and `linkWord_reset`, and the HUB, POWER, EVENT and SEC
words as the state after reset gives them. -/
theorem resetValues : Obligations.ResetValues := by
  refine ⟨?hub, fun p _ => polderWord_reset p, fun j hj => linkWord_reset hj, ?power, ?events, ?memory⟩
  case hub => decide
  case power => decide
  case events => decide
  case memory => and_intros <;> rfl

end Sys2Proof.Machine

namespace Sys2Proof.Machine
open Host

/-! ### What a media agent reads and writes (R34, R437) -/

section
variable {s : State} {who : Who} {act : State → State}

/-- An access that nothing stops takes its tokens and acts. -/
theorem agentDo_open {write : Bool} {g n : Nat} (hopen : s.devStop who write g n = none) :
    s.agentDo who write g n act = act (s.devSpend who write g n) := by
  rw [State.agentDo, hopen]

/-- One write of an agent that nothing stops. -/
theorem agentPut_single {x : Nat} {bs : List Byte} (hne : bs ≠ []) (hopen : s.piecesWait who [(x, bs)] = none) :
    s.agentPut who [(x, bs)] act = act ((s.devSpend who true x bs.length).devWrite who.ctx x bs) := by
  have hfull : bs.isEmpty = false := by simpa using hne
  simp only [State.agentPut, hopen, List.foldl_cons, List.foldl_nil, hfull, Bool.false_eq_true, if_false]

end

/-! ### Encode streams opened and closed (R350, R355, R356, R370, R371, R485) -/

section
variable {s t : State} {q : Nat} {r : Reply} {e : Sqe}

/-- A stream as it opens on stream context `i` (R355). -/
def openedStream (r : Reply) (e : Sqe) (b : List Byte) (i : Nat) : EncStream :=
  { desc := b, ctx := e.target, fn := r.fn, stream := i, model := esCap b * esWin b }

/-- A descriptor that passes every check opens a stream on the free stream context of its die. -/
theorem encOpen_begins (h : s.Begins q 0x30 t r e) {b : List Byte} {i : Nat} (htarget : t.targetBad r.fn e.target = none)
    (hctx : e.target ≠ 0) (hb : t.readDesc e.desc 128 = some b) (hup : t.mediaUp (esDie b) e.target = true)
    (hmay : t.fnMayUse r.fn (esPolder b) = true) (hgood : t.esBad b = none)
    (hlevel : esLevel b = 0 ∨ Config.levelHolds b = true) (hfree : t.freeStream (esDie b) = some i)
    (hvariant : t.variant ≠ .tbx20c) :
    execEncOpen q s = .next (((({ t.tick with nextHandle := t.nextHandle + 1 } : State).setStream (esDie b) i
      (.encode t.nextHandle)).setEnc t.nextHandle (openedStream r e b i)).finish r 0 0
      (i * 256 + t.nextHandle % 2 ^ 32 * 65536)) := by
  have hmedia : t.noMedia e.target = false := by simp [State.noMedia, hvariant]
  have hholds : (decide (esLevel b ≠ 0) && !Config.levelHolds b) = false := by
    rcases hlevel with hl | hl <;> simp [hl]
  simp only [execEncOpen, h.runs, hmedia, htarget, hctx, hb, hup, hmay, hgood, hholds, hfree, hvariant, Bool.not_true,
    Bool.false_eq_true, if_false]
  rfl

/-- A live stream that no other close waits for is closing at the word of a function that may close it. -/
theorem encClose_begins (h : s.Begins q 0x31 t r e) (hlive : (t.enc e.arg1).live = true)
    (hown : r.fn = 0 ∨ (t.enc e.arg1).fn = r.fn) (hfirst : (t.enc e.arg1).closeReq = none) :
    execEncClose q s = .next (t.setEnc e.arg1 { t.enc e.arg1 with closing := true, closeReq := some r }) := by
  simp only [execEncClose, h.runs, hlive, owner_passes hown, hfirst, ne_eq, not_true_eq_false, Bool.not_true,
    Bool.false_eq_true, if_false]

/-- A stream summary is 64 bytes (R370). -/
theorem summaryOf_length (v : EncStream) : (summaryOf v).length = 64 := by simp [summaryOf]

/-- The agent of a stream's accesses (R34). -/
def State.encWho (s : State) (v : EncStream) : Who := s.mediaWho (esDie v.desc) 0 v.ctx (esPolder v.desc)

/-- Where no frame of a stream is in progress and none is to come, its summary is written and it ends. -/
theorem encodeCloseComplete_ends {h : Nat} (hlive : (s.enc h).live = true) (hidle : (s.enc h).engine = none)
    (hstate : (s.enc h).state = 0) (hlantern : s.mediaLantern (esDie (s.enc h).desc) 1 = true)
    (hdone : (s.enc h).status ≠ 0 ∨ ((s.enc h).closing = true ∧ (s.enc h).frames = [] ∧ (s.enc h).group = []
      ∧ s.encFinal (s.enc h) = true))
    (hopen : s.piecesWait (s.encWho (s.enc h)) [(esSummary (s.enc h).desc, summaryOf (s.enc h))] = none) :
    execEncodeCloseComplete h s
      = .next (((s.devSpend (s.encWho (s.enc h)) true (esSummary (s.enc h).desc) 64).devWrite (s.enc h).ctx
        (esSummary (s.enc h).desc) (summaryOf (s.enc h))).endEnc h) := by
  have hends : (decide ((s.enc h).status ≠ 0) || ((s.enc h).closing && (s.enc h).frames.isEmpty && (s.enc h).group.isEmpty
      && s.encFinal (s.enc h))) = true := by
    rcases hdone with hstatus | ⟨hclosing, hframes, hgroup, hfinal⟩
    · simp [hstatus]
    · simp [hclosing, hframes, hgroup, hfinal]
  have hne : summaryOf (s.enc h) ≠ [] := List.ne_nil_of_length_pos (by simp [summaryOf_length])
  have hput := agentPut_single (act := fun s => s.endEnc h) hne hopen
  rw [summaryOf_length] at hput
  refine congrArg Outcome.next ((if_neg ?_).trans hput)
  simp only [hends]
  simp [hlive, hidle, hstate, hlantern]

end

/-! ### Frames taken and coded (R357, R358, R363) -/

section
variable {s : State} {h : Nat}

/-- Where the next entry of a stream's frame ring stands (R357). -/
def frameEntryAt (v : EncStream) : Nat := esRing v.desc + v.taken % esEntries v.desc * 64

/-- The frame that ring entry `b` asks for: intra where it is the stream's first, is forced, or the group's length is
reached (R355, R357). -/
def takenFrame (v : EncStream) (b : List Byte) : EncFrame :=
  { index := v.taken, bytes := b,
    intra := v.taken = 0 || feForce b || (esGop v.desc ≠ 0 && decide (v.sinceIntra ≥ esGop v.desc)) }

/-- A posted entry of the frame ring joins the frames of a stream that takes frames, and memory keeps its bytes. -/
theorem encFrameTake_takes (hgoes : s.encGoes h = true) (hmore : (s.enc h).ended = false)
    (hpost : s.postThere (s.enc h).ctx (esFrameSem (s.enc h).desc) = true)
    (hopen : s.devStop (s.encWho (s.enc h)) false (frameEntryAt (s.enc h)) 64 = none) :
    ∃ t x, execEncFrameTake h s = .next t ∧ (t.enc h).taken = (s.enc h).taken + 1
      ∧ (t.enc h).frames = (s.enc h).frames ++ [x] ∧ x.index = (s.enc h).taken
      ∧ x.bytes = (s.devSpend (s.encWho (s.enc h)) false (frameEntryAt (s.enc h)) 64).devRead (frameEntryAt (s.enc h)) 64
      ∧ (t.enc h).ended = feEnd x.bytes ∧ t.mem.bytes = s.mem.bytes := by
  have htakes : (!s.encGoes h || (s.enc h).ended || !s.postThere (s.enc h).ctx (esFrameSem (s.enc h).desc)) = false := by
    simp [hgoes, hmore, hpost]
  refine ⟨_, takenFrame (s.enc h)
      ((s.devSpend (s.encWho (s.enc h)) false (frameEntryAt (s.enc h)) 64).devRead (frameEntryAt (s.enc h)) 64),
    congrArg Outcome.next ((if_neg (by simp [htakes])).trans (agentDo_open hopen)), ?_⟩
  rw [enc_setEnc, if_pos rfl]
  exact ⟨rfl, rfl, rfl, rfl, rfl, congrArg Mem.bytes (devSpend_mem ..)⟩

/-- The first frame of the mini-group in progress is coded on the stream's engine. -/
theorem encodeFrame_codes {f : EncFrame} {rest : List EncFrame} {eng : Nat} (hgroup : (s.enc h).group = f :: rest)
    (hlive : (s.enc h).live = true) (heng : (s.enc h).engine = some eng)
    (hup : s.engineUp (esDie (s.enc h).desc) eng = true) (hok : (s.job (s.enc h).ctx).faulted = false) :
    execEncodeFrame h eng s = .next (s.encodeFrame h f rest) := by
  simp only [execEncodeFrame, hgroup, hlive, heng, hup, hok, ne_eq, not_true_eq_false, decide_false, Bool.not_true,
    Bool.or_self, Bool.false_eq_true, if_false]

end

/-! ### Engines between frames (R328, R369, R539) -/

section
variable {s : State} {media eng : Nat}

/-- An engine that no stream names has no frame in progress. -/
theorem engine_idle (hidle : ∀ e ∈ s.media.encs, ¬ (esDie e.2.desc = media ∧ e.2.engine = some eng)) :
    s.media.encs.any (fun e => decide (esDie e.2.desc = media) && decide (e.2.engine = some eng)) = false := by
  simpa using hidle

/-- Where no reconstruction is out, no post frees one (R369). -/
theorem settleRecons_none (hrecons : ∀ e ∈ s.media.encs, e.2.recons = []) : s.settleRecons media = s := by
  refine List.foldlRecOn (motive := (· = s)) _ _ rfl fun t ht e he => ?_
  rw [hrecons e he]
  exact (ite_self _).trans ht

/-- The engine is on, and has turned to stream context `i` of its die (R328, R539). -/
def State.turnedTo (s : State) (media eng i : Nat) : State :=
  s.setMedia { s.media with served := mapSet 0 s.media.served (2 * media + eng) (i + 1),
                            off := mapSet false s.media.off (2 * media + eng) false }

/-- The turn changes neither the streams, nor what a stream codes next. -/
theorem encGroup_turnedTo (i : Nat) (v : EncStream) : (s.turnedTo media eng i).encGroup v = s.encGroup v := rfl

section
variable {i h : Nat} (hup : s.engineUp media eng = true)
  (hidle : ∀ e ∈ s.media.encs, ¬ (esDie e.2.desc = media ∧ e.2.engine = some eng))
  (hrecons : ∀ e ∈ s.media.encs, e.2.recons = []) (hnext : s.nextStream media eng = some i)
include hup hidle hrecons hnext

/-- An engine that turns to a stream context of a batch queue decodes its request. -/
theorem codecFrame_decodes {seq : Nat} (huse : s.stream media i = .ingest h seq) :
    execCodecFrame media eng s = .next ((s.turnedTo media eng i).decodeFrame h seq eng) := by
  have hturned : (s.turnedTo media eng i).stream media i = .ingest h seq := huse
  rw [State.turnedTo] at hturned ⊢
  simp only [execCodecFrame, hup, engine_idle hidle, settleRecons_none hrecons, hnext, hturned, Bool.not_true,
    Bool.or_self, Bool.false_eq_true, if_false]

/-- An engine that turns to an encode stream has its next frame in progress from then on. -/
theorem codecFrame_encodes {v : EncStream} (huse : s.stream media i = .encode h)
    (hgroup : s.encGroup (s.enc h) = some v) :
    execCodecFrame media eng s = .next ((s.turnedTo media eng i).setEnc h { v with engine := some eng }) := by
  have hturned : (s.turnedTo media eng i).stream media i = .encode h := huse
  have hcodes : (s.turnedTo media eng i).encGroup ((s.turnedTo media eng i).enc h) = some v :=
    (encGroup_turnedTo ..).trans hgroup
  rw [State.turnedTo] at hturned hcodes ⊢
  simp only [execCodecFrame, hup, engine_idle hidle, settleRecons_none hrecons, hnext, hturned, hcodes, Bool.not_true,
    Bool.or_self, Bool.false_eq_true, if_false]

end

/-- An engine with no frame in progress is powered off while no stream context of its die is ready. -/
theorem codecPowerOff_idle (hmedia : media < 4) (heng : eng < 2)
    (hidle : ∀ e ∈ s.media.encs, ¬ (esDie e.2.desc = media ∧ e.2.engine = some eng))
    (hnone : ∀ i < 64, s.streamReady media i = false) :
    execCodecPowerOff media eng s
      = .next (s.setMedia { s.media with off := mapSet false s.media.off (2 * media + eng) true }) := by
  have hready : (List.range 64).any (fun i => s.streamReady media i) = false := by simpa using hnone
  simp only [execCodecPowerOff, Nat.not_le.mpr hmedia, Nat.not_le.mpr heng, engine_idle hidle, hready,
    decide_false, Bool.or_self, Bool.false_eq_true, if_false]

end

/-- Settles O41: a stream is opened and closed as its commands begin (`begins_taken`), takes and codes its frames and ends
by `encFrameTake_takes`, `encodeFrame_codes` and `encodeCloseComplete_ends`; an engine turns to what is ready by
`codecFrame_decodes` and `codecFrame_encodes`, and is off by `codecPowerOff_idle`. -/
theorem encodeStreams : Obligations.EncodeStreams := by
  intro s
  refine ⟨?opens, ?closes, fun h => ⟨?takes, ?codes, ?ends⟩, ?turns, ?off⟩
  case opens =>
    intro q bs htakes t r e b i htarget hctx hb hup hmay hgood hlevel hfree hvariant
    exact encOpen_begins (begins_taken htakes) htarget hctx hb hup hmay hgood hlevel hfree hvariant
  case closes =>
    intro q bs htakes t r e v hlive hown hfirst
    exact encClose_begins (begins_taken htakes) hlive hown hfirst
  case takes => exact encFrameTake_takes
  case codes =>
    intro f rest eng hgroup hlive heng hup hok
    exact encodeFrame_codes hgroup hlive heng hup hok
  case ends => exact encodeCloseComplete_ends
  case turns =>
    intro media eng i hup hidle hrecons hnext
    exact ⟨fun h seq huse => codecFrame_decodes hup hidle hrecons hnext huse,
      fun h v huse hgroup => codecFrame_encodes hup hidle hrecons hnext huse hgroup⟩
  case off =>
    intro media eng hmedia heng hidle hnone
    exact codecPowerOff_idle hmedia heng hidle hnone

end Sys2Proof.Machine

namespace Sys2Proof.Machine
open Host

/-! ### The queue and the canonical form of memory over a step -/

/-- Settles O1: both clauses are the two branches of `step`. -/
theorem stepRunsFront : Obligations.StepRunsFront := by
  refine ⟨fun c s rest hfront => ?_, fun s hempty => ?_⟩
  · rw [step, hfront]
  · rw [step, hempty]

/-- Settles O59: no map of device memory has an entry after reset. -/
theorem invariantAtReset : Obligations.InvariantAtReset := by
  have hmem : State.reset.mem = {} := rfl
  rw [Obligations.InvariantAtReset, State.Inv, hmem]
  rfl

/-- Settles O60: a step answers one state, and that state keeps the form of memory (`step_keeps`). -/
theorem invariantKept : Obligations.InvariantKept := by
  intro s t hinv hstep
  obtain ⟨u, hu, hkeeps⟩ := step_keeps s
  obtain rfl : u = t := Outcome.next.inj (hu.symm.trans hstep)
  exact hkeeps.mem hinv

end Sys2Proof.Machine

namespace Sys2Proof.Machine
open Host

/-! ### A link read back after an update of it -/

section
variable {s : State} {j : Nat}

@[simp] theorem link_setLink_self (s : State) (j : Nat) (v : Link) : (s.setLink j v).link j = v := by
  rw [link_setLink, if_pos rfl]

@[simp] theorem link_tick (s : State) (k : Nat) : s.tick.link k = s.link k := rfl

@[simp] theorem link_post (s : State) (e : Ev) (k : Nat) : (s.post e).link k = s.link k := by
  obtain ⟨v, hv, -⟩ := post_eq_setEv s e
  rw [hv]
  rfl

/-- An event of a link leaves the links. -/
@[simp] theorem link_linkEvent (s : State) (j code sev reason k : Nat) :
    (s.linkEvent j code sev reason).link k = s.link k := link_post ..

/-! ### Training and identity (R406 to R408) -/

/-- The lanes counted in the mask of good lanes are the good lanes. -/
theorem count_maskOf (a b c d : Bool) :
    ([0, 1, 2, 3].filter (fun i => (maskOf a b c d).testBit i)).length = ([a, b, c, d].filter id).length := by
  decide +revert

/-- The lanes that a training finds good on a link that has dropped none (R406). -/
def goodLanes (o : LinkObs) : Nat := ([o.lane0, o.lane1, o.lane2, o.lane3].filter laneGood).length

/-- The width code at which a link trains: that of its good lanes, and no more than the far end's (R406). -/
def trainedWidth (o : LinkObs) : Nat := min (widthCode (goodLanes o)) (widthCode o.farWidth)

theorem goodLanes_eq_filter_id (o : LinkObs) :
    ([laneGood o.lane0, laneGood o.lane1, laneGood o.lane2, laneGood o.lane3].filter id).length = goodLanes o := by
  rw [goodLanes, ← List.countP_eq_length_filter, ← List.countP_eq_length_filter]
  exact List.countP_map (f := laneGood) (p := id) (l := [o.lane0, o.lane1, o.lane2, o.lane3])

variable {o : LinkObs}

/-- The training of an enabled and cabled link that is down or in training, once start-up has come to P3 (R406). -/
theorem linkTrain_trains (hfit : s.linkFitted j = true) (hlantern : s.lanternDown (24 + j / 16) = false)
    (hphase : 3 ≤ s.hub.phase) (hrec : s.boot.recovery = false) (hen : (s.link j).enable = true)
    (hcable : (s.link j).cable = true) (hstate : (s.link j).state ≤ 2) :
    answers (.linkTrain j o) s (s.linkTrain j o) :=
  congrArg Outcome.next (if_pos (by simp [hfit, hlantern, hphase, hrec, hen, hcable, hstate]))

/-- A crossed or looped cable is a fault (R407). -/
theorem link_linkTrain_crossed (h : o.txToTx = true ∨ o.loopback = true) :
    (s.linkTrain j o).link j = { s.link j with state := 6, crossed := true } := by
  unfold State.linkTrain
  dsimp only
  split
  next => simp
  next htx => rw [if_pos (h.resolve_left htx)]; simp

/-- Without a good lane the link goes on training (R406). -/
theorem link_linkTrain_noLane (hdrop : (s.link j).droppedLanes = 0) (htx : o.txToTx = false) (hloop : o.loopback = false)
    (hgood : goodLanes o = 0) : (s.linkTrain j o).link j = { s.link j with state := 2, lanesGood := 0 } := by
  unfold State.linkTrain
  simp [htx, hloop, hdrop, count_maskOf, goodLanes_eq_filter_id, hgood]

/-- With good lanes the link waits for its identity, unless they are fewer than its lowest width (R406, R407). -/
theorem link_linkTrain_lanes (hdrop : (s.link j).droppedLanes = 0) (htx : o.txToTx = false) (hloop : o.loopback = false)
    (hgood : goodLanes o ≠ 0) : ((s.linkTrain j o).link j).width = trainedWidth o
      ∧ ((s.linkTrain j o).link j).orderReversed = o.reversed
      ∧ ((s.linkTrain j o).link j).state = if trainedWidth o < max 1 (s.link j).minWidth then 6 else 3 := by
  unfold State.linkTrain
  simp only [htx, hloop, hdrop, Nat.zero_testBit, Bool.not_false, Bool.and_true, count_maskOf, goodLanes_eq_filter_id,
    hgood, Bool.false_eq_true, if_false]
  rw [← trainedWidth]
  split
  next hnarrow => simp
  next hwide => split <;> split <;> simp

/-- The far end of a link in service has answered for itself (R408). -/
theorem linkIdent_answers (hstate : (s.link j).state = 3) (hpkg : s.hub.pkgAssigned = true) (pkg : BitVec 12)
    (far : BitVec 6) (assigned : Bool) : ∃ t, answers (.linkIdentComplete j assigned pkg far) s t
      ∧ (assigned = false → (t.link j).state = 3)
      ∧ (assigned = true → pkg.toNat = s.hub.pkgId → (t.link j).state = 6)
      ∧ (assigned = true → pkg.toNat ≠ s.hub.pkgId → s.routedElsewhere j pkg.toNat = true → (t.link j).state = 6)
      ∧ (assigned = true → pkg.toNat ≠ s.hub.pkgId → s.routedElsewhere j pkg.toNat = false →
        (t.link j).state = 4 ∧ (t.link j).farPkg = pkg.toNat ∧ (t.link j).farLink = far.toNat
          ∧ (t.link j).lost = false) := by
  refine ⟨_, rfl, ?_⟩
  simp only [hstate, hpkg, ne_eq, not_true_eq_false, decide_false, Bool.not_true, Bool.or_self, Bool.false_eq_true, if_false]
  cases assigned with
  | false =>
    refine ⟨fun _ => ?_, by simp, by simp, by simp⟩
    simp only [Bool.not_false, if_true]
    split
    · exact hstate
    · simp
  | true =>
    refine ⟨by simp, fun _ hown => ?_, fun _ hother hrouted => ?_, fun _ hother hfree => ?_⟩
    · simp [hown]
    · simp [hother, hrouted]
    · simp [hother, hfree]

end

/-- Settles O27: the outcomes of a training are `link_linkTrain_crossed`, `link_linkTrain_noLane` and
`link_linkTrain_lanes`, those of an identity `linkIdent_answers`. -/
theorem linkBringUp : Obligations.LinkBringUp := by
  refine ⟨?training, fun s j pkg far assigned hstate hpkg => linkIdent_answers hstate hpkg pkg far assigned⟩
  intro s j o hfit hlantern hphase hrec v hen hcable hstate hdrop good w
  refine ⟨_, linkTrain_trains hfit hlantern hphase hrec hen hcable hstate, fun hcrossed => ?_, fun htx hloop hnone => ?_,
    fun htx hloop hsome => ?_⟩
  · rw [link_linkTrain_crossed hcrossed]
    exact ⟨rfl, rfl⟩
  · rw [link_linkTrain_noLane hdrop htx hloop hnone]
  · obtain ⟨hwidth, horder, hlink⟩ := link_linkTrain_lanes hdrop htx hloop hsome
    refine ⟨hwidth, horder, ?_⟩
    split
    next hnarrow => exact hlink.trans (if_pos hnarrow)
    next hwide => exact hlink.trans (if_neg hwide)

/-! ### Links in use (R399, R400, R409, R423) -/

section
variable {s : State} {j : Nat}

/-- A link in service: up, or being recalibrated. -/
abbrev State.linkServes (s : State) (j : Nat) : Prop := (s.link j).state = 4 ∨ (s.link j).state = 5

/-- A link in service retrains from step 1 of R406, as one that was lost (R400, R409). -/
theorem retrain_serving {v : Link} (h : v.state = 4 ∨ v.state = 5) :
    ((s.setLink j v).retrain j).link j = { v.restart with recalReq := false } := by
  unfold State.retrain
  simp only [link_setLink_self]
  rw [if_pos (by simpa using h), link_setLink_self]

/-- A retraining link begins anew, is lost until it is back, and keeps the lanes that it has dropped. -/
theorem restart_lost {v : Link} (h : v.state = 4 ∨ v.state = 5) : v.restart.lost = true := by
  simp [Link.restart, h]

theorem laneLockLost_retrains {lane : Nat} (hlane : lane < 4) (h : s.linkServes j) :
    ∃ t, answers (.laneLockLost j lane) s t ∧ (t.link j).state = 1 ∧ (t.link j).lost = true
      ∧ (if (s.link j).weakLanes.testBit lane then (t.link j).droppedLanes = (s.link j).droppedLanes ||| 2 ^ lane
        else (t.link j).weakLanes = (s.link j).weakLanes ||| 2 ^ lane) := by
  refine ⟨_, congrArg Outcome.next (if_pos (by simpa [hlane] using h)), ?_⟩
  cases hweak : (s.link j).weakLanes.testBit lane with
  | true =>
    rw [if_pos rfl, if_pos rfl, retrain_serving (by exact h)]
    exact ⟨rfl, restart_lost (by exact h), rfl⟩
  | false =>
    rw [if_neg (by simp), if_neg (by simp), retrain_serving (by exact h)]
    exact ⟨rfl, restart_lost (by exact h), rfl⟩

theorem fecRateWindow_counts (n u : Nat) (h : s.linkServes j) :
    ∃ t, answers (.fecRateWindow j n u) s t ∧ (t.link j).uncorrectable = min ((s.link j).uncorrectable + u) 0xFFFF
      ∧ (if n < u * 1000000 then (t.link j).state = 1 else (t.link j).state = (s.link j).state) := by
  refine ⟨_, congrArg Outcome.next (if_pos (by simpa using h)), ?_⟩
  dsimp only
  by_cases hrate : n < u * 1000000
  · rw [if_pos hrate, if_pos hrate, retrain_serving (by exact h)]
    exact ⟨rfl, rfl⟩
  · rw [if_neg hrate, if_neg hrate, link_setLink_self]
    exact ⟨rfl, rfl⟩

theorem flitNakReceived_counts (seq : BitVec 12) (h : s.linkServes j) :
    ∃ t, answers (.flitNakReceived j seq) s t ∧ (if (s.link j).nakCount = 16 ∧ (s.link j).nakSeq = seq.toNat
      then (t.link j).state = 1 else (s.link j).nakCount < 16 → (t.link j).state = (s.link j).state) := by
  refine ⟨_, congrArg Outcome.next (if_pos (by simpa using h)), ?_⟩
  dsimp only
  split
  next hlast =>
    obtain ⟨hcount, hseq⟩ := hlast
    simp only [hcount, hseq]
    rw [if_pos (by decide), link_tick, retrain_serving (by exact h)]
    rfl
  next =>
    intro hfew
    rw [if_neg (by split <;> omega), link_tick, link_setLink_self]

theorem linkLossTimeout_ends (hlost : (s.link j).lost = true) (hdown : (s.link j).state ≠ 4) :
    ∃ t, answers (.linkLossTimeout j) s t ∧ (t.link j).lost = false
      ∧ (t.link j).state = if (s.link j).state = 6 ∨ (s.link j).state = 7 then (s.link j).state else 0 := by
  refine ⟨_, congrArg Outcome.next (if_pos (by simp [hlost, hdown])), ?_⟩
  simp

@[simp] theorem link_fullTrain (s : State) (j : Nat) : (s.fullTrain j).link j
    = { (s.link j).restart with weakLanes := 0, droppedLanes := 0, recalReq := false } := link_setLink_self ..

theorem cablePresenceChange_trains {p : Bool} (hfit : s.linkFitted j = true) (hnew : (s.link j).cable ≠ p)
    (hen : (s.link j).state ≠ 7) :
    ∃ t, answers (.cablePresenceChange j p) s t ∧ (t.link j).cable = p ∧ (t.link j).state = 1 := by
  refine ⟨_, congrArg Outcome.next ((if_neg (by simp [hfit, hnew])).trans (if_neg hen)), ?_⟩
  rw [link_fullTrain, link_setLink_self]
  exact ⟨rfl, rfl⟩

/-! ### Requests of software to a link (R402, R411, R412) -/

/-- A link stays fitted whatever becomes of the links. -/
@[simp] theorem linkFitted_setLink (s : State) (i : Nat) (v : Link) (j : Nat) :
    (s.setLink i v).linkFitted j = s.linkFitted j := rfl

theorem linkEnableWrite_disables {w : Lane} (hserves : s.serves 0 = true) (hfit : s.linkFitted j = true)
    (hen : w.toNat.testBit 31 = false) (hrecal : w.toNat.testBit 30 = false) (htrain : w.toNat.testBit 29 = false) :
    ∃ t, answers (.linkEnableWrite j w) s t ∧ (t.link j).state = 7 ∧ (t.link j).enable = false
      ∧ (t.link j).width = 0 := by
  refine ⟨_, congrArg Outcome.next (if_pos hserves), ?_⟩
  simp [State.linkCtrl, hfit, hen, hrecal, htrain]

/-- A change of a link that keeps its state. -/
structure SameStates (s t : State) : Prop where
  states : ∀ i, (t.link i).state = (s.link i).state
  routes : t.levee.routes = s.levee.routes

theorem setLink_sameStates {v : Link} (h : v.state = (s.link j).state) : SameStates s (s.setLink j v) where
  states i := by
    rw [link_setLink]
    split
    next hi => rw [h, hi]
    next => rfl
  routes := rfl

theorem SameStates.dieRecal {t : State} (h : SameStates s t) (j : Nat) : t.dieRecal j = s.dieRecal j := by
  simp only [State.dieRecal, h.states]

theorem SameStates.alternates {t : State} (h : SameStates s t) (j : Nat) : t.alternates j = s.alternates j := by
  simp only [State.alternates, State.upLinks, h.states, h.routes]

/-- The link with the request for a recalibration noted. -/
def State.recalAsked (s : State) (j : Nat) : State := s.setLink j { s.link j with recalReq := true }

@[simp] theorem link_recalAsked (s : State) (j : Nat) : (s.recalAsked j).link j = { s.link j with recalReq := true } :=
  link_setLink_self ..

/-- A recalibration of an up link is asked for, and begins, waits or is refused (R412). -/
theorem linkRecalReq_up (hserves : s.serves 0 = true) (hfit : s.linkFitted j = true) (hup : (s.link j).state = 4) :
    answers (.linkRecalReq j) s ((s.recalAsked j).recalStart j) := by
  refine congrArg Outcome.next ((if_pos hserves).trans (if_neg ?_))
  simp [hfit, hup]

/-- On a die where no link is recalibrated the request for an up link begins at once, with an alternate link or by force. -/
theorem recalStart_begins (hup : (s.link j).state = 4) (hfree : s.dieRecal j = false)
    (hmay : (s.link j).recalForce = true ∨ s.alternates j = true) :
    (s.recalAsked j).recalStart j = (s.recalAsked j).setLink j { s.link j with recalReq := true, state := 5 } := by
  have hsame : SameStates s (s.recalAsked j) := setLink_sameStates rfl
  have hok : (!(s.link j).recalForce && !s.alternates j) = false := by
    rcases hmay with h | h <;> simp [h]
  simp [State.recalStart, hsame.dieRecal, hsame.alternates, hup, hfree, hok]

theorem recalStart_refuses (hup : (s.link j).state = 4) (hfree : s.dieRecal j = false)
    (hforce : (s.link j).recalForce = false) (halt : s.alternates j = false) : (s.recalAsked j).recalStart j
      = ((s.recalAsked j).setLink j { s.link j with recalReq := false }).linkEvent j 0x0707 0 1 := by
  have hsame : SameStates s (s.recalAsked j) := setLink_sameStates rfl
  simp [State.recalStart, hsame.dieRecal, hsame.alternates, hup, hfree, hforce, halt]

/-- The start of a recalibration leaves every other link, and a link that has not asked for one. -/
theorem link_recalStart {i : Nat} (h : (s.link j).recalReq = false) : (s.recalStart i).link j = s.link j := by
  have hne (hi : ¬ (!(s.link i).recalReq) = true) : j ≠ i := by
    rintro rfl
    exact hi (by simp [h])
  unfold State.recalStart
  dsimp only
  split
  · rfl
  next hi =>
    split_ifs <;> simp [link_setLink, hne hi]

/-- A drained link is up again, whichever requests of its die begin then (R412). -/
theorem linkRecalDrained_ends (hstate : (s.link j).state = 5) :
    ∃ t, answers (.linkRecalDrained j) s t ∧ (t.link j).state = 4 ∧ (t.link j).recalReq = false := by
  refine ⟨_, congrArg Outcome.next (if_neg (by simp [hstate])), ?_⟩
  refine List.foldlRecOn (motive := fun t : State => (t.link j).state = 4 ∧ (t.link j).recalReq = false) _ _ ?_
    fun t ht i _ => ?_
  · simp
  · rw [link_recalStart ht.2]
    exact ht

theorem linkRetrainReq_trains (hserves : s.serves 0 = true) (hfit : s.linkFitted j = true)
    (hen : (s.link j).enable = true) :
    ∃ t, answers (.linkRetrainReq j) s t ∧ (t.link j).state = 1 ∧ (t.link j).retrainReq = false := by
  refine ⟨_, congrArg Outcome.next ((if_pos hserves).trans
    ((if_neg (by simp [hfit])).trans (if_pos hen))), ?_⟩
  rw [link_fullTrain]
  exact ⟨rfl, rfl⟩

/-- Every link is down or waits for its identity: the assigned bit of HUB_PKG_ID may change (R402). -/
def State.linksIdle (s : State) : Bool :=
  (List.range 64).all (fun j => decide ((s.link j).state = 0) || decide ((s.link j).state = 3))

theorem hubPkgIdWrite_writes (hopen : s.fnOpen 0 = true) (w : Lane) : ∃ t, answers (.hubPkgIdWrite w) s t
    ∧ t.hub.pkgAssigned = (if s.linksIdle then w.toNat.testBit 31 else s.hub.pkgAssigned)
    ∧ t.hub.pkgId = if s.hub.pkgAssigned then s.hub.pkgId else w.toNat % 4096 :=
  ⟨_, congrArg Outcome.next (if_pos hopen), rfl, rfl⟩

theorem fnOpen_of_serves {fn : Nat} (h : s.serves fn = true) : s.fnOpen fn = true := by
  simp only [State.serves, Bool.and_eq_true] at h
  exact h.1.1

end

/-- Settles O28: a link in service by `retrain_serving` and the events that retrain it, the requests of software by what
`recalStart` makes of them and by the write of HUB_PKG_ID. -/
theorem linksInUse : Obligations.LinksInUse := by
  refine ⟨?inUse, ?requests⟩
  case inUse =>
    intro s j v
    refine ⟨?attempt, fun lane => laneLockLost_retrains, fecRateWindow_counts, ?crc, flitNakReceived_counts,
      linkLossTimeout_ends, fun p => cablePresenceChange_trains⟩
    case attempt => exact fun h => congrArg Outcome.next (if_pos h)
    case crc => exact fun h => congrArg Outcome.next (if_pos (by simpa using h))
  case requests =>
    intro s j w hserves hfit v
    refine ⟨linkEnableWrite_disables hserves hfit, ?begins, ?refused, linkRecalDrained_ends,
      linkRetrainReq_trains hserves hfit, ?idle, ?busy⟩
    case begins =>
      intro hup hfree hmay
      refine ⟨_, linkRecalReq_up hserves hfit hup, ?_⟩
      rw [recalStart_begins hup hfree hmay, link_setLink_self]
      exact ⟨rfl, rfl⟩
    case refused =>
      intro hup hfree hforce halt
      refine ⟨_, linkRecalReq_up hserves hfit hup, ?_⟩
      rw [recalStart_refuses hup hfree hforce halt, link_linkEvent, link_setLink_self]
      exact ⟨hup, rfl⟩
    case idle =>
      intro hidle
      obtain ⟨t, ht, hassigned, hid⟩ := hubPkgIdWrite_writes (fnOpen_of_serves hserves) w
      have hall : s.linksIdle = true := by simpa [State.linksIdle] using hidle
      exact ⟨t, ht, hassigned.trans (if_pos hall), hid⟩
    case busy =>
      rintro ⟨i, hi, hdown, hwait⟩
      obtain ⟨t, ht, hassigned, -⟩ := hubPkgIdWrite_writes (fnOpen_of_serves hserves) w
      have hnot : s.linksIdle = false := by
        simp only [State.linksIdle, List.all_eq_false, List.mem_range]
        exact ⟨i, hi, by simp [hdown, hwait]⟩
      exact ⟨t, ht, hassigned.trans (if_neg (by simp [hnot]))⟩

end Sys2Proof.Machine

namespace Sys2Proof.Machine
open Host

/-! ### The latched timestamp (R500) -/

section
variable {s : State}

/-- Every function but a VF reads HUB_TIME_LO as the low word of the timestamp, and HUB_TIME_HI as `timeHi`. -/
theorem regWord_time (s : State) : s.regWord 0 0x28 = s.time % 2 ^ 32 ∧ s.regWord 0 0x2C = s.timeHi 0 % 2 ^ 32 := by
  simp [State.regWord, State.pfWord, State.hubWord]

/-- The high word that a read of HUB_TIME_LO latches. -/
def State.timeHiNow (s : State) : Nat := s.time / 2 ^ 32 % 2 ^ 32

theorem timeHi_latched {x : Nat} (h : mapGet none s.host.timeLatch 0 = some x) : s.timeHi 0 = x := by
  simp [State.timeHi, h]

theorem timeHi_current (h : mapGet none s.host.timeLatch 0 = none) : s.timeHi 0 = s.timeHiNow := by
  simp [State.timeHi, State.timeHiNow, h]

/-- A read of HUB_TIME_LO latches the high word and changes nothing else but the free values that are left. -/
theorem readWord_timeLo (s : State) : s.readWord 0 0x28
    = ((s.setHost { s.host with timeLatch := mapSet none s.host.timeLatch 0 (some s.timeHiNow) }).tick,
      s.time % 2 ^ 32) := by
  rw [State.readWord, (regWord_time s).1]
  rfl

/-- A read of HUB_TIME_HI releases the latch. -/
theorem readWord_timeHi (s : State) : s.readWord 0 0x2C
    = ((s.setHost { s.host with timeLatch := mapSet none s.host.timeLatch 0 none }).tick, s.timeHi 0 % 2 ^ 32) := by
  rw [State.readWord, (regWord_time s).2]
  rfl

/-- A read of HUB_TIME_HI answers what `timeHi` shows, and no word is latched after it. -/
theorem rcRegisterRead_timeHi (hopen : s.fnOpen 0 = true) : ∃ t, answers (.rcRegisterRead 0 0x2C 4) s t
    ∧ t.host.value = s.timeHi 0 % 2 ^ 32 ∧ mapGet none t.host.timeLatch 0 = none := by
  refine ⟨_, congrArg Outcome.next (readReg_word hopen rfl), (regWord_time s).2, ?_⟩
  rw [readWord_timeHi]
  exact mapGet_mapSet_self ..

/-- A 32-bit read of HUB_TIME_LO answers the low word and latches the high one. -/
theorem hubTimeLoRead_word (hopen : s.fnOpen 0 = true) : ∃ t, answers (.hubTimeLoRead 0 4) s t
    ∧ t.host.value = s.time % 2 ^ 32 ∧ mapGet none t.host.timeLatch 0 = some s.timeHiNow := by
  refine ⟨_, congrArg Outcome.next ((if_neg (by simp)).trans (readReg_word hopen rfl)), (regWord_time s).1, ?_⟩
  rw [readWord_timeLo]
  exact mapGet_mapSet_self ..

/-- A 64-bit read of HUB_TIME_LO is the two words of one timestamp, and no word stays latched. -/
theorem hubTimeLoRead_double (hopen : s.fnOpen 0 = true) : ∃ t, answers (.hubTimeLoRead 0 8) s t
    ∧ t.host.value = s.time % 2 ^ 64 ∧ mapGet none t.host.timeLatch 0 = none := by
  have hread : s.readReg 0 0x28 8 = (((s.readWord 0 0x28).1.readWord 0 0x2C).1.answerReg
      ((s.readWord 0 0x28).2 + 2 ^ 32 * ((s.readWord 0 0x28).1.readWord 0 0x2C).2)) := by
    simp [State.readReg, hopen]
  refine ⟨_, congrArg Outcome.next ((if_neg (by simp)).trans hread), ?_, ?_⟩
  · have hlatched : (s.readWord 0 0x28).1.timeHi 0 = s.timeHiNow := by
      rw [readWord_timeLo]
      exact timeHi_latched (mapGet_mapSet_self ..)
    rw [readWord_timeHi, hlatched, readWord_timeLo, State.timeHiNow]
    change s.time % 2 ^ 32 + 2 ^ 32 * (s.time / 2 ^ 32 % 2 ^ 32 % 2 ^ 32) = s.time % 2 ^ 64
    omega
  · rw [readWord_timeHi]
    exact mapGet_mapSet_self ..

end

/-- Settles O56: the reads of the two words, alone and together, and what `timeHi` shows with and without a latch. -/
theorem timestampLatch : Obligations.TimestampLatch := by
  intro s hopen
  refine ⟨hubTimeLoRead_word hopen, hubTimeLoRead_double hopen, fun x hlatch => ?latched, fun hlatch => ?current⟩
  case latched =>
    have hread := rcRegisterRead_timeHi hopen
    rwa [timeHi_latched hlatch] at hread
  case current =>
    have hread := rcRegisterRead_timeHi hopen
    rwa [timeHi_current hlatch, State.timeHiNow, Nat.mod_mod] at hread

/-! ### What a completion leaves (R477, R486, R487, R490) -/

section
variable {s : State}

/-- The state without device memory, the host interface and the place among the free values: what no completion of a
command reaches. -/
def State.beyondHost (s : State) : State := { s with mem := {}, host := {}, freeCtr := 0 }

@[simp] theorem write_beyondHost (s : State) (ctx a : Nat) (bs : List Byte) :
    (s.write ctx a bs).beyondHost = s.beyondHost := by
  refine foldl_leaves (g := State.beyondHost) (fun s x => ?_) _ s
  dsimp only
  split <;> rfl

@[simp] theorem ringTouch_beyondHost (s : State) (write : Bool) (v : Queue) (hi base len : Nat) :
    (s.ringTouch write v hi base len).beyondHost = s.beyondHost := by
  unfold State.ringTouch
  split
  · refine foldl_leaves (g := State.beyondHost) (fun s n => ?_) _ s
    unfold State.fillLine
    dsimp only
    split <;> rfl
  · rfl

@[simp] theorem setQueue_beyondHost (s : State) (q : Nat) (v : Queue) : (s.setQueue q v).beyondHost = s.beyondHost := rfl

@[simp] theorem raise_beyondHost (s : State) (fn v : Nat) : (s.raise fn v).beyondHost = s.beyondHost := by
  unfold State.raise
  dsimp only
  split <;> rfl

@[simp] theorem signal_beyondHost (s : State) (q : Nat) : (s.signal q).beyondHost = s.beyondHost := by
  unfold State.signal
  dsimp only
  split
  · rfl
  · split
    · exact raise_beyondHost ..
    · rfl

@[simp] theorem complete_beyondHost (s : State) (r : Reply) (interim : Bool) (d : Done) :
    (s.complete r interim d).beyondHost = s.beyondHost := by
  unfold State.complete
  dsimp only
  split
  · rfl
  · simp

@[simp] theorem finish_beyondHost (s : State) (r : Reply) (status detail result : Nat) :
    (s.finish r status detail result).beyondHost = s.beyondHost := complete_beyondHost ..

/-! ### Numbering and delivery of events (R453, R489) -/

/-- What numbering and delivery read and keep of the events while the hub runs: the log, the journal, the next number. -/
def State.numbered (s : State) : Bool × List (Nat × Ev) × List Ev × Nat :=
  (s.hub.running, s.ev.log, s.ev.journal, s.ev.next)

theorem numbered_of_beyondHost {t : State} (h : t.beyondHost = s.beyondHost) : t.numbered = s.numbered :=
  congrArg (f := State.numbered) (a₁ := t.beyondHost) (a₂ := s.beyondHost) h

/-- While the hub runs, an event that is detected waits for its number. -/
theorem postEachSecond_numbered (hrun : s.hub.running = true) (key : Nat) (e : Ev) :
    (s.postEachSecond key e).numbered = s.numbered := by
  unfold State.postEachSecond
  dsimp only
  split
  · rfl
  · rw [post_running hrun]
    rfl

/-- The delivery to an event queue, full or not, numbers nothing. -/
theorem deliverTo_numbered (hrun : s.hub.running = true) (q : Nat) (e : Ev) :
    (s.deliverTo q e).numbered = s.numbered := by
  unfold State.deliverTo
  dsimp only
  split
  · exact (numbered_of_beyondHost ((ringTouch_beyondHost ..).trans (write_beyondHost ..))).trans
      (postEachSecond_numbered (by exact hrun) ..)
  · exact numbered_of_beyondHost (by simp)

theorem deliver_numbered (hrun : s.hub.running = true) (e : Ev) : (s.deliver e).numbered = s.numbered := by
  refine List.foldlRecOn (motive := fun t : State => t.numbered = s.numbered) _ _ rfl fun t ht q _ => ?_
  have htrun : t.hub.running = true := (congrArg Prod.fst ht).trans hrun
  exact (deliverTo_numbered htrun ..).trans ht

/-- A record that was not in the journal takes its place in the ring, and in the journal where its severity asks for it. -/
theorem logRecord_numbered (hrun : s.hub.running = true) (e : Ev) : (s.logRecord e false).numbered
    = (true, mapSet {} s.ev.log (e.seq % 65536) e,
      if 2 ≤ e.sev then (s.ev.journalAdd e).journal else s.ev.journal, s.ev.next) := by
  have hlog : ({ s.ev with log := mapSet {} s.ev.log (e.seq % 65536) e }).journalAdd e
      = { s.ev.journalAdd e with log := mapSet {} s.ev.log (e.seq % 65536) e } := by
    unfold Events.journalAdd
    split
    · rfl
    · split <;> rfl
  have hnext : (s.ev.journalAdd e).next = s.ev.next := by
    unfold Events.journalAdd
    split
    · rfl
    · split <;> rfl
  unfold State.logRecord
  simp only [Bool.false_eq_true, if_false]
  rw [deliver_numbered (by exact hrun), hlog]
  split
  · simp [State.numbered, State.setEv, hrun, hnext]
  · simp [State.numbered, State.setEv, hrun]

/-- The oldest detected event takes the next number, its place in the ring, and one in the journal where its severity asks
for it (R453). -/
theorem eventPost_numbers {e : Ev} {rest : List Ev} (hdet : s.ev.detected = e :: rest) (hrun : s.hub.running = true)
    (hlantern : s.lanternDown 34 = false) (hnext : s.ev.next < 0xFFFFFFFF) : ∃ t, answers .eventPost s t
      ∧ t.ev.next = s.ev.next + 1 ∧ t.ev.log = mapSet {} s.ev.log (s.ev.next % 65536) { e with seq := s.ev.next }
      ∧ t.ev.journal = if 2 ≤ e.sev then (({ s.ev with detected := rest }).journalAdd { e with seq := s.ev.next }).journal
        else s.ev.journal := by
  generalize hu : (s.setEv { s.ev with detected := rest }).logRecord { e with seq := s.ev.next } false = u
  have hlogged := logRecord_numbered (s := s.setEv { s.ev with detected := rest }) hrun { e with seq := s.ev.next }
  rw [hu, State.numbered] at hlogged
  simp only [Prod.mk.injEq] at hlogged
  obtain ⟨-, hlog, hjournal, hunext⟩ := hlogged
  have hseq : u.nextSeq = u.setEv { u.ev with next := u.ev.next + 1 } := if_pos (hunext.symm ▸ hnext)
  refine ⟨u.nextSeq, ?_, ?_⟩
  · have hexec : execEventPost s = .next ((s.setEv { s.ev with detected := rest }).numberEvent e false) := by
      simp [execEventPost, hdet, hrun, hlantern]
    rw [answers, ← hu]
    exact hexec
  · rw [hseq]
    exact ⟨congrArg (· + 1) hunext, hlog, hjournal⟩

/-! ### The EVENT block (R509) -/

/-- The argument of a write of EVENT_SELECT fills the register. -/
theorem eventSelectWrite_latches (hopen : s.fnOpen 0 = true) (w : Lane) :
    answers (.eventSelectWrite w) s (s.setEv { s.ev with select := w.toNat }.latch) := by
  refine congrArg Outcome.next ((if_pos hopen).trans ?_)
  rw [State.eventSelect, Nat.mod_eq_of_lt w.isLt]

theorem eventCtrlWrite_writes (hopen : s.fnOpen 0 = true) (w : Lane) :
    answers (.eventCtrlWrite w) s (s.eventCtrl w.toNat) := congrArg Outcome.next (if_pos hopen)

end

/-- Settles O32: `eventPost_numbers`, and the registers of the EVENT block. -/
theorem eventLog : Obligations.EventLog := by
  intro s w
  refine ⟨?post, fun hopen => eventSelectWrite_latches hopen w, ?other, ?same, ?word, ?half⟩
  case post =>
    intro e rest hdet hrun hlantern hlt
    obtain ⟨t, ht, hnext, hlog, hjournal⟩ := eventPost_numbers hdet hrun hlantern hlt
    refine ⟨t, ht, hnext, by rw [hlog, mapGet_mapSet_self], fun i hi => by rw [hlog, mapGet_mapSet_ne _ _ hi],
      fun hsev hhalt hroom => ?_, fun hsev => hjournal.trans (if_neg (by omega))⟩
    have hadded := journalAdd_room (v := { s.ev with detected := rest }) hhalt hroom { e with seq := s.ev.next }
    exact hjournal.trans ((if_pos hsev).trans (congrArg Events.journal hadded))
  case other =>
    intro hopen hother
    exact (eventCtrlWrite_writes hopen w).trans (congrArg _ (if_neg hother))
  case same =>
    intro hopen hsame
    exact (eventCtrlWrite_writes hopen w).trans (congrArg _ (if_pos hsame))
  case word =>
    intro hopen
    exact ⟨_, congrArg Outcome.next (if_neg (by simp [hopen])), rfl, rfl⟩
  case half =>
    intro hopen
    exact ⟨_, congrArg Outcome.next (if_neg (by simp [hopen])), rfl, rfl⟩

end Sys2Proof.Machine

namespace Sys2Proof.Machine
open Host

/-! ### Queues owned, enabled and disabled (R480, R481, R483) -/

section
variable {s : State} {fn q g : Nat}

@[simp] theorem queue_setQueue_self (s : State) (i : Nat) (v : Queue) : (s.setQueue i v).queue i = v := by
  rw [queue_setQueue, if_pos rfl]

@[simp] theorem setQueue_setQueue (s : State) (i : Nat) (v u : Queue) : (s.setQueue i v).setQueue i u = s.setQueue i u := by
  simp [State.setQueue, State.setHost]

/-- A field of a word is the quotient by its place, reduced by its width. -/
theorem fieldOf_eq (w lo width : Nat) : fieldOf w lo width = w / 2 ^ lo % 2 ^ width := by
  rw [fieldOf, Nat.shiftRight_eq_div_pow]

/-- While a queue is not enabled PF0 writes its owner, unless another queue has that place in that function. -/
theorem queueOwnerWrite_writes {x : Lane} (hserves : s.serves 0 = true) (hq : g < 4096) (hoff : (s.queue g).enable = false)
    (hfree : x.toNat % 16 ≠ 0 → ∀ e ∈ s.host.queues, e.1 ≠ g →
      ¬ (e.2.fn = x.toNat % 16 ∧ e.2.localIx = x.toNat / 16 % 256)) : answers (.queueOwnerWrite g x) s
      (s.setQueue g { s.queue g with fn := x.toNat % 16, localIx := x.toNat / 16 % 256 }) := by
  have hrepeats : (decide (x.toNat % 16 ≠ 0) && s.host.queues.any (fun e => decide (e.1 ≠ g)
      && decide (e.2.fn = x.toNat % 16) && decide (e.2.localIx = x.toNat / 16 % 256))) = false := by
    by_cases hpf0 : x.toNat % 16 = 0
    · simp [hpf0]
    · have hnone := hfree hpf0
      simp only [hpf0, ne_eq, not_false_eq_true, decide_true, Bool.true_and, List.any_eq_false]
      intro e he
      simpa [and_assoc] using hnone e he
  refine congrArg Outcome.next ((if_pos hserves).trans ?_)
  have hfn : fieldOf x.toNat 0 4 = x.toNat % 16 := by simp [fieldOf_eq]
  have hix : fieldOf x.toNat 4 8 = x.toNat / 16 % 256 := fieldOf_eq ..
  simp only [State.ownerWrite, hfn, hix, hoff, hrepeats, Nat.not_le.mpr hq, decide_false, Bool.or_self,
    Bool.false_eq_true, if_false]

/-- The owner of an enabled queue stays. -/
theorem queueOwnerWrite_enabled (hon : (s.queue g).enable = true) (x : Lane) : answers (.queueOwnerWrite g x) s s := by
  refine congrArg Outcome.next ?_
  simp [State.ownerWrite, hon]

/-- A queue that its function reaches in its own view. -/
structure State.Owns (s : State) (fn q g : Nat) : Prop where
  serves : s.serves fn = true
  names : s.queueOf fn q = some g
  owner : (s.queue g).fn = fn

theorem ownWrite_owned (h : s.Owns fn q g) (w x : Nat) : s.ownWrite fn q w x = s.queueWrite g w x := by
  rw [State.ownWrite, h.names]
  exact if_pos (by simp [h.serves, h.owner])

/-- A queue with the fields of its control word written (R480). -/
def Queue.withCtrl (v : Queue) (x : Nat) : Queue :=
  { v with enable := true, kind := x.testBit 30, sqLog2 := x / 2 ^ 25 % 32, cqLog2 := x / 2 ^ 20 % 32,
           irqEn := x.testBit 19, vector := x % 2048 }

/-- The word that an enable writes: the control word with its top bit set. -/
theorem enableWord_fields (x : Nat) : (x % 2 ^ 31 + 2 ^ 31).testBit 31 = true
    ∧ (∀ i < 31, (x % 2 ^ 31 + 2 ^ 31).testBit i = x.testBit i)
    ∧ fieldOf (x % 2 ^ 31 + 2 ^ 31) 25 5 = x / 2 ^ 25 % 32 ∧ fieldOf (x % 2 ^ 31 + 2 ^ 31) 20 5 = x / 2 ^ 20 % 32
    ∧ fieldOf (x % 2 ^ 31 + 2 ^ 31) 0 11 = x % 2048 := by
  have hlow : x % 2 ^ 31 < 2 ^ 31 := Nat.mod_lt _ (by decide)
  refine ⟨?_, fun i hi => ?_, ?_, ?_, ?_⟩
  · rw [Nat.add_comm, Nat.testBit_two_pow_add_eq, Nat.testBit_lt_two_pow hlow]
    rfl
  · rw [Nat.add_comm, Nat.testBit_two_pow_add_gt hi, Nat.testBit_mod_two_pow]
    simp [hi]
  · rw [fieldOf_eq]; omega
  · rw [fieldOf_eq]; omega
  · rw [fieldOf_eq]; omega

theorem queueWrite_ctrl_rest (hrest : (s.queue g).running = false) (x : Nat) : s.queueWrite g 4 x
    = (let t := s.setQueue g { s.queue g with
        enable := x.testBit 31, kind := x.testBit 30, sqLog2 := fieldOf x 25 5, cqLog2 := fieldOf x 20 5
        irqEn := x.testBit 19, vector := fieldOf x 0 11 }
      if x.testBit 31 then t.startQueue g else t) :=
  if_neg (by simp [hrest])

theorem queueWrite_ctrl_running (hrun : (s.queue g).running = true) {x : Nat} (hoff : x.testBit 31 = false) :
    s.queueWrite g 4 x = (s.setQueue g { s.queue g with enable := false }).stopQueue g :=
  (if_pos hrun).trans (if_neg (by simp [hoff]))

/-- The enable of a queue at rest writes its control word and starts it. -/
theorem queueEnable_starts (h : s.Owns fn q g) (hrest : (s.queue g).running = false) (x : Lane) :
    answers (.queueEnable fn q x) s ((s.setQueue g ((s.queue g).withCtrl x.toNat)).startQueue g) := by
  obtain ⟨htop, hbits, hsq, hcq, hvec⟩ := enableWord_fields x.toNat
  refine congrArg Outcome.next ((ownWrite_owned h ..).trans ((queueWrite_ctrl_rest hrest ..).trans ?_))
  simp only [htop, hbits 30 (by decide), hbits 19 (by decide), hsq, hcq, hvec, if_true]
  rfl

/-- The disable of a running queue stops it, at once where nothing that it took is in flight. -/
theorem queueDisable_stops (h : s.Owns fn q g) (hrun : (s.queue g).running = true) : answers (.queueDisable fn q) s
    (s.setQueue g (if (s.queue g).inFlight = 0 then { s.queue g with enable := false, running := false, stopping := false }
      else { s.queue g with enable := false, stopping := true })) := by
  have htop : ((s.queue g).word 4 % 2 ^ 31).testBit 31 = false := Nat.testBit_lt_two_pow (Nat.mod_lt _ (by decide))
  have hexec : execQueueDisable fn q s = .next (s.ownWrite fn q 4 ((s.queue g).word 4 % 2 ^ 31)) := by
    rw [execQueueDisable, h.names]
  refine hexec.trans (congrArg Outcome.next ((ownWrite_owned h ..).trans ((queueWrite_ctrl_running hrun htop).trans ?_)))
  simp only [State.stopQueue, queue_setQueue_self, hrun, Bool.not_true, Bool.false_eq_true, if_false, setQueue_setQueue]
  split <;> rfl

/-! ### Doorbells (R483) -/

section
variable {x : Lane} (hserves : s.serves fn = true) (hnames : s.queueOf fn q = some g)
include hserves hnames

theorem dbSqTail_rings : answers (.dbSqTail fn q x) s (s.sqTail g x.toNat) := by
  have hexec : execDbSqTail fn q x s = .next (if s.serves fn then s.sqTail g x.toNat else s) := by
    rw [execDbSqTail, hnames]
  exact hexec.trans (congrArg _ (if_pos hserves))

theorem dbCqHead_rings : answers (.dbCqHead fn q x) s (s.cqHead g x.toNat) := by
  have hexec : execDbCqHead fn q x s = .next (if s.serves fn then s.cqHead g x.toNat else s) := by
    rw [execDbCqHead, hnames]
  exact hexec.trans (congrArg _ (if_pos hserves))

end

/-- The SQ tail of a running command queue moves within the ring, and a value outside is an error of the queue. -/
theorem sqTail_running (hrun : (s.queue g).running = true) (hgo : (s.queue g).stopping = false)
    (hcmd : (s.queue g).kind = false) (x : Nat) : s.sqTail g x = if (s.queue g).sqSize ≤ x % 65536
      then s.queueError g 1 (x % 65536) else s.setQueue g { s.queue g with tail := x % 65536 } :=
  if_neg (by simp [hrun, hgo, hcmd])

/-- Going on by `n` places in a ring of `size` and coming from the place of `r` is a distance of `n`. -/
theorem ring_distance {r n size : Nat} (h : n < size) : ((r + n) % size + size - r % size) % size = n := by
  have hr : r % size < size := Nat.mod_lt _ (by omega)
  rw [← Nat.mod_add_mod r size n]
  rcases Nat.lt_or_ge (r % size + n) size with hlt | hge
  · rw [Nat.mod_eq_of_lt hlt, show r % size + n + size - r % size = n + size by omega, Nat.add_mod_right,
      Nat.mod_eq_of_lt h]
  · rw [Nat.mod_eq_sub_mod hge, Nat.mod_eq_of_lt (by omega : r % size + n - size < size),
      show r % size + n - size + size - r % size = n by omega, Nat.mod_eq_of_lt h]

/-- The host has read `n` more of the entries that were written. -/
theorem cqHead_reads (hrun : (s.queue g).running = true) {n x : Nat} (hn : n < (s.queue g).cqSize)
    (hle : (s.queue g).read + n ≤ (s.queue g).written)
    (hx : x % 65536 = ((s.queue g).read + n) % (s.queue g).cqSize) :
    s.cqHead g x = s.setQueue g { s.queue g with read := (s.queue g).read + n } := by
  have hin : ((s.queue g).read + n) % (s.queue g).cqSize < (s.queue g).cqSize := Nat.mod_lt _ (by omega)
  simp only [State.cqHead, hrun, hx, ring_distance hn, Nat.not_le.mpr hin, Nat.not_lt.mpr hle, Bool.not_true,
    Bool.false_eq_true, decide_false, Bool.or_self, if_false]

/-! ### Entries of no opcode (R485, R494) -/

theorem not_progress_of_unknown {op : Nat} (h : op ∉ opcodes) : op ≠ 5 := by
  rintro rfl
  exact h (by decide)

/-- Before the job manager opens an entry is taken and held. -/
theorem entryBad_held {bs : List Byte} (hfront : s.front g = .entry bs) (hop : recField bs 0 1 ∉ opcodes)
    (hclosed : s.hub.jobOpen = false)
    (hroom : 1 ≤ (s.queue g).cqSize - ((s.queue g).written - (s.queue g).read) - (s.queue g).owed) :
    answers (.entryBad g) s ((s.ringTouch false (s.queue g) (s.queue g).sqHi ((s.queue g).sqBase + (s.queue g).head * 64)
      64).setQueue g { s.queue g with
        head := ((s.queue g).head + 1) % (s.queue g).sqSize, inFlight := (s.queue g).inFlight + 1
        owed := (s.queue g).owed + 1, held := (s.queue g).held ++ [((s.queue g).fn, bs)] }) := by
  have hunknown : (!opcodes.contains (recField bs 0 1)) = true := by simpa using hop
  refine congrArg Outcome.next ?_
  simp only [State.takeIf, hclosed, Bool.false_eq_true, if_false, State.takeFront, hfront, hunknown,
    decide_eq_true (not_progress_of_unknown hop), Bool.not_true, Bool.not_false, Bool.true_and, Bool.false_and,
    Bool.or_self, Bool.false_or, decide_eq_true_eq, Nat.not_lt.mpr hroom, if_true]

/-- Once it is open the oldest held entry begins, and completes as one of no opcode. -/
theorem entryBad_begins {f : Nat} {bs : List Byte} {rest : List (Nat × List Byte)}
    (hheld : (s.queue g).held = (f, bs) :: rest) (hop : recField bs 0 1 ∉ opcodes) (hopen : s.hub.jobOpen = true)
    (hrun : s.hub.running = true) (h32 : s.lanternDown 32 = false) (h33 : s.lanternDown 33 = false)
    (hfree : (recField bs 1 1).testBit 0 = false) : answers (.entryBad g) s
      ((s.setQueue g { s.queue g with held := rest }).finish { q := g, id := recField bs 2 2, fn := f } 0x0B 0 0) := by
  have hunknown : (!opcodes.contains (recField bs 0 1)) = true := by simpa using hop
  refine congrArg Outcome.next ?_
  simp only [State.takeIf, hopen, if_true, hheld, State.startHeld, hunknown, hrun, h32, h33, hfree, Bool.not_true,
    Bool.false_and, Bool.or_self, Bool.false_eq_true, if_false]
  rfl

end

/-- Settles O31: the writes of a queue's owner and control word, its doorbells, and its entries of no opcode
(`takeIf_taken` where one completes at once, `entryBad_held` and `entryBad_begins` before and after P7). -/
theorem queueControl : Obligations.QueueControl := by
  intro s fn q g w v x
  refine ⟨queueOwnerWrite_writes, fun hon => queueOwnerWrite_enabled hon w, ?enable, ?disable, ?tail, ?head, ?timer,
    ?taken, ?held, ?begins⟩
  case enable =>
    intro hserves hnames hown hrest u t
    have hexec := queueEnable_starts ⟨hserves, hnames, hown⟩ hrest w
    have hstart : t.startQueue g = if t.enableError g u ≠ 0 then t.setQueue g { u with error := t.enableError g u }
        else t.setQueue g { u with
          running := true, stopping := false, error := 0, head := 0, tail := 0, written := 0, read := 0, inFlight := 0
          owed := 0, unsignalled := 0, dropped := 0, held := [] } := by
      rw [State.startQueue, show t.queue g = u from queue_setQueue_self ..]
    exact ⟨fun hok => hexec.trans (congrArg _ (hstart.trans (if_neg (not_not.mpr hok)))),
      fun herr => hexec.trans (congrArg _ (hstart.trans (if_pos herr)))⟩
  case disable =>
    intro hserves hnames hown hrun
    exact queueDisable_stops ⟨hserves, hnames, hown⟩ hrun
  case tail =>
    intro hserves hnames hrun hgo hcmd
    have hexec := (dbSqTail_rings hserves hnames).trans (congrArg Outcome.next (sqTail_running hrun hgo hcmd w.toNat))
    exact ⟨fun hin => hexec.trans (congrArg _ (if_neg (Nat.not_le.mpr hin))),
      fun hout => hexec.trans (congrArg _ (if_pos hout))⟩
  case head =>
    intro hserves hnames hrun n hn hle hx
    exact (dbCqHead_rings hserves hnames).trans (congrArg _ (cqHead_reads hrun hn hle hx))
  case timer => exact fun h => congrArg Outcome.next (if_neg h)
  case taken =>
    intro bs h hop
    exact congrArg Outcome.next (takeIf_taken h (by simpa using hop) _)
  case held =>
    intro bs hfront hop hclosed hroom
    exact entryBad_held hfront hop hclosed hroom
  case begins =>
    intro f bs rest hheld hop hopen hrun h32 h33 hfree
    exact entryBad_begins hheld hop hopen hrun h32 h33 hfree

end Sys2Proof.Machine

namespace Sys2Proof.Machine
open Host

/-! ### Placement of waiting tasks (R379, R381) -/

section
variable {s : State}

/-- The first batch of the order that finds its places is the one after those that find none. -/
theorem firstPlaced_append {before after : List Batch} {b : Batch} {t : State}
    (hbefore : ∀ x ∈ before, s.placeBatch x = none) (hb : s.placeBatch b = some t) :
    s.firstPlaced (before ++ b :: after) = some (b, t) := by
  induction before with
  | nil => simp only [List.nil_append, State.firstPlaced, hb]
  | cons x l ih =>
    obtain ⟨hx, hl⟩ := List.forall_mem_cons.mp hbefore
    simp only [List.cons_append, State.firstPlaced, hx]
    exact ih hl

section
variable {b : Batch} {t : State} (hup : s.jobManagerUp = true) (hfirst : s.firstPlaced s.batches = some (b, t))
include hup hfirst

theorem taskPlace_places (hone : b.striped = false) : answers .taskPlace s t := by
  refine congrArg Outcome.next ((if_neg (by simp [hup])).trans ?_)
  rw [hfirst]
  exact if_neg (by simp [hone])

/-- A striped stage is placed whole, and its reservation is over. -/
theorem stripedStagePlace_places (hstriped : b.striped = true) : answers (.stripedStagePlace b.ctx b.stage) s
    (t.setJob b.ctx { t.job b.ctx with
      stages := (t.job b.ctx).stages.set b.stage { (t.job b.ctx).stage b.stage with reserved := false } }) := by
  refine congrArg Outcome.next ((if_neg (by simp [hup])).trans ?_)
  rw [hfirst]
  exact if_pos (by simp [hstriped])

end

/-- The priority of the job that a batch belongs to. -/
def State.batchPriority (s : State) (b : Batch) : Nat := (s.polder (s.job b.ctx).polder).priority

/-- The first batch of its priority in the order is found there. -/
theorem find_first_of_priority {before after : List Batch} {b : Batch}
    (hfirst : ∀ x ∈ before, s.batchPriority x ≠ s.batchPriority b) :
    (before ++ b :: after).find? (fun x => decide (s.batchPriority x = s.batchPriority b)) = some b := by
  rw [List.find?_append, List.find?_eq_none.mpr (by simpa using hfirst)]
  simp

/-- A striped stage at the head of its priority reserves its regions. -/
theorem stripedStageReserve_reserves {before after : List Batch} {b : Batch} (hup : s.jobManagerUp = true)
    (horder : s.batches = before ++ b :: after) (hstriped : b.striped = true)
    (hfirst : ∀ x ∈ before, s.batchPriority x ≠ s.batchPriority b) :
    answers (.stripedStageReserve b.ctx b.stage) s (s.setJob b.ctx { s.job b.ctx with
      stages := (s.job b.ctx).stages.set b.stage { (s.job b.ctx).stage b.stage with reserved := true } }) := by
  have hfind := find_first_of_priority (after := after) hfirst
  rw [← horder] at hfind
  unfold State.batchPriority at hfind
  refine congrArg Outcome.next ?_
  dsimp only
  rw [hfind]
  exact if_pos (by simp [hup, hstriped])

/-! ### Tasks that leave a fenced core (R394) -/

section
variable {a : At} {saved : Bool} (hfenced : (s.core a.core).health.fenced = true)
  (hthere : (s.at_ a).id.resident = true) (hsound : (s.at_ a).faulted = false)
  (hmoves : (s.job (s.at_ a).id.ctx).moves = true) (hlanded : s.writesHeld (s.at_ a).id.ctx = false)
include hfenced hthere hsound hmoves hlanded

/-- A task on a fenced core leaves it, and takes another place where there is one. -/
theorem taskMove_moves (hruns : saved = true → (s.job (s.at_ a).id.ctx).state = 0) : answers (.taskMove a saved) s
    ((s.moveOff a.core a.slot saved true).tryPlace (s.at_ a).id.ctx (s.at_ a).stage (s.at_ a).task) :=
  congrArg Outcome.next (if_neg (by simpa [hfenced, hthere, hsound, hmoves, hlanded] using hruns))

end

/-- A task whose pool can be written is saved, and its move reported. -/
theorem moveOff_saved {c k : Nat} (hpool : s.poolFail (s.slot c k).id.ctx (c / 24) = none) :
    s.moveOff c k true true = s.saveTask c k 0 (some (taskEvent 0x0121 0 (s.slot c k).id.ctx (s.slot c k).id.polder c
      (s.slot c k).stage ((s.slot c k).task % 2 ^ 23))) := if_pos (by simp [hpool])

/-- A task that is not saved, keeps no stripe record and may not restart is lost, and its job faults. -/
theorem moveOff_lost {c k : Nat} (hstripe : (s.slot c k).stripe = none)
    (hstay : ((s.job (s.slot c k).id.ctx).stage (s.slot c k).stage).restartable = false) : s.moveOff c k false true
      = ((s.post (taskEvent 0x0122 2 (s.slot c k).id.ctx (s.slot c k).id.polder c (s.slot c k).stage
        (s.slot c k).task)).stopSlot { core := c, slot := k }).faultJob (s.slot c k).id.ctx 0x0122 := by
  simp only [State.moveOff, hstripe, hstay, Bool.false_and, Bool.not_true, Bool.false_eq_true, if_false]

/-! ### Penumbra timeouts (R246) -/

/-- A wait at a counter without an increase is reported, and the stripe that it waits on is moved. -/
theorem penumbraTimeout_reports {a : At} {r : ConvRun} {ctr : Nat} (hwait : s.slotWait a.core a.slot = some (r, ctr))
    (hgoes : (s.at_ a).goes = true) (hlantern : s.lanternDown (a.core / 12) = false) :
    answers (.penumbraTimeout a) s ((s.postEachSecond (0x0230 * 2 ^ 40 + (s.at_ a).id.ctx * 65536 + r.stripe)
      (stripeEvent 0x0230 1 (s.at_ a).id.ctx a.core r.stripe ctr (s.sem (s.at_ a).id.ctx ctr).value)).moveStripe
        (s.at_ a).id.ctx 64 ctr) := by
  refine congrArg Outcome.next ?_
  simp only [hwait, hgoes, hlantern, Bool.not_true, Bool.or_self, Bool.false_eq_true, if_false]

/-- An event limited to one a second changes the events alone. -/
theorem postEachSecond_eq_setEv (s : State) (key : Nat) (e : Ev) : ∃ v, s.postEachSecond key e = s.setEv v := by
  unfold State.postEachSecond
  dsimp only
  split
  · exact ⟨_, rfl⟩
  · obtain ⟨v, hv, -⟩ := post_eq_setEv s e
    rw [hv]
    exact ⟨_, rfl⟩

/-- Without a record of the producer nothing is moved (R247). -/
theorem moveStripe_noProducer {ctx ctr : Nat} (h : s.producer ctx ctr = none) (fuel : Nat) :
    s.moveStripe ctx fuel ctr = s := by
  cases fuel with
  | zero => rfl
  | succ n => rw [State.moveStripe, h]

end

/-- Settles O33: the first batch that finds its places (`firstPlaced_append`), the first of its priority
(`find_first_of_priority`), the two ways off a fenced core, and a timeout with and without a producer. -/
theorem placement : Obligations.Placement := by
  refine ⟨fun s => ⟨?places, ?reserves, ?moves⟩, ?timeout⟩
  case places =>
    intro before b after t hup horder hbefore hb
    have hfirst : s.firstPlaced s.batches = some (b, t) := by rw [horder, firstPlaced_append hbefore hb]
    exact ⟨taskPlace_places hup hfirst, fun hstriped => ⟨_, stripedStagePlace_places hup hfirst hstriped, rfl, rfl⟩⟩
  case reserves =>
    intro before b after hup horder hstriped pri j hfirst
    exact stripedStageReserve_reserves hup horder hstriped hfirst
  case moves =>
    intro a saved hfenced sl ctx hthere hsound hmoves hlanded
    refine ⟨?saved, ?lost⟩
    case saved =>
      rintro rfl hruns hpool
      have hmove := taskMove_moves hfenced hthere hsound hmoves hlanded (saved := true) (fun _ => hruns)
      rwa [moveOff_saved hpool] at hmove
    case lost =>
      rintro rfl hstripe hstay
      have hmove := taskMove_moves hfenced hthere hsound hmoves hlanded (saved := false) nofun
      rwa [moveOff_lost hstripe hstay] at hmove
  case timeout =>
    intro s a r ctr hwait hgoes hlantern ctx t
    have htimeout := penumbraTimeout_reports hwait hgoes hlantern
    refine ⟨htimeout, fun hnone => ?_⟩
    have hkept : t.producer ctx ctr = none := by
      obtain ⟨v, hv⟩ := postEachSecond_eq_setEv s (0x0230 * 2 ^ 40 + ctx * 65536 + r.stripe)
        (stripeEvent 0x0230 1 ctx a.core r.stripe ctr (s.sem ctx ctr).value)
      exact (congrArg (fun u : State => u.producer ctx ctr) hv).trans hnone
    rwa [moveStripe_noProducer hkept] at htimeout

end Sys2Proof.Machine

namespace Sys2Proof.Machine
open Host

/-! ### What the save of a task leaves of its job (R61, R133, R390) -/

section
variable {s : State} {ctx : Nat}

@[simp] theorem wake_jobs (s : State) (place result : Nat) : (s.wake place result).jobs = s.jobs := by
  unfold State.wake
  dsimp only
  split <;> rfl

@[simp] theorem semValue_jobs (s : State) (ctx i value : Nat) : (s.semValue ctx i value).jobs = s.jobs :=
  foldl_leaves (g := State.jobs) (fun s p => wake_jobs s p 1) _ _

@[simp] theorem withdraw_jobs (s : State) (c k : Nat) : (s.withdraw c k).jobs = s.jobs := by
  unfold State.withdraw
  dsimp only
  split
  · exact semValue_jobs ..
  · rfl

theorem jobs_of_beyondHost {t : State} (h : t.beyondHost = s.beyondHost) : t.jobs = s.jobs :=
  congrArg (f := State.jobs) (a₁ := t.beyondHost) (a₂ := s.beyondHost) h

@[simp] theorem finish_jobs (s : State) (r : Reply) (status detail result : Nat) :
    (s.finish r status detail result).jobs = s.jobs := jobs_of_beyondHost (finish_beyondHost ..)

@[simp] theorem hubPut_beyondHost (s : State) (a : Nat) (bs : List Byte) : (s.hubPut a bs).beyondHost = s.beyondHost := by
  unfold State.hubPut
  split
  · exact write_beyondHost ..
  · exact write_beyondHost ..
  · rfl

@[simp] theorem hubPut_jobs (s : State) (a : Nat) (bs : List Byte) : (s.hubPut a bs).jobs = s.jobs :=
  jobs_of_beyondHost (hubPut_beyondHost ..)

/-- The resume of a context that waits for its suspend to land (R391). -/
def State.resumeOf (s : State) (ctx : Nat) : Option Reply := (s.job ctx).resumeReq

theorem resumeOf_of_jobs {t : State} (h : t.jobs = s.jobs) (ctx : Nat) : t.resumeOf ctx = s.resumeOf ctx := by
  rw [State.resumeOf, State.job, h]
  rfl

/-- A write of a job that keeps its resume request. -/
theorem resumeOf_setJob {i : Nat} {j : Job} (h : j.resumeReq = (s.job i).resumeReq) (ctx : Nat) :
    (s.setJob i j).resumeOf ctx = s.resumeOf ctx := by
  unfold State.resumeOf
  rw [job_setJob]
  split
  next hi => rw [h, hi]
  next => rfl

theorem faultJob_resumeOf (s : State) (i code ctx : Nat) : (s.faultJob i code).resumeOf ctx = s.resumeOf ctx := by
  unfold State.faultJob
  dsimp only
  split
  · rfl
  · exact resumeOf_setJob (by rfl) ctx

theorem post_jobs (s : State) (e : Ev) : (s.post e).jobs = s.jobs := by
  obtain ⟨v, hv, -⟩ := post_eq_setEv s e
  rw [hv]
  rfl

theorem semPost1_resumeOf (s : State) (i x : Nat) (place : Option At) (ctx : Nat) :
    (s.semPost1 i x place).resumeOf ctx = s.resumeOf ctx := by
  unfold State.semPost1
  dsimp only
  split
  · rfl
  split
  · exact resumeOf_of_jobs (semValue_jobs ..) ctx
  split
  · rfl
  split
  · exact (faultJob_resumeOf ..).trans (resumeOf_of_jobs (post_jobs ..) ctx)
  · exact (faultJob_resumeOf ..).trans (resumeOf_of_jobs (post_jobs ..) ctx)

theorem flushPosts_resumeOf (s : State) (c k ctx : Nat) : (s.flushPosts c k).resumeOf ctx = s.resumeOf ctx :=
  foldl_leaves (g := fun s => State.resumeOf s ctx) (fun s x => semPost1_resumeOf s _ x _ ctx) _ _

theorem freeSlot_resumeOf (s : State) (c k ctx : Nat) : (s.freeSlot c k).resumeOf ctx = s.resumeOf ctx := by
  unfold State.freeSlot
  dsimp only
  split
  · exact resumeOf_setJob (by rfl) ctx
  · rfl

theorem saveTask_resumeOf (s : State) (c k state : Nat) (notice : Option Ev) (ctx : Nat) :
    (s.saveTask c k state notice).resumeOf ctx = s.resumeOf ctx := by
  have hflushed : ((s.withdraw c k).flushPosts c k).resumeOf ctx = s.resumeOf ctx :=
    (flushPosts_resumeOf ..).trans (resumeOf_of_jobs (withdraw_jobs ..) ctx)
  unfold State.saveTask
  generalize (s.withdraw c k).flushPosts c k = u at hflushed ⊢
  have hfreed : ((u.vacate c k).releaseEngines c k).resumeOf ctx = u.resumeOf ctx := freeSlot_resumeOf ..
  exact (resumeOf_setJob (by rfl) ctx).trans (hfreed.trans hflushed)

/-- The operations of a job that take another state leave its record but for its refresh. -/
theorem shiftOps_resumeOf (s : State) (i old new ctx : Nat) : (s.shiftOps i old new).resumeOf ctx = s.resumeOf ctx := by
  delta State.shiftOps
  extract_lets +onlyGivenNames u w x
  have hu : u.jobs = s.jobs := foldl_leaves (g := State.jobs) (fun s e => by dsimp only; split <;> rfl) _ _
  have hw : w.jobs = u.jobs := foldl_leaves (g := State.jobs) (fun s e => by dsimp only; split <;> rfl) _ _
  have hx : x.jobs = w.jobs := foldl_leaves (g := State.jobs) (fun s e => by dsimp only; split <;> rfl) _ _
  have hall : x.resumeOf ctx = s.resumeOf ctx := resumeOf_of_jobs (hx.trans (hw.trans hu)) ctx
  clear_value x
  dsimp only
  split
  · split
    · exact (resumeOf_setJob (by rfl) ctx).trans hall
    · exact hall
  · exact hall

theorem showRefresh_jobs (s : State) (i : Nat) : (s.showRefresh i).jobs = s.jobs := by
  unfold State.showRefresh
  dsimp only
  split
  · exact hubPut_jobs ..
  · rfl

/-- The resident tasks of a context are saved, and its operations take the state of their job (R61, R390). -/
def State.allSaved (s : State) (ctx : Nat) : State :=
  let t := s.cores.foldl (fun s c => (List.range 4).foldl (fun s k =>
    if (s.slot c.1 k).id.resident && decide ((s.slot c.1 k).id.ctx = ctx) then s.saveTask c.1 k 3 none else s) s) s
  ((t.shiftOps ctx 1 2).showRefresh ctx).writeStats ctx

theorem allSaved_resumeOf (s : State) (ctx : Nat) : (s.allSaved ctx).resumeOf ctx = s.resumeOf ctx := by
  delta State.allSaved
  extract_lets +onlyGivenNames t
  have ht : t.resumeOf ctx = s.resumeOf ctx := by
    refine foldl_leaves (g := fun s => State.resumeOf s ctx) (fun s c => ?_) _ _
    refine foldl_leaves (g := fun s => State.resumeOf s ctx) (fun s k => ?_) _ _
    split
    · exact saveTask_resumeOf ..
    · rfl
  clear_value t
  exact (resumeOf_of_jobs ((hubPut_jobs ..).trans (showRefresh_jobs ..)) ctx).trans ((shiftOps_resumeOf ..).trans ht)

/-! ### A suspend that lands (R61, R390) -/

section
variable (hlive : (s.job ctx).live = true) (hsound : (s.job ctx).faulted = false) (hstate : (s.job ctx).state = 1)
  (hwrites : s.writesHeld ctx = false) (hops : s.opsLanded ctx = true)
include hlive hsound hstate hwrites hops

/-- Nothing of the context is left to land. -/
theorem suspend_lands : ¬ (!(s.job ctx).live || (s.job ctx).faulted || decide ((s.job ctx).state ≠ 1) || s.writesHeld ctx
    || !s.opsLanded ctx) = true := by
  simp [hlive, hsound, hstate, hwrites, hops]

/-- A suspend of which a task cannot be saved is a job fault (R62). -/
theorem jobSuspended_fails {f : AccFail} (hfail : s.saveFail ctx = some f) :
    s.jobSuspended ctx = s.faultJob ctx (f.event ctx).1 := by
  refine (if_neg (suspend_lands hlive hsound hstate hwrites hops)).trans ?_
  rw [hfail]

/-- A suspend that saves every task of its job, with no resume to follow, is answered once the job is suspended. -/
theorem jobSuspended_saved (hsaved : s.saveFail ctx = none) (hresume : (s.job ctx).resumeReq = none) :
    s.jobSuspended ctx = ((s.allSaved ctx).job ctx).waiting.foldl (fun s r => s.finish r 0 0 0)
      ((s.allSaved ctx).setJob ctx { (s.allSaved ctx).job ctx with state := 2, waiting := [], resumeReq := none }) := by
  have hnone : ((s.allSaved ctx).job ctx).resumeReq = none := (allSaved_resumeOf s ctx).trans hresume
  refine (if_neg (suspend_lands hlive hsound hstate hwrites hops)).trans ?_
  rw [hsaved]
  change (match ((s.allSaved ctx).job ctx).resumeReq with | some r => _ | none => _) = _
  rw [hnone]
  rfl

end

/-! ### A job that ends (R378, R393, R493) -/

@[simp] theorem dropLines_jobs (s : State) (i : Nat) : (s.dropLines i).jobs = s.jobs :=
  foldl_leaves (g := State.jobs) (by intros; rfl) _ _

@[simp] theorem destroyObj_jobs (s : State) (i : Nat) : (s.destroyObj i).jobs = s.jobs :=
  foldl_leaves (g := State.jobs) (by intros; rfl) _ _

@[simp] theorem sweep_jobs (s : State) : s.sweep.jobs = s.jobs := by
  delta State.sweep
  extract_lets +onlyGivenNames u
  have hu : u.jobs = s.jobs := foldl_leaves (g := State.jobs) (fun s c => by
    split
    · exact dropLines_jobs ..
    · rfl) _ _
  refine (foldl_leaves (g := State.jobs) (fun s o => ?_) _ _).trans hu
  dsimp only
  split
  · exact destroyObj_jobs ..
  · rfl

/-- A job's number is free again, or the job stays as it is (R374, R393). -/
theorem job_settleJobId (s : State) (i : Nat) : (s.settleJobId i).job i = {} ∨ (s.settleJobId i).job i = s.job i := by
  unfold State.settleJobId
  split
  · exact .inl ((job_setJob ..).trans (if_pos rfl))
  · exact .inr rfl

/-- The record of a job as its teardown leaves it. -/
def State.tornDown (s : State) (ctx : Nat) : State :=
  s.setJob ctx { s.job ctx with state := 4, tasks := [], barriers := [] }

/-- After a teardown the job has no tasks, and its number is in quarantine or free. -/
theorem job_tornDown (s : State) (ctx : Nat) : (((s.tornDown ctx).settleJobId ctx).sweep.job ctx).tasks = []
    ∧ ((((s.tornDown ctx).settleJobId ctx).sweep.job ctx).state = 4
      ∨ ((s.tornDown ctx).settleJobId ctx).sweep.job ctx = {}) := by
  have hswept : ((s.tornDown ctx).settleJobId ctx).sweep.job ctx = ((s.tornDown ctx).settleJobId ctx).job ctx := by
    rw [State.job, sweep_jobs]
    rfl
  have hjob : (s.tornDown ctx).job ctx = { s.job ctx with state := 4, tasks := [], barriers := [] } :=
    (job_setJob ..).trans (if_pos rfl)
  rw [hswept]
  rcases job_settleJobId (s.tornDown ctx) ctx with h | h
  · rw [h]
    exact ⟨rfl, .inr rfl⟩
  · rw [h, hjob]
    exact ⟨rfl, .inl rfl⟩

/-- A faulted job whose core is not in reset is torn down. -/
theorem jobTeardown_tears (hlive : (s.job ctx).live = true) (hfault : (s.job ctx).faulted = true)
    (hstate : (s.job ctx).state ≠ 4) (h30 : s.lanternDown 30 = false) (h31 : s.lanternDown 31 = false)
    (hdie : (s.job ctx).faultCore = 0xFF ∨ (s.die ((s.job ctx).faultCore / 24)).resetting = false) :
    ∃ u : State, answers (.jobTeardown ctx) s ((u.tornDown ctx).settleJobId ctx).sweep := by
  have hnow : ¬ (!(s.job ctx).live || !(s.job ctx).faulted || decide ((s.job ctx).state = 4) || s.lanternDown 30
      || s.lanternDown 31
      || (decide ((s.job ctx).faultCore ≠ 0xFF) && (s.die ((s.job ctx).faultCore / 24)).resetting)) = true := by
    rcases hdie with h | h <;> simp [hlive, hfault, hstate, h30, h31, h]
  exact ⟨_, congrArg Outcome.next (if_neg hnow)⟩

end

/-- Settles O43: a suspend that lands by `jobSuspended_fails` and `jobSuspended_saved`, a teardown by
`jobTeardown_tears`, and the others as their commands answer. -/
theorem jobEnds : Obligations.JobEnds := by
  intro s ctx j
  refine ⟨?complete, ?suspend, ?teardown, ?vf, ?pf⟩
  case complete =>
    intro hup hlive hsound hstate hended hunits
    exact congrArg Outcome.next (if_neg (by simp [j, hup, hlive, hsound, hstate, hended, hunits]))
  case suspend =>
    intro hlive hsound hstate hwrites hops
    refine ⟨fun f hfail => ?fails, fun hsaved hresume => ?saved⟩
    case fails => exact congrArg Outcome.next (jobSuspended_fails hlive hsound hstate hwrites hops hfail)
    case saved =>
      refine ⟨_, congrArg Outcome.next (jobSuspended_saved hlive hsound hstate hwrites hops hsaved hresume), ?_⟩
      rw [State.job, foldl_leaves (g := State.jobs) (fun s r => finish_jobs s r 0 0 0)]
      change ((State.setJob _ ctx _).job ctx).state = 2 ∧ ((State.setJob _ ctx _).job ctx).waiting = []
      rw [job_setJob, if_pos rfl]
      exact ⟨rfl, rfl⟩
  case teardown =>
    intro hlive hfault hstate h30 h31 hdie
    obtain ⟨u, hu⟩ := jobTeardown_tears hlive hfault hstate h30 h31 hdie
    exact ⟨_, hu, job_tornDown u ctx⟩
  case vf =>
    intro vf hpos hlt hretry hen
    exact congrArg Outcome.next ((if_neg (by simp [hretry, hen, hlt])).trans (if_neg (by omega)))
  case pf =>
    intro hretry
    exact congrArg Outcome.next (if_neg (by simp [hretry]))

end Sys2Proof.Machine

namespace Sys2Proof.Machine
open Host

/-! ### Collectives issued (R416, R417) -/

section
variable {s : State} {a : At} {f : Fields}

/-- What an access's tokens and cache lines leave of the levee system: the groups and the collectives in progress. -/
def State.collWork (s : State) : List (Nat × CollGroup) × List CollRun := (s.levee.groups, s.levee.colls)

theorem spend_collWork (s : State) (who : Who) (uses : List (Nat × Nat)) : (s.spend who uses).collWork = s.collWork := by
  unfold State.spend
  split
  · rfl
  · refine foldl_leaves (g := State.collWork) (fun s x => ?_) uses s
    dsimp only
    split <;> rfl

theorem fillHost_collWork (s : State) (write : Bool) (x len : Nat) : (s.fillHost write x len).collWork = s.collWork := by
  refine foldl_leaves (g := State.collWork) (fun s n => ?_) _ s
  unfold State.fillLine
  dsimp only
  split <;> rfl

theorem cacheFill_collWork (s : State) (ctx : Nat) (write : Bool) (x len : Nat) :
    (s.cacheFill ctx write x len).collWork = s.collWork := by
  unfold State.cacheFill
  split
  · split
    · exact fillHost_collWork ..
    · rfl
  · split
    · refine foldl_leaves (g := State.collWork) (fun s e => ?_) _ s
      dsimp only
      split
      · exact fillHost_collWork ..
      · rfl
    · rfl

theorem devSpend_collWork (s : State) (who : Who) (write : Bool) (g len : Nat) :
    (s.devSpend who write g len).collWork = s.collWork := by
  unfold State.devSpend
  split
  · exact spend_collWork ..
  · exact (cacheFill_collWork ..).trans (spend_collWork ..)

theorem passFree_collWork (s : State) (g len : Nat) : (s.passFree g len).collWork = s.collWork := by
  unfold State.passFree
  split <;> rfl

/-- The five collectives differ in the number that their group records (R416). -/
def collInstr (minor : Nat) (a : At) (f : Fields) : Instr :=
  match minor with
  | 0 => .collAllreduce a f
  | 1 => .collRedscat a f
  | 2 => .collAllgather a f
  | 3 => .collAlltoall a f
  | _ => .collBcast a f

theorem exec_collInstr {minor : Nat} (h : minor < 5) (s : State) (a : At) (f : Fields) :
    exec (collInstr minor a f) s = .next (s.collIssue a f minor) := by
  interval_cases minor <;> rfl

/-- The address of a collective's command block. -/
def State.collBlockAt (s : State) (a : At) (f : Fields) : Nat := ((s.at_ a).rs f.src1).toNat

/-- A collective as its slot issues it, last of its group (R416, R417). -/
def State.collIssued (s : State) (a : At) (f : Fields) (minor : Nat) : CollRun :=
  let sl := s.at_ a
  let b := s.devRead (s.collBlockAt a f) 64
  { minor := minor, core := a.core, slot := a.slot, stage := sl.stage, task := sl.task, group := cbGroup b,
    ctx := sl.id.ctx, polder := sl.id.polder, seq := (s.group (cbGroup b)).issued, block := b, post := postOf f }

/-- The read of a collective's command block. -/
def State.collBlockSpent (s : State) (a : At) (f : Fields) : State :=
  (s.devSpend (s.whoAt a) false (s.collBlockAt a f) 64).passFree (s.collBlockAt a f) 64

theorem collBlockSpent_leaves (s : State) (a : At) (f : Fields) :
    (s.collBlockSpent a f).at_ a = s.at_ a ∧ (s.collBlockSpent a f).levee.colls = s.levee.colls :=
  ⟨at_cores ((passFree_cores ..).trans (devSpend_cores ..)) a,
    congrArg Prod.snd ((passFree_collWork ..).trans (devSpend_collWork ..))⟩

/-- A state with a collective noted as the newest of its group. -/
def State.collJoined (s : State) (r : CollRun) (gr : CollGroup) : State :=
  let t := s.setGroup r.group { gr with issued := gr.issued + 1 }
  { t with levee := { t.levee with colls := t.levee.colls ++ [r] } }

theorem collJoined_adds (s : State) (r : CollRun) (gr : CollGroup) :
    (s.collJoined r gr).levee.colls = s.levee.colls ++ [r]
      ∧ (s.collJoined r gr).group r.group = { gr with issued := gr.issued + 1 } :=
  ⟨rfl, (group_setGroup ..).trans (if_pos rfl)⟩

/-- A collective that passes its checks spends the read of its block, joins those of its group and lets the slot go on. -/
theorem collIssue_ready {minor : Nat} (h : s.Ready a 8) (hstop : s.collStop a f minor = none) :
    s.collIssue a f minor = ((s.collBlockSpent a f).collJoined (s.collIssued a f minor)
      (s.group (s.collIssued a f minor).group)).advance a 8 := run_ready h hstop ..

/-! ### Collectives that end (R418, R423) -/

theorem firstStop_map_none {α : Type} {g : α → Option Stop} {l : List α} (h : ∀ x ∈ l, g x = none) :
    firstStop (l.map g) = none := by
  induction l with
  | nil => rfl
  | cons x l ih =>
    obtain ⟨hx, hl⟩ := List.forall_mem_cons.mp h
    rw [List.map_cons, hx, firstStop_none, ih hl]

/-- The data of the members of a collective, by rank: this member's source, and what each of the others brought. -/
def State.collData (s : State) (r : CollRun) (gr : CollGroup) (peers : List PeerJoin) (i : Nat) : List Byte :=
  let own := (r.srcRows gr.members.length).flatMap (fun x => s.memBytes x (cbRowBytes r.block))
  if i = gr.rank then own
  else padTo 0 own.length (match peers[if i < gr.rank then i else i - 1]? with | some p => p.data | none => [])

/-- The rank of this member stands for its own source. -/
theorem collData_own (s : State) (r : CollRun) (gr : CollGroup) (peers : List PeerJoin) : s.collData r gr peers gr.rank
    = (r.srcRows gr.members.length).flatMap (fun x => s.memBytes x (cbRowBytes r.block)) := if_pos rfl

section
variable {ctx g : Nat} {r : CollRun} {peers : List PeerJoin} (hold : s.oldestColl ctx g = some r)
include hold

theorem collJoinTimeout_fails : answers (.collJoinTimeout ctx g) s (s.collFail r 0x070A) := by
  refine congrArg Outcome.next ?_
  rw [hold]

theorem collAbortIn_fails : answers (.collAbortIn ctx g) s (s.collFail r 0x070C) := by
  refine congrArg Outcome.next ?_
  rw [hold]

variable (hall : peers.length + 1 = (s.group g).members.length) (hgo : s.collGoes (s.collWho r (s.group g)).die = true)
include hall hgo

/-- Members that do not agree: the collective fails at this one (R418). -/
theorem collComplete_mismatch (hother : ∃ p ∈ peers, PeerJoin.agrees p r = false) :
    answers (.collComplete ctx g peers) s (s.collFail r 0x0709) := by
  have hany : peers.any (fun p => !PeerJoin.agrees p r) = true := by simpa using hother
  refine congrArg Outcome.next ?_
  rw [hold]
  exact (if_neg (by simp [hall, hgo])).trans (if_pos hany)

/-- Members that agree: the engines run the collective on this member's source and what the others brought (R418). -/
theorem collComplete_runs (hsame : ∀ p ∈ peers, PeerJoin.agrees p r = true)
    (hread : ∀ x ∈ r.srcRows (s.group g).members.length, s.checkRange (s.collWho r (s.group g)) false x
      (cbRowBytes r.block) = none ∧ s.heldOver x (cbRowBytes r.block) = false) :
    answers (.collComplete ctx g peers) s (s.collFinish r (s.group g) (s.collData r (s.group g) peers)) := by
  have hnone : peers.any (fun p => !PeerJoin.agrees p r) = false := by simpa using hsame
  have hopen := firstStop_map_none (g := fun x => (s.checkRange (s.collWho r (s.group g)) false x
    (cbRowBytes r.block)).map Stop.access) fun x hx => by rw [(hread x hx).1]; rfl
  have hfree : (r.srcRows (s.group g).members.length).any (fun x => s.heldOver x (cbRowBytes r.block)) = false := by
    simpa using fun x hx => (hread x hx).2
  refine congrArg Outcome.next ?_
  rw [hold]
  refine (if_neg (by simp [hall, hgo])).trans ((if_neg (by simp [hnone])).trans ?_)
  dsimp only
  rw [hopen]
  exact (if_neg (by simp [hfree])).trans rfl

end
end

/-- Settles O30: the issue by `collIssue_ready`, the two failures of the oldest collective, and its completion with members
that agree or not. -/
theorem collectives : Obligations.Collectives := by
  refine ⟨?issue, ?ends⟩
  case issue =>
    intro s a f minor h hminor hstop sl g c
    obtain ⟨hat, hcolls⟩ := collBlockSpent_leaves s a f
    obtain ⟨hjoined, hgroup⟩ := collJoined_adds (s.collBlockSpent a f) (s.collIssued a f minor)
      (s.group (s.collIssued a f minor).group)
    have hexec := (exec_collInstr hminor s a f).trans (congrArg Outcome.next (collIssue_ready h hstop))
    refine ⟨_, s.collIssued a f minor, hexec, hjoined.trans (by rw [hcolls]), rfl, rfl, rfl, rfl, rfl,
      congrArg CollGroup.issued hgroup, ?_⟩
    rw [at_advance]
    exact congrArg (fun v : Slot => v.pc + 8) hat
  case ends =>
    intro s ctx g r peers hold gr
    refine ⟨collJoinTimeout_fails hold, collAbortIn_fails hold, fun hall hgo => ⟨collComplete_mismatch hold hall hgo, ?_⟩⟩
    exact fun hsame hread => ⟨_, collComplete_runs hold hall hgo hsame hread, collData_own ..⟩

end Sys2Proof.Machine

namespace Sys2Proof.Machine
open Host

/-! ### Fences at the word of the runtime (R431, R450) -/

section
variable {s : State}

@[simp] theorem core_setCore_self (s : State) (c : Nat) (v : Core) : (s.setCore c v).core c = v := by
  rw [core_setCore, if_pos rfl]

theorem post_cores (s : State) (e : Ev) : (s.post e).cores = s.cores := by
  obtain ⟨v, hv, -⟩ := post_eq_setEv s e
  rw [hv]
  rfl

@[simp] theorem core_post (s : State) (e : Ev) (c : Nat) : (s.post e).core c = s.core c := by
  rw [State.core, post_cores]
  rfl

@[simp] theorem post_hub (s : State) (e : Ev) : (s.post e).hub = s.hub := by
  obtain ⟨v, hv, -⟩ := post_eq_setEv s e
  rw [hv]
  rfl

/-- A core that was in service is fenced with the reason given. -/
theorem fenceCore_fences {c : Nat} (hin : (s.core c).health.fenced = false) (reason : Nat) :
    ((s.fenceCore c reason).core c).health.fenced = true
      ∧ ((s.fenceCore c reason).core c).health.fenceReason = reason := by
  have hfence : ¬ (s.core c).health.fenced = true := by simp [hin]
  rw [State.fenceCore, if_neg hfence, core_post, core_setCore_self]
  exact ⟨rfl, rfl⟩

/-- The fence of a core in service, in the middle of a test or not. -/
theorem fenceRequest_fences {c : Nat} (hc : c < 192) (hin : (s.core c).health.fenced = false) :
    ((s.fenceRequest c).core c).health.fenced = true ∧ ((s.fenceRequest c).core c).health.fenceReason = 4 := by
  rw [State.fenceRequest, if_neg (by omega)]
  split
  · unfold State.stopTest
    dsimp only
    rw [core_setCore_self]
    exact fenceCore_fences (by rw [core_setCore_self]) 4
  · exact fenceCore_fences hin 4

/-- HUB_FENCE_CMD with its command bits set or clear, for core `c`. -/
theorem fenceCmd_word (c : BitVec 8) : (2 ^ 31 + 2 ^ 30 + c.toNat) % 256 = c.toNat
    ∧ (2 ^ 31 + 2 ^ 30 + c.toNat).testBit 31 = true ∧ (2 ^ 31 + 2 ^ 30 + c.toNat).testBit 30 = true
    ∧ (2 ^ 31 + c.toNat) % 256 = c.toNat ∧ (2 ^ 31 + c.toNat).testBit 31 = true
    ∧ (2 ^ 31 + c.toNat).testBit 30 = false := by
  have hc : c.toNat < 256 := c.isLt
  simp only [Nat.testBit_eq_decide_div_mod_eq, decide_eq_true_eq, decide_eq_false_iff_not]
  omega

/-- HUB_FENCE_CMD as it reads after a write (R431). -/
def State.fenceShown (s : State) (x : Nat) : State := { s with hub := { s.hub with fenceCmd := x } }

theorem coreFenceCmd_requests (hopen : s.fnOpen 0 = true) (c : BitVec 8) :
    answers (.coreFenceCmd c) s ((s.fenceShown (bit true 30 + c.toNat)).fenceRequest c.toNat) := by
  obtain ⟨hlow, h31, h30, -⟩ := fenceCmd_word c
  refine congrArg Outcome.next ((if_pos hopen).trans ?_)
  rw [State.fenceCmd, h31, h30, hlow]
  rfl

theorem coreUnfenceCmd_requests (hopen : s.fnOpen 0 = true) (c : BitVec 8) :
    answers (.coreUnfenceCmd c) s ((s.fenceShown (bit false 30 + c.toNat)).unfence c.toNat) := by
  obtain ⟨-, -, -, hlow, h31, h30⟩ := fenceCmd_word c
  refine congrArg Outcome.next ((if_pos hopen).trans ?_)
  rw [State.fenceCmd, h31, h30, hlow]
  rfl

/-- A fenced core that has passed a test since returns to service. -/
theorem unfence_tested {c : Nat} (hc : c < 192) (hout : (s.core c).health.fenced = true)
    (htest : (s.core c).health.testedSinceFence = true) :
    ((s.unfence c).core c).health.fenced = false ∧ (s.unfence c).hub = s.hub := by
  rw [State.unfence, if_neg (by omega), if_neg (by simp [hout]), if_neg (by simp [htest]), core_post, post_hub,
    core_setCore_self]
  exact ⟨rfl, rfl⟩

/-- One that has not is refused. -/
theorem unfence_untested {c : Nat} (hc : c < 192) (hout : (s.core c).health.fenced = true)
    (htest : (s.core c).health.testedSinceFence = false) :
    s.unfence c = { s with hub := { s.hub with fenceRefused := true } } := by
  rw [State.unfence, if_neg (by omega), if_neg (by simp [hout]), if_pos (by simp [htest])]

/-! ### Self-tests (R446 to R449) -/

/-- The fields of a test descriptor pass the checks of R446, for a test in service. -/
structure TestGood (d : List Byte) : Prop where
  classes : recField d 0 1 < 64
  inService : recField d 1 1 = 0
  flags : recField d 2 1 < 4
  reserved : recField d 3 1 = 0
  first : recField d 4 2 ≤ 191
  order : recField d 4 2 ≤ recField d 6 2
  last : recField d 6 2 ≤ 191
  tail : recField d 8 8 = 0

theorem TestGood.checks {d : List Byte} (h : TestGood d) : firstOf [
    (decide (recField d 0 1 / 64 ≠ 0), 0), (decide (recField d 1 1 > 1), 1), (decide (recField d 2 1 / 4 ≠ 0), 2),
    (decide (recField d 3 1 ≠ 0), 3),
    (decide (recField d 4 2 > 191) || decide (recField d 4 2 > recField d 6 2), 4),
    (decide (recField d 6 2 > 191), 6), (decide (recField d 8 8 ≠ 0), 8)] = none := by
  obtain ⟨hclasses, hservice, hflags, hreserved, hfirst, horder, hlast, htail⟩ := h
  rw [firstOf_eq_none]
  simp [hservice, hreserved, htail]
  omega

/-- A self-test as its command makes it (R446). -/
def State.testAccepted (t : State) (r : Reply) (d : List Byte) : State :=
  ({ t with nextHandle := t.nextHandle + 1 } : State).setTest t.nextHandle
    { live := true, reply := r, desc := d, units := t.testUnits d }

theorem finish_test (s : State) (r : Reply) (status detail result h : Nat) :
    (s.finish r status detail result).test h = s.test h := by
  have hdep : (s.finish r status detail result).dep = s.dep := complete_dep ..
  rw [State.test, hdep]
  rfl

/-- A test of some units in service is accepted and answered with its handle. -/
theorem selftest_begins {t : State} {q : Nat} {r : Reply} {e : Sqe} (h : s.Begins q 0x40 t r e)
    (hidle : s.dep.update = none) (hr : r.fn = 0) {d : List Byte} (hd : t.readDesc e.desc 16 = some d) (hgood : TestGood d)
    (hunits : t.testUnits d ≠ []) : execSelftest q s = .next ((t.testAccepted r d).finish r 0 0 t.nextHandle) := by
  have hsome : (((t.testAccepted r d).finish r 0 0 t.nextHandle).test t.nextHandle).units = t.testUnits d := by
    rw [finish_test]
    exact congrArg SelfTest.units (mapGet_mapSet_self ..)
  have hnow : ¬ (((t.testAccepted r d).finish r 0 0 t.nextHandle).test t.nextHandle).units.isEmpty = true := by
    simpa [hsome] using hunits
  rw [execSelftest, h.runs, pfOnly_pf0 hr, hidle, hd]
  simp only [Option.isSome_none, Bool.false_eq_true, if_false, hgood.checks]
  simp only [hgood.inService, zero_ne_one, decide_false, Bool.false_and, Bool.false_eq_true, if_false]
  exact congrArg Outcome.next (if_neg hnow)

/-- A core whose test has run is out of test, with its result, and empty (R447 step 4). -/
theorem coreTested_shows (s : State) (c : Nat) (pass : Bool) :
    ((s.coreTested c pass).core c).health.underTest = false
      ∧ ((s.coreTested c pass).core c).health.lastTest = (if pass then 1 else 2)
      ∧ ((s.coreTested c pass).core c).buf = [] ∧ ((s.coreTested c pass).core c).acc = [] := by
  cases pass with
  | true => simp [State.coreTested]
  | false => simp [State.coreTested, State.testFailed]

/-- A core that is out of placement for its test, and empty (R447). -/
def State.clearedForTest (s : State) (c : Nat) : State :=
  (s.setCore c { s.core c with health := { (s.core c).health with underTest := true } }).emptyCore c true false

/-- The test of a core that was put under test when it was fenced: it is emptied and tested (R431, R447). -/
theorem coreTest_runs {c : Nat} (hc : c < 192) (hnone : s.testNow = none) (hdue : (s.core c).health.underTest = true)
    (hdie : s.dieUp (c / 24) = true) (hlantern : s.lanternDown (c / 12) = false)
    (hregion : (s.region (c / 12)).resetting = false) (pass : Bool) :
    answers (.coreTest c pass) s ((s.clearedForTest c).coreTested c pass) := by
  refine congrArg Outcome.next ?_
  rw [hnone]
  dsimp only
  exact (if_neg (by simp [hdue, hc])).trans ((if_neg (by simp [hdie])).trans (if_neg (by simp [hlantern, hregion])))

end

/-- Settles O46: `fenceRequest_fences`, the two outcomes of an unfence, the acceptance of a self-test, and what a core shows
after its test (`coreTested_shows`). -/
theorem fencesAndTests : Obligations.FencesAndTests := by
  intro s
  refine ⟨?fences, ?accepts, ?tests, ?window, ?units⟩
  case fences =>
    intro c hopen hc k
    have hunfence := coreUnfenceCmd_requests hopen c
    refine ⟨fun hin => ⟨_, coreFenceCmd_requests hopen c, fenceRequest_fences hc hin⟩, fun hout htest => ?_, fun hout htest => ?_⟩
    · obtain ⟨hback, hhub⟩ := unfence_tested (s := s.fenceShown (bit false 30 + c.toNat)) hc hout htest
      exact ⟨_, hunfence, hback, by rw [hhub]; rfl⟩
    · rw [unfence_untested (s := s.fenceShown (bit false 30 + c.toNat)) hc hout htest] at hunfence
      exact ⟨_, hunfence, hout, rfl⟩
  case accepts =>
    intro q bs d h hidle t r hr hd h0 h1 h2 h3 h4 h46 h6 h8 hunits
    exact selftest_begins (begins_taken h) hidle hr hd ⟨h0, h1, h2, h3, h4, h46, h6, h8⟩ hunits
  case tests =>
    intro c pass hc hnone hdue hdie hlantern hregion
    exact ⟨_, coreTest_runs hc hnone hdue hdie hlantern hregion pass, coreTested_shows _ c pass⟩
  case window =>
    intro c hc
    exact congrArg Outcome.next (if_neg (by omega))
  case units =>
    intro h u pass hnow hidle
    refine congrArg Outcome.next ?_
    rw [hnow]
    exact if_pos (by simp [hidle])

end Sys2Proof.Machine

namespace Sys2Proof.Machine
open Host

/-! ### What a live update keeps (R191, R444) -/

section
variable {s : State} {u : Update}

/-- The dependability state, the security state and the time: what table reloads and events of lanterns leave alone. -/
def State.updateView (s : State) : Depend × Security × Nat := (s.dep, s.sec, s.time)

theorem post_updateView (s : State) (e : Ev) : (s.post e).updateView = s.updateView := by
  obtain ⟨v, hv, -⟩ := post_eq_setEv s e
  rw [hv]
  rfl

theorem lanternEvent_updateView (s : State) (n die code sev detail : Nat) :
    (s.lanternEvent n die code sev detail).updateView = s.updateView := post_updateView ..

theorem tableStart_updateView (s : State) (r n : Nat) : (s.tableStart r n).updateView = s.updateView := by
  induction n generalizing s with
  | zero => rfl
  | succ n ih =>
    unfold State.tableStart
    dsimp only
    split
    · exact (ih _).trans (post_updateView ..)
    · exact foldl_leaves (g := State.updateView) (by intros; rfl) _ _

theorem tableRequest_updateView (s : State) (r : Nat) : (s.tableRequest r).updateView = s.updateView := by
  unfold State.tableRequest
  dsimp only
  split
  · exact tableStart_updateView ..
  · rfl

/-- A core without a resident context has none to clear off. -/
theorem emptyCore_free {c : Nat} (h : ∀ k, (s.slot c k).id.resident = false) (saved tell : Bool) :
    s.emptyCore c saved tell = s := by
  have hclear (k : Nat) : s.clearOff c k saved tell = s := if_pos (by simp [h])
  have hfold : (List.range 4).foldl (fun s k => s.clearOff c k saved tell) s = s :=
    List.foldlRecOn (motive := fun t => t = s) _ _ rfl fun t ht k _ => by rw [ht, hclear]
  unfold State.emptyCore
  dsimp only
  rw [hfold]
  refine List.foldlRecOn (motive := fun t => t = s) _ _ rfl fun t ht sl hsl => ?_
  obtain ⟨k, -, rfl⟩ := List.mem_map.mp hsl
  rw [ht, if_neg (by simp [h])]

/-- A region of empty cores is only held out. -/
theorem emptyRegion_free {r : Nat} (h : ∀ c ∈ coresOf r, s.core c = {}) (saved tell : Bool) :
    s.emptyRegion r saved tell = s.setRegion r { s.region r with resetting := true } := by
  refine List.foldlRecOn (motive := fun t => t = s.setRegion r { s.region r with resetting := true }) _ _ rfl
    fun t ht c hc => ?_
  have hcore : (s.setRegion r { s.region r with resetting := true }).core c = {} := h c hc
  rw [ht]
  refine emptyCore_free (fun k => ?_) saved tell
  rw [State.slot, hcore]
  rfl

/-! ### The steps of a live update (R444, R445) -/

/-- An update whose regions are all switched goes on to the dies. -/
def State.updateNext (s : State) : State :=
  if s.updateRegion.isNone then
    match s.dep.update with
    | some u => s.setDep { s.dep with update := some { u with step := 4 } }
    | none => s
  else s

theorem updateNext_sec (s : State) : s.updateNext.sec = s.sec := by
  unfold State.updateNext
  split
  · split <;> rfl
  · rfl

theorem updateNext_update {v : Update} (h : s.dep.update = some v) :
    ∃ n, s.updateNext.dep.update = some { v with step := n } := by
  unfold State.updateNext
  rw [h]
  split
  · exact ⟨4, rfl⟩
  · exact ⟨v.step, h⟩

/-- The state in which an empty region has its new image. -/
def State.regionSwitched (s : State) (u : Update) (r : Nat) : State :=
  let t := s.setRegion r { s.region r with resetting := false }
  let p := t.switchImage u (r / 2) [r]
  p.1.setDep { s.dep with update := some { p.2 with regions := u.regions ++ [r], since := s.time } }

theorem execRegionFirmwareSwitch_empty {r : Nat} (h : s.dep.update = some u) (hr : s.updateRegion = some r)
    (hreset : (s.region r).resetting = false) (hup : s.lanternDown r = false) (hfree : ∀ c ∈ coresOf r, s.core c = {}) :
    execRegionFirmwareSwitch r s = .next (State.updateNext (State.lanternEvent
      (((s.setRegion r { s.region r with resetting := true }).regionSwitched u r).tableRequest r) r (r / 2) 0x0812 0
      (r / 2 * 2 ^ 59 + r * 2 ^ 55))) := by
  have hempty : (coresOf r).all (fun c => coreEmpty (s.core c)) = true :=
    List.all_eq_true.mpr fun c hc => by rw [hfree c hc]; rfl
  unfold execRegionFirmwareSwitch
  rw [h]
  refine congrArg Outcome.next ((if_neg (by simp [hr, hreset, hup, hempty])).trans ?_)
  rw [emptyRegion_free hfree]
  rfl

theorem regionFirmwareSwitch_switches {r : Nat} (h : s.dep.update = some u) (hr : s.updateRegion = some r)
    (hreset : (s.region r).resetting = false) (hup : s.lanternDown r = false) (hfree : ∀ c ∈ coresOf r, s.core c = {}) :
    ∃ t v, answers (.regionFirmwareSwitch r) s t ∧ t.dep.update = some v
      ∧ v.regions = u.regions ++ [r] ∧ v.slotB = u.slotB ∧ mapGet 0 v.times r = s.time + 1
      ∧ t.running (r / 2) = (s.imgSlot u.slotB).image (dieType (r / 2)) := by
  have hview := (lanternEvent_updateView (State.tableRequest _ r) r (r / 2) 0x0812 0 (r / 2 * 2 ^ 59 + r * 2 ^ 55)).trans
    (tableRequest_updateView ((s.setRegion r { s.region r with resetting := true }).regionSwitched u r) r)
  obtain ⟨n, hn⟩ := updateNext_update ((congrArg (fun x => x.1.update) hview).trans rfl)
  refine ⟨_, _, execRegionFirmwareSwitch_empty h hr hreset hup hfree, hn, rfl, rfl, mapGet_mapSet_self .., ?_⟩
  have hrunning := congrArg (fun x : Depend × Security × Nat => mapGet {} x.2.1.running (r / 2)) hview
  exact (congrArg (fun x : Security => mapGet {} x.running (r / 2)) (updateNext_sec _)).trans
    (hrunning.trans (mapGet_mapSet_self ..))

theorem dieFirmwareSwitch_switches {d : Nat} (h : s.dep.update = some u) (hstep : u.step = 4) (hd : d ∈ s.diesLeft u)
    (hidle : s.dieIdle d = true) (hup : ∀ n ∈ lanternsOf d, s.lanternDown n = false) :
    ∃ t v, answers (.dieFirmwareSwitch d) s t ∧ t.dep.update = some v ∧ v.dies = u.dies ++ [d]
      ∧ t.running d = (s.imgSlot u.slotB).image (dieType d) := by
  unfold answers
  show ∃ t v, execDieFirmwareSwitch d s = _ ∧ _
  unfold execDieFirmwareSwitch
  rw [h]
  have hdone (t : State) (u : Update) : ∃ v, (if (t.diesLeft u).isEmpty then { u with step := 5 } else u) = v
      ∧ v.dies = u.dies := by
    split
    · exact ⟨_, rfl, rfl⟩
    · exact ⟨_, rfl, rfl⟩
  obtain ⟨v, hv, hdies⟩ := hdone (s.switchImage u d (lanternsOf d)).1
    { (s.switchImage u d (lanternsOf d)).2 with dies := u.dies ++ [d] }
  refine ⟨_, v, congrArg Outcome.next (if_neg (by simpa [hstep, hd, hidle] using hup)), ?_, hdies, ?_⟩
  · rw [← hv]
    exact congrArg (fun x : Depend × Security × Nat => x.1.update) (lanternEvent_updateView ..)
  · refine (congrArg (fun x : Depend × Security × Nat => mapGet {} x.2.1.running d) (lanternEvent_updateView ..)).trans ?_
    exact mapGet_mapSet_self ..

theorem hubUpdateRestart_completes (h : s.dep.update = some u) (hstep : u.step = 5) (hhalt : s.ev.halted = false)
    (hjobs : s.jobs = []) (hheld : u.jobs = []) :
    ∃ t, answers .hubUpdateRestart s t ∧ t.dep.update = none ∧ t.hub.updateActive = false ∧ t.sec.activeB = u.slotB
      ∧ t.running 0x12 = (s.imgSlot u.slotB).image 1 := by
  have hrun : answers .hubUpdateRestart s (State.activated
      { s.setRunning 0x12 ((s.imgSlot u.slotB).image 1) with
        dep := { s.dep with update := none }
        hub := { s.hub with updateActive := false } } u.slotB) := by
    show execHubUpdateRestart s = _
    unfold execHubUpdateRestart
    rw [h]
    refine congrArg Outcome.next ((if_neg (by simp [hstep, hhalt])).trans ?_)
    dsimp only
    simp only [hjobs, hheld, List.filter_nil, List.map_nil, List.foldl_nil, List.append_nil]
    rfl
  refine ⟨_, hrun, ?_, congrArg Hub.updateActive (post_hub ..), ?_, ?_⟩
  · exact congrArg (fun x : Depend × Security × Nat => x.1.update) (post_updateView ..)
  · exact congrArg (fun x : Depend × Security × Nat => x.2.1.activeB) (post_updateView ..)
  · refine (congrArg (fun x : Depend × Security × Nat => mapGet {} x.2.1.running 0x12) (post_updateView ..)).trans ?_
    exact mapGet_mapSet_self ..

theorem firmwareRevert_updateBack {n : Nat} (h : s.dep.update = some u) (hn : mapGet 0 u.times n ≠ 0) :
    answers (.firmwareRevert n) s (s.updateBack n) := by
  show execFirmwareRevert n s = _
  unfold execFirmwareRevert
  rw [h]
  exact congrArg Outcome.next (if_neg hn)

theorem updateBack_ends {n : Nat} (h : s.dep.update = some u) (hbefore : u.before = []) (hregions : u.regions = [])
    (hjobs : u.jobs = []) : (s.updateBack n).dep.update = none ∧ (s.updateBack n).hub.updateActive = false := by
  unfold State.updateBack
  rw [h]
  dsimp only
  rw [hbefore, hregions, hjobs]
  exact ⟨congrArg (fun x : Depend × Security × Nat => x.1.update) (lanternEvent_updateView ..), rfl⟩

end

/-- Settles O48: a region, a die and the hub each switch their image on and record it in the update; the way back ends it. -/
theorem liveUpdate : Obligations.LiveUpdate := by
  unfold Obligations.LiveUpdate
  intro s u h
  exact ⟨fun r => regionFirmwareSwitch_switches h, fun d => dieFirmwareSwitch_switches h, hubUpdateRestart_completes h,
    fun n => firmwareRevert_updateBack h,
    fun n hbefore hregions hjobs hn => ⟨_, firmwareRevert_updateBack h hn, updateBack_ends h hbefore hregions hjobs⟩⟩

end Sys2Proof.Machine

namespace Sys2Proof.Machine
open Host

/-! ### What the numbering of events leaves (R453, R489) -/

section
variable {s : State}

/-- The state without what a completion reaches and without the events: what no posting, numbering or delivery reaches. -/
def State.beyondEvents (s : State) : State := { s.beyondHost with ev := {} }

theorem beyondEvents_of_beyondHost {t : State} (h : t.beyondHost = s.beyondHost) : t.beyondEvents = s.beyondEvents :=
  congrArg (fun u : State => { u with ev := {} }) h

theorem post_beyondEvents (s : State) (e : Ev) : (s.post e).beyondEvents = s.beyondEvents := by
  obtain ⟨v, hv, -⟩ := post_eq_setEv s e
  rw [hv]
  rfl

theorem postEachSecond_beyondEvents (s : State) (key : Nat) (e : Ev) :
    (s.postEachSecond key e).beyondEvents = s.beyondEvents := by
  obtain ⟨v, hv⟩ := postEachSecond_eq_setEv s key e
  rw [hv]
  rfl

theorem deliverTo_beyondEvents (s : State) (q : Nat) (e : Ev) : (s.deliverTo q e).beyondEvents = s.beyondEvents := by
  unfold State.deliverTo
  dsimp only
  split
  · exact (beyondEvents_of_beyondHost ((ringTouch_beyondHost ..).trans (write_beyondHost ..))).trans
      (postEachSecond_beyondEvents ..)
  · exact beyondEvents_of_beyondHost (by simp)

theorem logRecord_beyondEvents (s : State) (e : Ev) (journaled : Bool) :
    (s.logRecord e journaled).beyondEvents = s.beyondEvents :=
  foldl_leaves (g := State.beyondEvents) (fun _ _ => deliverTo_beyondEvents ..) _ _

theorem nextSeq_beyondEvents (s : State) : s.nextSeq.beyondEvents = s.beyondEvents := by
  unfold State.nextSeq
  dsimp only
  split
  · rfl
  · exact logRecord_beyondEvents ..

theorem numberEvent_beyondEvents (s : State) (e : Ev) (journaled : Bool) :
    (s.numberEvent e journaled).beyondEvents = s.beyondEvents :=
  (nextSeq_beyondEvents _).trans (logRecord_beyondEvents ..)

theorem numberAll_beyondEvents (s : State) : s.numberAll.beyondEvents = s.beyondEvents := by
  unfold State.numberAll
  split
  · rfl
  · exact foldl_leaves (g := State.beyondEvents) (fun _ _ => numberEvent_beyondEvents ..) _ _

/-! ### The faults of the input and of the environment (R548, R556, R557) -/

theorem post_power (s : State) (e : Ev) : (s.post e).power = s.power := (congrArg State.power (post_beyondEvents s e) :)

/-- An undervoltage caps the limit in force at 1,200 W (R540). -/
theorem limit_undervolt (h : s.power.undervolt = true) : s.limit ≤ 1200 := by
  simp [State.limit, h]

theorem mainDown_power (s : State) : s.mainDown.power = { s.power with
    mainOff := true, tensor := 32, other := 32, idle := false, overMs := 0, underMs := 0, clearMs := 1000, throttleMs := 0
    host := 0x0CE4, hostWaits := none } :=
  (congrArg (fun u : State => u.afterMainLoss.power) (numberAll_beyondEvents s) :)

theorem mainDown_safeMode (s : State) : s.mainDown.dep.safeMode = s.dep.safeMode :=
  (congrArg (fun u : State => u.dep.safeMode) (numberAll_beyondEvents s) :)

theorem inputReversed_reports {x : Int} (hx : x < 0) (hstandby : s.power.standbyOff = false) :
    ∃ t, answers (.inputReversed x) s t ∧ t.power.reversed = true ∧ t.power.volts = x :=
  ⟨_, congrArg Outcome.next (if_neg (by simp [hx, hstandby])), congrArg Power.reversed (post_power ..),
    congrArg Power.volts (post_power ..)⟩

theorem inputUndervolt_caps {x : Int} (hx : x < 4000) (hup : s.railsUp = true) (hfirst : s.power.undervolt = false) :
    ∃ t, answers (.inputUndervolt x) s t ∧ t.power.undervolt = true ∧ t.power.term = 1200 ∧ t.limit ≤ 1200 := by
  have hunder := congrArg Power.undervolt (post_power (s.setPower { s.power with
    undervolt := true, term := 1200, coolMs := 0, volts := x }) (powerEv 0x0A0A 1 x 0x13 0))
  exact ⟨_, congrArg Outcome.next ((if_neg (by simp [hx, hup])).trans (if_neg (by simp [hfirst]))), hunder,
    congrArg Power.term (post_power ..), limit_undervolt hunder⟩

theorem standbyLost_stops (hstandby : s.power.standbyOff = false) :
    ∃ t, answers .standbyLost s t ∧ t.power.standbyOff = true ∧ t.hub = {} ∧ t.mem = {} :=
  ⟨_, congrArg Outcome.next (if_neg (by simp [hstandby])), rfl, rfl, rfl⟩

theorem dimmSupplyFault_loses {socket mA : Nat} (hsocket : socket < 8) (hvariant : s.variant ≠ .tbx20d)
    (hfuse : socket ∉ s.power.fuses) (hup : s.railsUp = true) :
    ∃ t, answers (.dimmSupplyFault socket mA) s t ∧ t.ddrBytes = 0 ∧ t.host.active2 = false := by
  refine ⟨_, congrArg Outcome.next (if_neg (by simp [hsocket, hvariant, hfuse, hup])), ?_, ?_⟩
  · exact congrArg State.ddrBytes (post_beyondEvents ..)
  · obtain ⟨v, hv, -⟩ := post_eq_setEv ((s.setPower { s.power with fuses := s.power.fuses ++ [socket] }).loseDdr false)
      (powerEv 0x0A0D 2 mA (0x10 + socket / 4) socket)
    exact congrArg (fun t : State => t.host.active2) hv

end

/-- Settles O51: each fault of the input or the environment does what its branch says, and the loss of the main rails keeps
what `mainDown_power` lists. -/
theorem inputFaults : Obligations.InputFaults := by
  unfold Obligations.InputFaults
  intro s x
  refine ⟨inputReversed_reports, inputUndervolt_caps, fun hx hup => ?lost, fun hx hstandby => ?overvolt,
    fun hx hup => ?trip, ⟨rfl, ?off, ?mgmt, mainDown_safeMode s, rfl, rfl⟩, fun hlow hhigh hstandby hmain => ?recovered,
    standbyLost_stops, fun socket mA => dimmSupplyFault_loses, fun n hrun => congrArg Outcome.next (if_pos hrun),
    fun d r hstandby => ?hubPll, fun d r hr hdie hup => ?regionPll⟩
  case lost => exact congrArg Outcome.next (if_neg (by simp [hx, hup]))
  case overvolt => exact congrArg Outcome.next (if_neg (by simp [hx, hstandby]))
  case trip => exact congrArg Outcome.next (if_neg (by simp [hx, hup]))
  case off => exact congrArg Power.mainOff (mainDown_power s)
  case mgmt => exact (congrArg Power.mgmt (mainDown_power s) :)
  case recovered =>
    show execInputRecovered x s = _
    unfold execInputRecovered
    refine congrArg Outcome.next ((if_neg ?_).trans (if_neg (Bool.eq_false_iff.mp hmain)))
    simp [hlow, hhigh, hstandby]
  case hubPll =>
    exact congrArg Outcome.next ((if_neg (by decide)).trans ((if_pos rfl).trans (if_neg (Bool.eq_false_iff.mp hstandby))))
  case regionPll =>
    exact congrArg Outcome.next ((if_pos rfl).trans (if_neg (by simp [hr, hdie, hup])))

end Sys2Proof.Machine

namespace Sys2Proof.Machine
open Host

/-! ### The phases of start-up (R551, R554, R555) -/

section
variable {s : State}

theorem post_boot (s : State) (e : Ev) : (s.post e).boot = s.boot := by
  obtain ⟨v, hv, -⟩ := post_eq_setEv s e
  rw [hv]
  rfl

@[simp] theorem phaseDone_complete (s : State) (n : Nat) : (s.complete_ n).phaseDone n = true := by
  simp [State.complete_, State.phaseDone]

theorem wardenStart_completes (hstandby : s.power.standbyOff = false) (hphase : s.phaseDone 0 = false)
    (hvalid : (s.imgFails (imgParts s.sec.warden).1 (imgParts s.sec.warden).2).isNone = true) :
    answers .wardenStart s ((s.setRunning 0x13 (imgOfHeader (imgParts s.sec.warden).1 0)).complete_ 0) := by
  have hpower : (if s.power.standbyOff then s.coldReset else s) = s := if_neg (by simp [hstandby])
  show execWardenStart s = _
  unfold execWardenStart
  rw [hpower]
  refine congrArg Outcome.next ((if_neg (by simp [hphase])).trans ?_)
  dsimp only
  rw [if_pos hvalid]
  exact if_pos hvalid

theorem slotVerify_boots (hwarden : s.wardenRuns = true) (hup : s.railsUp = true) (hphase : s.phaseDone 2 = false)
    (hkilled : s.sec.killed = false) (hvalid : s.slotValid s.sec.activeB = true) :
    answers .slotVerify s ((s.bootFrom s.sec.activeB).numberEarly.complete_ 2) := by
  show execSlotVerify s = _
  unfold execSlotVerify
  refine congrArg Outcome.next ((if_neg (by simp [hwarden, hup, hphase])).trans ?_)
  dsimp only
  rw [if_neg (Bool.eq_false_iff.mp hkilled), if_pos hvalid]

theorem cxlReady_completes {m : Bool} {w v : Nat} (hrun : s.hub.running = true) (hperst : s.host.perst = false)
    (hretry : s.host.retry = true) (hup : s.railsUp = true) (hrecovery : s.boot.recovery = false) :
    answers (.cxlReady m w v) s
      ((s.setHost { s.host with retry := false, cxlMode := m, width := w, speed := v }).complete_ 3) :=
  congrArg Outcome.next ((if_neg (by simp [hrun, hperst, hretry, hup])).trans (if_neg (Bool.eq_false_iff.mp hrecovery)))

/-- With every stack and channel good, both tiers serve. -/
theorem memoryTrain_completes (hstart : s.starting = true) (hphase2 : s.phaseDone 2 = true) (hphase4 : s.phaseDone 4 = false)
    (hwarm : s.boot.warm = false) (hddr : s.ddrTrains = true) :
    answers (.memoryTrain { badStacks := [], badChannels := [] }) s ((((s.setPower { s.power with trainFailed := [] }
      ).setHost { s.host with active1 := true }).setHost { s.host with active1 := true, active2 := true }).complete_ 4) := by
  have htrains : ((s.setPower { s.power with trainFailed := [] }).setHost { s.host with active1 := true }).ddrTrains = true := by
    unfold State.ddrTrains at hddr ⊢
    simp only [Bool.and_eq_true] at hddr ⊢
    obtain ⟨⟨hdies, -⟩, hbytes⟩ := hddr
    exact ⟨⟨hdies, rfl⟩, hbytes⟩
  show execMemoryTrain _ s = _
  unfold execMemoryTrain
  refine congrArg Outcome.next ((if_neg (by simp [hstart, hphase2, hphase4])).trans ((if_neg (by simp)).trans ?_))
  dsimp only
  rw [if_neg (Bool.eq_false_iff.mp hwarm)]
  exact congrArg (State.complete_ · 4) (if_pos htrains)

/-- A stack that fails its training stops start-up before the phase completes. -/
theorem memoryTrain_stops (hstart : s.starting = true) (hphase2 : s.phaseDone 2 = true) (hphase4 : s.phaseDone 4 = false) :
    ∃ t, answers (.memoryTrain { badStacks := [3], badChannels := [] }) s t ∧ t.boot.stopped = true
      ∧ t.boot.done = s.boot.done := by
  refine ⟨_, congrArg Outcome.next ((if_neg (by simp [hstart, hphase2, hphase4])).trans (if_pos (by simp))), rfl, ?_⟩
  exact (congrArg Boot.done (post_boot s (powerEv 0x0A10 3 3 1 0)) :)

/-! ### The start-up tests of the cores (R433, R554) -/

/-- What the start-up test of core `c` shows when it passes. -/
def State.startPassed (s t : State) (c : Nat) : Prop :=
  (t.core c).health.lastTest = 1 ∧ (t.core c).health.underTest = false ∧ (t.core c).health.fenced = (s.core c).health.fenced

theorem startCore_passes (s : State) (c : Nat) : s.startPassed (s.startCore c true) c := by
  unfold State.startPassed State.startCore
  simp [core_setCore_self]

theorem startCore_fenced (s : State) (c d : Nat) :
    ((s.startCore c true).core d).health.fenced = (s.core d).health.fenced := by
  by_cases h : d = c
  · rw [h]
    exact (startCore_passes s c).2.2
  · exact congrArg (fun k : Core => k.health.fenced) (mapGet_mapSet_ne _ _ h)

/-- The test of a core after it takes nothing back from one that has passed. -/
theorem State.startPassed.startCore {t : State} {c : Nat} (h : s.startPassed t c) (d : Nat) :
    s.startPassed (t.startCore d true) c := by
  by_cases hc : c = d
  · subst hc
    obtain ⟨hlast, hunder, hfenced⟩ := startCore_passes t c
    exact ⟨hlast, hunder, hfenced.trans h.2.2⟩
  · have hcore : (t.startCore d true).core c = t.core c := mapGet_mapSet_ne _ _ hc
    unfold State.startPassed
    rwa [hcore]

theorem State.startPassed.complete {t : State} {c : Nat} (h : s.startPassed t c) (n : Nat) : s.startPassed (t.complete_ n) c := h

theorem startCores_pass (l : List Nat) (s : State) {c : Nat} (hc : c ∈ l) :
    s.startPassed (l.foldl (fun s c => s.startCore c true) s) c := by
  induction l generalizing s with
  | nil => cases hc
  | cons d l ih =>
    obtain rfl | hc := List.mem_cons.mp hc
    · exact List.foldlRecOn (motive := fun t => s.startPassed t c) l _ (startCore_passes s c) fun t ht d _ => ht.startCore d
    · obtain ⟨hlast, hunder, hfenced⟩ := ih (s.startCore d true) hc
      exact ⟨hlast, hunder, hfenced.trans (startCore_fenced s d c)⟩

theorem exec_startupSelftest (badCores badDies : List Nat) (s : State) :
    exec (.startupSelftest badCores badDies) s = execStartupSelftest badCores badDies s := rfl

theorem startupSelftest_passes (hstart : s.starting = true) (hphase4 : s.phaseDone 4 = true) (hphase5 : s.phaseDone 5 = false) :
    ∃ t, answers (.startupSelftest [] []) s t ∧ t.phaseDone 5 = true ∧ ∀ c < 192, s.startPassed t c := by
  refine ⟨((List.range 192).foldl (fun s c => s.startCore c true) s).complete_ 5, ?_, phaseDone_complete .., fun c hc => ?_⟩
  · have hguard : ¬ (!s.starting || !s.phaseDone 4 || s.phaseDone 5) = true := by simp [hstart, hphase4, hphase5]
    rw [answers, exec_startupSelftest, execStartupSelftest, if_neg hguard]
    simp only [List.contains_nil, Bool.not_false, Bool.and_self, List.filter_nil, List.foldl_nil]
  · exact (startCores_pass (List.range 192) s (List.mem_range.mpr hc)).complete 5

/-- Links that are up, unused or without a cable keep their state. -/
theorem startupLinkTrain_completes (hstart : s.starting = true) (hphase2 : s.phaseDone 2 = true)
    (hphase6 : s.phaseDone 6 = false)
    (hlinks : ∀ e ∈ s.levee.links, e.2.enable = true → e.2.cable = true → e.2.state ≠ 1 ∧ e.2.state ≠ 2) :
    answers .startupLinkTrain s (s.complete_ 6) := by
  refine congrArg Outcome.next ((if_neg (by simp [hstart, hphase2, hphase6])).trans (congrArg (State.complete_ · 6) ?_))
  refine List.foldlRecOn (motive := fun t => t = s) _ _ rfl fun t ht e he => (if_neg fun hcond => ?_).trans ht
  simp only [Bool.and_eq_true, Bool.or_eq_true, decide_eq_true_eq] at hcond
  obtain ⟨⟨⟨-, henable⟩, hcable⟩, hstate⟩ := hcond
  exact hstate.elim (hlinks e he henable hcable).1 (hlinks e he henable hcable).2

theorem jobManagerOpen_opens (hstart : s.starting = true) (hphases : phaseOf s.boot.done = 7) :
    ∃ t, answers .jobManagerOpen s t ∧ t.hub.jobOpen = true ∧ t.phaseDone 7 = true := by
  refine ⟨_, congrArg Outcome.next (if_neg (by simp [hstart, hphases])), ?_, ?_⟩
  · exact congrArg Hub.jobOpen (post_hub ..)
  · rw [State.phaseDone, post_boot]
    exact phaseDone_complete ..

end

/-- Settles O53: each phase completes once what it waits for is there, and the failed stack stops the fourth. -/
theorem startUp : Obligations.StartUp := by
  unfold Obligations.StartUp
  intro s
  refine ⟨wardenStart_completes, fun hwarden hphase hmain hreversed => ?rails, slotVerify_boots,
    fun m w v => cxlReady_completes, fun hstart hphase2 hphase4 => ⟨memoryTrain_completes hstart hphase2 hphase4,
      memoryTrain_stops hstart hphase2 hphase4⟩, startupSelftest_passes, startupLinkTrain_completes, jobManagerOpen_opens⟩
  case rails => exact congrArg Outcome.next (if_neg (by simp [hwarden, hphase, hmain, hreversed]))

end Sys2Proof.Machine

namespace Sys2Proof.Machine
open Host

/-! ### Security requests on the management port (R515, R525, R531) -/

section
variable {s : State}

/-- The hub runs, and the warden takes every request of the management port: no restart of its pair, no safe mode and no
recovery ROM keeps one back. -/
def State.mgmtOpen (s : State) : Prop :=
  s.hub.running = true ∧ s.wardenRuns = true ∧ s.dep.safeMode = false ∧ s.boot.recovery = false

/-- On an open management port the table permits every request. -/
theorem secRequest_mgmt (h : s.mgmtOpen) (op : Nat) (body : List Byte) (act : State → State) :
    s.secRequest .mgmt op body act = act s := by
  obtain ⟨hrun, hwarden, hsafe, hrecovery⟩ := h
  have hreach : s.reachesHub .mgmt op body = true := by simp [State.reachesHub, hrun, hwarden]
  have hpermit : s.permits .mgmt op = true := by simp [State.permits, hsafe, hrecovery]
  unfold State.secRequest
  rw [hreach, hpermit]
  rfl

/-- A virtual function may issue no security request: it is counted and answered with 0x01. -/
theorem secRequest_vf (hrun : s.hub.running = true) (k op : Nat) (body : List Byte) (act : State → State) :
    s.secRequest (.vf k) op body act = (s.refuse (.vf k) op).reply (.vf k) 0x01 [] := by
  have hreach : s.reachesHub (.vf k) op body = true := by simp [State.reachesHub, hrun]
  unfold State.secRequest
  rw [hreach]
  rfl

@[simp] theorem reply_answers (s : State) (p : Port) (result : Nat) (rsp : List Byte) :
    mapGet {} (s.reply p result rsp).sec.answers (portNum p) = { result := result, rsp := rsp } := mapGet_mapSet_self ..

@[simp] theorem post_sec (s : State) (e : Ev) : (s.post e).sec = s.sec := (congrArg State.sec (post_beyondEvents s e) :)

@[simp] theorem secEvent_sec (s : State) (code sev detail : Nat) : (s.secEvent code sev detail).sec = s.sec := post_sec ..

theorem refuse_mem (s : State) (p : Port) (value : Nat) : (s.refuse p value).mem = s.mem := by
  obtain ⟨v, hv⟩ := postEachSecond_eq_setEv { s with
    refusals := mapSet 0 s.refusals (portNum p) (satAdd 32 (mapGet 0 s.refusals (portNum p)) 1) } (0x0906 * 4096 + portNum p)
    { code := 0x0906, sev := 1, die := 0x12, cls := 7, detail := portDetail p + value % 2 ^ 32 }
  exact (congrArg State.mem hv :)

theorem refuse_cores (s : State) (p : Port) (value : Nat) : (s.refuse p value).cores = s.cores :=
  (congrArg State.cores (postEachSecond_beyondEvents ..) :)

theorem attest_reports (h : s.mgmtOpen) {nonce : List Byte} (hlen : nonce.length = 32) :
    answers (.attest .mgmt nonce) s (s.reply .mgmt 0 (s.report nonce)) :=
  congrArg Outcome.next ((secRequest_mgmt h ..).trans (if_neg (by simp [hlen])))

/-- A measurement request answers what the die reports of its image (R530). -/
theorem spdmRequest_measures (h : s.mgmtOpen) {i : Nat} (nonce : List Byte) (hlow : 1 ≤ i) (hhigh : i ≤ 20)
    (hfits : s.variant.fits (i - 1) = true) : ∃ t, answers (.spdmRequest .mgmt (.measurement i nonce)) s t
      ∧ mapGet {} t.sec.answers (spdmPort .mgmt) = { result := 0, rsp := padTo 0 64 (s.running (i - 1)).measurement } := by
  obtain ⟨hrun, hwarden, -, -⟩ := h
  refine ⟨_, congrArg Outcome.next ((if_neg (by simp [hrun])).trans ((if_neg (by simp [hwarden])).trans
    ((if_neg (by omega)).trans (if_pos (by simp [hlow, hhigh]))))), ?_⟩
  refine (mapGet_mapSet_self ..).trans ?_
  rw [if_pos hfits]

theorem slotWrite_writes (h : s.mgmtOpen) {b : Bool} (off : Nat) {data : List Byte} (hlen : data.length ≤ 4080)
    (hb : b ≠ s.sec.activeB) : answers (.slotWrite .mgmt b off data) s
      ((s.setSlotB b { bytes := mapPut 0 (s.imgSlot b).bytes off data, writing := true }).reply .mgmt 0 []) :=
  congrArg Outcome.next ((secRequest_mgmt h ..).trans ((if_neg (by omega)).trans (if_neg hb)))

/-- The slot in use is not written (R526). -/
theorem slotWrite_active (h : s.mgmtOpen) (off : Nat) {data : List Byte} (hlen : data.length ≤ 4080) :
    answers (.slotWrite .mgmt s.sec.activeB off data) s (s.reply .mgmt 0x06 []) :=
  congrArg Outcome.next ((secRequest_mgmt h ..).trans ((if_neg (by omega)).trans (if_pos rfl)))

theorem activate_records (h : s.mgmtOpen) (b : Bool) (wait : Nat) (hkilled : s.sec.killed = false)
    (hupdate : s.dep.update = none) (hvalid : s.setFails (s.imgSlot b) = none) : answers (.activate .mgmt b false wait) s
      (((s.setSlotB b { s.imgSlot b with writing := false }).activated b).reply .mgmt 0 []) := by
  refine congrArg Outcome.next ((secRequest_mgmt h ..).trans ?_)
  dsimp only
  rw [if_neg (Bool.eq_false_iff.mp hkilled), if_neg (by simp [hupdate]), hvalid]
  exact if_neg (by simp)

/-- The state that SVN_COMMIT leaves. -/
def State.svnCounted (s : State) : State :=
  let svn := (s.imgSlot s.sec.activeB).svn
  let n := max s.sec.counter (min svn 64)
  let t := (s.setSec { s.sec with counter := n }).secEvent 0x0904 0 (portDetail .mgmt + secDetail 0 0 0 n)
  (if n < svn then t.secEvent 0x0905 1 (portDetail .mgmt + secDetail 0 0 0 svn) else t).reply .mgmt 0 (toBytes 1 n)

theorem svnCounted_counter (s : State) :
    s.svnCounted.sec.counter = max s.sec.counter (min (s.imgSlot s.sec.activeB).svn 64) := by
  unfold State.svnCounted
  dsimp only
  split <;> simp [State.reply, State.setSec]

/-- The rollback counter rises to the svn of the active slot, to 64 at most (R528). -/
theorem svnCommit_counts (h : s.mgmtOpen) (hupdate : s.dep.update = none) : ∃ t, answers (.svnCommit .mgmt) s t
    ∧ t.sec.counter = max s.sec.counter (min (s.imgSlot s.sec.activeB).svn 64)
    ∧ mapGet {} t.sec.answers (portNum .mgmt) = { result := 0, rsp := toBytes 1 t.sec.counter } := by
  refine ⟨s.svnCounted, congrArg Outcome.next ((secRequest_mgmt h ..).trans (if_neg (by simp [hupdate]))),
    svnCounted_counter s, (reply_answers ..).trans ?_⟩
  rw [svnCounted_counter]

theorem debugChallenge_gives (h : s.mgmtOpen) : ∃ t c, answers (.debugChallenge .mgmt) s t
    ∧ t.sec.challenge = some (c, s.time) ∧ c.length = 16
    ∧ mapGet {} t.sec.answers (portNum .mgmt) = { result := 0, rsp := toBytes 8 Config.serial ++ c } :=
  ⟨_, _, congrArg Outcome.next (secRequest_mgmt h ..), rfl, by simp, reply_answers ..⟩

theorem decommission_ends (h : s.mgmtOpen) (hjobs : s.jobs = []) :
    answers (.decommission .mgmt false) s (s.decommission.reply .mgmt 0 []) := by
  refine congrArg Outcome.next ((secRequest_mgmt h ..).trans ((if_neg (by simp [State.contextsExist, hjobs])).trans ?_))
  rw [hjobs]
  rfl

/-! ### Debug unlocks and JTAG (R531 to R533) -/

/-- A good token of level 1 unlocks, whatever contexts there are, and uses up the challenge. -/
theorem debugUnlock_unlocks (h : s.mgmtOpen) {token : List Byte} (hlen : token.length = 154) (hgood : s.tokenBad token = false)
    (hlevel : tkLevel token = 1) : ∃ t, answers (.debugUnlock .mgmt token) s t ∧ t.sec.challenge = none
      ∧ t.sec.unlock = some { level := 1, mask := tkMask token, lifetime := tkLife token }
      ∧ mapGet {} t.sec.answers (portNum .mgmt) = { result := 0, rsp := [] } := by
  refine ⟨_, congrArg Outcome.next ((secRequest_mgmt h ..).trans ((if_neg (by simp [hlen])).trans
    ((if_neg (by simp [hgood])).trans (if_neg (by simp [hlevel]))))),
    (congrArg Security.challenge (secEvent_sec ..) :), ?_, reply_answers ..⟩
  refine (congrArg Security.unlock (secEvent_sec ..) :).trans ?_
  exact congrArg (fun n => some { level := n, mask := tkMask token, lifetime := tkLife token : Unlock }) hlevel

theorem debugUnlock_contexts (h : s.mgmtOpen) {token : List Byte} (hlen : token.length = 154)
    (hgood : s.tokenBad token = false) (hlevel : tkLevel token = 2) (hcontexts : s.contextsExist = true)
    (hforce : tkForce token = false) : answers (.debugUnlock .mgmt token) s (s.reply .mgmt 0x07 []) :=
  congrArg Outcome.next ((secRequest_mgmt h ..).trans ((if_neg (by simp [hlen])).trans
    ((if_neg (by simp [hgood])).trans (if_pos (by simp [hlevel, hcontexts, hforce])))))

theorem debugUnlockExpiry_locks {u : Unlock} (hunlock : s.sec.unlock = some u) : answers .debugUnlockExpiry s
    ((s.setSec { s.sec with unlock := none, halted := [] }).secEvent 0x0907 1
      (portDetail .jtag + secDetail 0 0 2 u.level)) := by
  show execDebugUnlockExpiry s = _
  unfold execDebugUnlockExpiry
  rw [hunlock]

/-- Within the unlock JTAG carries out what it is asked. -/
theorem jtagAccess_open (hrun : s.hub.running = true) {u : Unlock} (hunlock : s.sec.unlock = some u) {die : Nat}
    (hdie : die < 20) (hmask : u.mask.testBit die = true) (addr : Word) :
    (1 ≤ u.level → answers (.jtagAccess die .readReg addr none) s
        (s.reply .jtag 0 (toBytes 4 (s.spaceWord die (addr.toNat % 2 ^ 32 / 4 * 4)))))
      ∧ (2 ≤ u.level → answers (.jtagAccess die .halt addr none) s
        ((s.setSec { s.sec with halted := mapSet false s.sec.halted die true }).reply .jtag 0 [])) :=
  ⟨fun hlevel => congrArg Outcome.next ((if_neg (by simp [hrun])).trans
      (if_neg (by simp [hunlock, hdie, hmask, jtagLevel, hlevel]))),
    fun hlevel => congrArg Outcome.next ((if_neg (by simp [hrun])).trans
      (if_neg (by simp [hunlock, hdie, hmask, jtagLevel, hlevel])))⟩

/-- Without an unlock JTAG reaches nothing. -/
theorem jtagAccess_locked (hrun : s.hub.running = true) (hunlock : s.sec.unlock = none) (die : Nat) (kind : JtagKind)
    (addr : Word) (data : Option Word) : ∃ t, answers (.jtagAccess die kind addr data) s t ∧ t.mem = s.mem
      ∧ t.cores = s.cores ∧ mapGet {} t.sec.answers (portNum .jtag) = { result := 1, rsp := [] } :=
  ⟨_, congrArg Outcome.next ((if_neg (by simp [hrun])).trans (if_pos (by simp [hunlock]))), refuse_mem .., refuse_cores ..,
    reply_answers ..⟩

end

/-- Settles O52: `secRequest_mgmt` opens every request of the management port, and the unlock bounds what debug reaches. -/
theorem securityAndDebug : Obligations.SecurityAndDebug := by
  unfold Obligations.SecurityAndDebug
  refine ⟨fun s hrun hwarden hsafe hrecovery => ?requests, fun s => ⟨fun token hrun hwarden hsafe hrecovery hlen hgood => ?token,
    fun u => debugUnlockExpiry_locks, fun u die addr hrun hunlock hdie hmask => jtagAccess_open hrun hunlock hdie hmask addr,
    fun die kind addr data hrun hunlock => jtagAccess_locked hrun hunlock die kind addr data⟩⟩
  case requests =>
    have h : s.mgmtOpen := ⟨hrun, hwarden, hsafe, hrecovery⟩
    exact ⟨congrArg Outcome.next (secRequest_mgmt h ..), fun nonce => attest_reports h,
      fun i nonce => spdmRequest_measures h nonce, congrArg Outcome.next (secRequest_mgmt h ..),
      ⟨_, congrArg Outcome.next (secRequest_mgmt h ..), rfl, reply_answers ..⟩, fun b off data => slotWrite_writes h off,
      fun off data => slotWrite_active h off, fun b wait => activate_records h b wait, svnCommit_counts h,
      debugChallenge_gives h, decommission_ends h,
      fun k _ _ => congrArg Outcome.next (secRequest_vf hrun ..)⟩
  case token =>
    have h : s.mgmtOpen := ⟨hrun, hwarden, hsafe, hrecovery⟩
    exact ⟨debugUnlock_unlocks h hlen hgood, debugUnlock_contexts h hlen hgood⟩

end Sys2Proof.Machine

namespace Sys2Proof.Machine
open Host

/-! ### Host accesses within one extent (R468 to R472) -/

section
variable {s : State} {path : HostPath} {fn a x len : Nat} {g : Word}

theorem blocksOf_within (hlen : 0 < len) (hfirst : a / extentBytes = x) (hlast : (a + len - 1) / extentBytes = x) :
    blocksOf extentBytes a len = [x] := by
  simp [blocksOf, hfirst, hlast, Nat.pos_iff_ne_zero.mp hlen]

theorem extentPieces_within (hlen : 0 < len) (hfirst : a / extentBytes = x) (hlast : (a + len - 1) / extentBytes = x) :
    extentPieces a len = [(a, len)] := by
  have hlo : max a (x * extentBytes) = a := by simp only [extentBytes] at *; omega
  have hhi : min (a + len) ((x + 1) * extentBytes) - a = len := by simp only [extentBytes] at *; omega
  simp only [extentPieces, blocksOf_within hlen hfirst hlast, List.map_cons, List.map_nil, hlo, hhi]

theorem autoFlip_off (hflip : s.host.autoFlip = false) (path : HostPath) (x : Nat) : s.autoFlip path x = s :=
  if_neg (by simp [hflip])

@[simp] theorem hostCharge_mem (s : State) (write : Bool) (a n : Nat) : (s.hostCharge write a n).mem = s.mem :=
  (charge_leaves ..).1

theorem hostCharge_placing (s : State) (write : Bool) (a n : Nat) : (s.hostCharge write a n).placing = s.placing := by
  obtain ⟨hmem, hhost⟩ := charge_leaves s (s.objOf (a / extentBytes)).polder (addUse (s.usesOf hubWho write a n) 0x34 n)
  unfold State.placing State.hostCharge
  rw [hmem, hhost]

/-- A write that stays within an extent that is not moving is one store. -/
theorem write_within {ctx : Nat} {bs : List Byte} (hlen : 0 < bs.length) (hfirst : a / extentBytes = x)
    (hlast : (a + bs.length - 1) / extentBytes = x) (hstill : (s.home x).state ≠ 3) :
    s.write ctx a bs = s.store ctx a bs := by
  have hlo : max a (x * extentBytes) = a := by simp only [extentBytes] at *; omega
  have hpiece : (bs.drop (a - a)).take ((x + 1) * extentBytes - a) = bs := by
    rw [Nat.sub_self, List.drop_zero]
    exact List.take_of_length_le (by simp only [extentBytes] at *; omega)
  unfold State.write
  rw [blocksOf_within hlen hfirst hlast]
  simp only [List.foldl_cons, List.foldl_nil, hlo, hpiece]
  exact if_neg (by simp [hstill])

/-- What a host access meets that its address and the link let through, within one extent `x`. -/
structure State.HostGoes (s : State) (path : HostPath) (fn a x len : Nat) (g : Word) : Prop where
  name : s.hostName path fn g.toNat = some a
  link : s.host.speed ≠ 0
  ready : s.hostWaits a len = false
  pos : 0 < len
  first : a / extentBytes = x
  last : (a + len - 1) / extentBytes = x
  noFlip : s.host.autoFlip = false

/-- A read within one extent answers what its one part reads. -/
theorem hostMemRead_part (h : s.HostGoes path fn a x len g) : answers (.hostMemRead path fn g len) s
    ((s.hostReadPart path fn a len).1.setHost { (s.hostReadPart path fn a len).1.host with
      data := (s.hostReadPart path fn a len).2.1, poisoned := (s.hostReadPart path fn a len).2.2 }) := by
  show execHostMemRead path fn g len s = _
  unfold execHostMemRead
  rw [h.name]
  refine congrArg Outcome.next ((if_neg (by simp [h.link, h.ready])).trans ?_)
  rw [extentPieces_within h.pos h.first h.last]
  simp

theorem hostMemRead_refused (h : s.HostGoes path fn a x len g) {r : Nat} (hr : s.hostRefusal false a = some r) :
    ∃ t, answers (.hostMemRead path fn g len) s t ∧ t.host.data = List.replicate len 0xFF
      ∧ t.host.poisoned = decide (r ≠ 2) := by
  have hpart : s.hostReadPart path fn a len
      = (s.hostRefused (pathNum path) r fn a, List.replicate len 0xFF, decide (r ≠ 2)) := by
    unfold State.hostReadPart
    rw [hr]
  refine ⟨_, hostMemRead_part h, ?_⟩
  rw [hpart]
  exact ⟨rfl, rfl⟩

theorem hostMemRead_serves (h : s.HostGoes path fn a x len g) (hr : s.hostRefusal false a = none) (hlog : x ≠ logFrame)
    (hzero : (s.home x).state ≠ 1) (hdie : s.dieFail a len = none) :
    ∃ t, answers (.hostMemRead path fn g len) s t ∧ t.host.data = s.memBytes a len
      ∧ t.host.poisoned = (s.poisonIn a len).isSome ∧ t.mem = s.mem := by
  have hpart : s.hostReadPart path fn a len
      = (s.hostCharge false a len, s.memBytes a len, (s.poisonIn a len).isSome) := by
    unfold State.hostReadPart
    rw [hr, h.first]
    dsimp only
    rw [if_neg hlog, if_neg hzero, hdie, autoFlip_off h.noFlip]
  refine ⟨_, hostMemRead_part h, ?_⟩
  rw [hpart]
  exact ⟨rfl, rfl, hostCharge_mem ..⟩

theorem hostMemWrite_stores {bs : List Byte} (h : s.HostGoes path fn a x bs.length g) (hr : s.hostRefusal true a = none)
    (hdie : s.dieFail a bs.length = none) (hstill : (s.home x).state ≠ 3) :
    ∃ t, answers (.hostMemWrite path fn g bs) s t ∧ t.mem.bytes = mapPut 0 s.mem.bytes (s.keyOf a) bs := by
  have hpart : s.hostWritePart path fn a bs
      = (s.hostCharge true a bs.length).store (hostMark (pathNum path) fn) a bs := by
    unfold State.hostWritePart
    rw [hr, hdie, autoFlip_off h.noFlip]
    exact (if_neg (by simp)).trans (write_within h.pos h.first h.last (by
      rwa [State.home, hostCharge_mem]))
  have hrun : answers (.hostMemWrite path fn g bs) s (s.hostWritePart path fn a bs) := by
    show execHostMemWrite path fn g bs s = _
    unfold execHostMemWrite
    rw [h.name]
    refine congrArg Outcome.next ((if_neg (by simp [h.link, h.ready])).trans ?_)
    rw [extentPieces_within h.pos h.first h.last]
    simp
  refine ⟨_, hrun, ?_⟩
  rw [hpart]
  have hkey := keyOf_placing (hostCharge_placing s true a bs.length) a
  show mapPut 0 (s.hostCharge true a bs.length).mem.bytes ((s.hostCharge true a bs.length).keyOf a) bs = _
  rw [hkey, hostCharge_mem]

/-! ### Decoders, the link, snoops and configuration space (R460, R462, R469, R477, R492) -/

theorem hdmDecoderCommit_commits {dec base size : Nat} (hserves : s.serves 0 = true) (hdec : dec ≤ 1)
    (hthere : dec = 0 ∨ s.variant ≠ .tbx20d) (hmode : s.host.cxlMode = true)
    (hsize : size / 2 ^ 28 * 2 ^ 28 ≤ (if dec = 0 then stackEnd else s.ddrBytes)) :
    answers (.hdmDecoderCommit dec base size 1) s (s.setHost { s.host with
      decoders := mapSet {} s.host.decoders dec { base := base / 2 ^ 28 * 2 ^ 28, size := size / 2 ^ 28 * 2 ^ 28
                                                  committed := true } }) := by
  have habsent : ¬ (dec = 1 ∧ s.variant = .tbx20d) := fun h => by
    obtain h0 | h0 := hthere
    · omega
    · exact h0 h.2
  have hok : (s.host.cxlMode && decide (1 = 1) && decide (size / 2 ^ 28 * 2 ^ 28 ≤ (if dec = 0 then stackEnd else s.ddrBytes)))
      = true := by rw [hmode, decide_eq_true hsize]; rfl
  show execHdmDecoderCommit dec base size 1 s = _
  unfold execHdmDecoderCommit
  refine congrArg Outcome.next ((if_neg ?_).trans ?_)
  · simpa [hserves, hdec] using fun h1 h2 => habsent ⟨h1, h2⟩
  · dsimp only
    rw [if_pos hok]

/-- The link takes the width and speed of R460, and counts the retraining. -/
theorem cxlLinkRetrain_counts (hretry : s.host.retry = false) (width speed : Nat) :
    ∃ t, answers (.cxlLinkRetrain width speed) s t ∧ t.host.retrains = min (s.host.retrains + 1) 0xFFFF
      ∧ t.host.width = (if linkWidth width = 0 ∨ linkSpeed speed = 0 then 0 else linkWidth width)
      ∧ t.host.speed = (if linkWidth width = 0 ∨ linkSpeed speed = 0 then 0 else linkSpeed speed) := by
  have hposted {c : Prop} [Decidable c] (t : State) (e : Ev) : (if c then t.post e else t).host = t.host := by
    split
    · obtain ⟨v, hv, -⟩ := post_eq_setEv t e
      exact (congrArg State.host hv :)
    · rfl
  refine ⟨_, congrArg Outcome.next (if_neg (Bool.eq_false_iff.mp hretry)), ?_⟩
  dsimp only
  rw [hposted]
  simp [State.setHost, satAdd]

theorem hostAccessTimeout_faults {b : At} {y : Nat} (hheld : (s.at_ b).held = some (.hostLink y)) (hdown : s.host.speed = 0) :
    answers (.hostAccessTimeout b) s
      (((s.coreEvent b 0x0721 2 ((s.at_ b).id.ctx % 4096 * 2 ^ 52 + y % 2 ^ 52)).stopSlot b).faultJob (s.at_ b).id.ctx 0x0721) := by
  show execHostAccessTimeout b s = _
  unfold execHostAccessTimeout
  rw [hheld]
  exact congrArg Outcome.next (if_pos hdown)

/-- A snoop answers with the line as it was held, and leaves it as the snoop asks. -/
theorem cxlCacheSnoop_answers (line : Nat) (kind : SnoopKind) : ∃ t, answers (.cxlCacheSnoop line kind) s t
    ∧ t.host.snoop = (match mapGet 0 s.host.lines line with
      | 0 => none
      | 3 => some (s.memBytes (hostKey (64 * line)) 64)
      | _ => some [])
    ∧ mapGet 0 t.host.lines line = (match kind with
      | .data => min (mapGet 0 s.host.lines line) 1
      | .invalidate => 0
      | .current => mapGet 0 s.host.lines line) := by
  refine ⟨_, rfl, ?_, (mapGet_mapSet_self ..).trans ?_⟩
  · dsimp only [State.setHost]
    by_cases hmiss : mapGet 0 s.host.lines line = 0
    · rw [if_pos hmiss, hmiss]
      rfl
    by_cases hdirty : mapGet 0 s.host.lines line = 3
    · rw [if_neg hmiss, if_pos hdirty, hdirty]
      rfl
    rw [if_neg hmiss, if_neg hdirty]
    split
    case h_1 h => exact absurd h hmiss
    case h_2 h => exact absurd h hdirty
    case h_3 => rfl
  · cases kind
    case data => dsimp only; split <;> omega
    case invalidate => rfl
    case current => rfl

end

/-- Settles O39: the host's accesses in one extent, by their one part, and the commands of the link and of configuration space. -/
theorem hostAccess : Obligations.HostAccess := by
  unfold Obligations.HostAccess
  intro s path fn a x len g
  refine ⟨fun hname hlink hready hpos hfirst hlast hflip => ?access, fun dec base size => hdmDecoderCommit_commits,
    fun width speed hretry => cxlLinkRetrain_counts hretry width speed, fun b y => hostAccessTimeout_faults,
    cxlCacheSnoop_answers, fun hthere => ?power, fun hretry => congrArg Outcome.next (if_neg (Bool.eq_false_iff.mp hretry))⟩
  case access =>
    have h : s.HostGoes path fn a x len g := ⟨hname, hlink, hready, hpos, hfirst, hlast, hflip⟩
    refine ⟨fun r => hostMemRead_refused h, hostMemRead_serves h, fun bs hlen => ?_⟩
    subst hlen
    exact hostMemWrite_stores h
  case power => exact congrArg Outcome.next ((if_neg (by simp [hthere])).trans (if_pos rfl))

end Sys2Proof.Machine
